-- ==== Sys2Proof/Word.lean ====
section
/-!
DEFINITION. The word types of the 80200 (00_scope R9): the 32-bit word, the halfword, the byte, and the
register-number fields of ARM (4 bits) and Thumb (3 bits) instructions (10_state R30).
-/

namespace Sys2Proof

/-- A 32-bit word: a general register, an address, an ARM instruction. -/
abbrev Word := BitVec 32
/-- A 16-bit halfword; a Thumb instruction. -/
abbrev Half := BitVec 16
/-- A byte of memory. -/
abbrev Byte := BitVec 8
/-- A register number of an ARM instruction (R0 to R15). -/
abbrev Reg := BitVec 4
/-- A register number of a Thumb instruction (R0 to R7). -/
abbrev LowReg := BitVec 3

end Sys2Proof
end

