-- ==== Sys2Proof/Syntax.lean ====
section
/-!
DEFINITION. Every instruction of the 80200: one constructor per row of spec/opcode_table.json, in the table's
order (131 ARM rows, then 67 Thumb rows, names beginning with `t`). Fields that the encoding calls SBZ or SBO are
not kept (D14, log 23), except where the manual gives them a meaning (MAR and MRA bits 7:3, U12).
-/

namespace Sys2Proof

/-- The condition field (30_encoding R343); the value 1111 is another instruction space (R360). -/
inductive Cond where
  | eq | ne | cs | cc | mi | pl | vs | vc | hi | ls | ge | lt | gt | le | al
  deriving DecidableEq, Repr, Inhabited

/-- The encoding of a condition (30_encoding R343). -/
def Cond.toBits : Cond → BitVec 4
  | .eq => 0 | .ne => 1 | .cs => 2 | .cc => 3 | .mi => 4 | .pl => 5 | .vs => 6 | .vc => 7
  | .hi => 8 | .ls => 9 | .ge => 10 | .lt => 11 | .gt => 12 | .le => 13 | .al => 14

/-- The four shift kinds of a shifter operand (30_encoding R345, bits 6:5). -/
inductive ShiftKind where
  | lsl | lsr | asr | ror
  deriving DecidableEq, Repr, Inhabited

/-- The encoding of a shift kind. -/
def ShiftKind.toBits : ShiftKind → BitVec 2
  | .lsl => 0 | .lsr => 1 | .asr => 2 | .ror => 3

/-- A register shifted by an immediate amount (30_encoding R345). -/
structure ImmShift where
  amount : BitVec 5
  kind : ShiftKind
  rm : Reg
  deriving DecidableEq, Repr, Inhabited

/-- A register shifted by a register (30_encoding R345). -/
structure RegShift where
  rs : Reg
  kind : ShiftKind
  rm : Reg
  deriving DecidableEq, Repr, Inhabited

/-- An 8-bit immediate rotated right by twice `rot` (30_encoding R345). -/
structure RotImm where
  rot : BitVec 4
  imm8 : BitVec 8
  deriving DecidableEq, Repr, Inhabited

/-- Addressing mode 2 indexing (30_encoding R351): P = 0 W = 0 post, P = 1 W = 0 offset, P = 1 W = 1 pre-indexed.
P = 0 W = 1 is another instruction (LDRT and its like). -/
inductive Index where
  | post | offset | pre
  deriving DecidableEq, Repr, Inhabited

/-- The P bit of an indexing. -/
def Index.pBit : Index → Bool
  | .post => false | .offset => true | .pre => true

/-- The W bit of an indexing. -/
def Index.wBit : Index → Bool
  | .post => false | .offset => false | .pre => true

/-- Addressing mode 2 but for its offset: indexing, direction (true adds), base register (30_encoding R351). -/
structure Mode2 where
  index : Index
  u : Bool
  rn : Reg
  deriving DecidableEq, Repr, Inhabited

/-- Addressing mode 3 but for its offset: the P, U and W bits and the base register (30_encoding R350). -/
structure Mode3 where
  p : Bool
  u : Bool
  w : Bool
  rn : Reg
  deriving DecidableEq, Repr, Inhabited

/-- Addressing mode 4: the P, U and W bits and the base register (30_encoding R352). -/
structure Mode4 where
  p : Bool
  u : Bool
  w : Bool
  rn : Reg
  deriving DecidableEq, Repr, Inhabited

/-- Addressing mode 5 but for its offset: the P, U, N and W bits and the base register (30_encoding R356). -/
structure Mode5 where
  p : Bool
  u : Bool
  n : Bool
  w : Bool
  rn : Reg
  deriving DecidableEq, Repr, Inhabited

/-- The instructions: one constructor per row of the opcode table. -/
inductive Instr where
  /-- ARM BLX__1 (R464): ARM branch with link and exchange, immediate. -/
  | blx1 (h : Bool) (imm : BitVec 24)
  /-- ARM PLD (R497): ARM preload, immediate offset. -/
  | pldImm (u : Bool) (rn : Reg) (off : BitVec 12)
  /-- ARM PLD (R497): ARM preload, (scaled) register offset. -/
  | pldReg (u : Bool) (rn : Reg) (sh : ImmShift)
  /-- ARM UNDEFINED (R360): ARM cond = 1111, every other word (including CDP2, MCR2, MRC2, LDC2, STC2). -/
  | undefUncond (rest : BitVec 28)
  /-- ARM MUL (R421): ARM multiply. -/
  | mul (c : Cond) (s : Bool) (rd rs rm : Reg)
  /-- ARM MLA (R422): ARM multiply. -/
  | mla (c : Cond) (s : Bool) (rd rn rs rm : Reg)
  /-- ARM UMULL (R423): ARM multiply long. -/
  | umull (c : Cond) (s : Bool) (rdHi rdLo rs rm : Reg)
  /-- ARM UMLAL (R424): ARM multiply long. -/
  | umlal (c : Cond) (s : Bool) (rdHi rdLo rs rm : Reg)
  /-- ARM SMULL (R425): ARM multiply long. -/
  | smull (c : Cond) (s : Bool) (rdHi rdLo rs rm : Reg)
  /-- ARM SMLAL (R426): ARM multiply long. -/
  | smlal (c : Cond) (s : Bool) (rdHi rdLo rs rm : Reg)
  /-- ARM SWP (R515): ARM semaphore. -/
  | swp (c : Cond) (rn rd rm : Reg)
  /-- ARM SWPB (R516): ARM semaphore. -/
  | swpb (c : Cond) (rn rd rm : Reg)
  /-- ARM STRH (R494): ARM addressing mode 3, immediate offset. -/
  | strhImm (c : Cond) (a : Mode3) (rd : Reg) (off : BitVec 8)
  /-- ARM STRH (R494): ARM addressing mode 3, register offset. -/
  | strhReg (c : Cond) (a : Mode3) (rd rm : Reg)
  /-- ARM LDRH (R491): ARM addressing mode 3, immediate offset. -/
  | ldrhImm (c : Cond) (a : Mode3) (rd : Reg) (off : BitVec 8)
  /-- ARM LDRH (R491): ARM addressing mode 3, register offset. -/
  | ldrhReg (c : Cond) (a : Mode3) (rd rm : Reg)
  /-- ARM LDRSB (R493): ARM addressing mode 3, immediate offset. -/
  | ldrsbImm (c : Cond) (a : Mode3) (rd : Reg) (off : BitVec 8)
  /-- ARM LDRSB (R493): ARM addressing mode 3, register offset. -/
  | ldrsbReg (c : Cond) (a : Mode3) (rd rm : Reg)
  /-- ARM LDRSH (R492): ARM addressing mode 3, immediate offset. -/
  | ldrshImm (c : Cond) (a : Mode3) (rd : Reg) (off : BitVec 8)
  /-- ARM LDRSH (R492): ARM addressing mode 3, register offset. -/
  | ldrshReg (c : Cond) (a : Mode3) (rd rm : Reg)
  /-- ARM LDRD (R495): ARM addressing mode 3, immediate offset. -/
  | ldrdImm (c : Cond) (a : Mode3) (rd : Reg) (off : BitVec 8)
  /-- ARM LDRD (R495): ARM addressing mode 3, register offset. -/
  | ldrdReg (c : Cond) (a : Mode3) (rd rm : Reg)
  /-- ARM STRD (R496): ARM addressing mode 3, immediate offset. -/
  | strdImm (c : Cond) (a : Mode3) (rd : Reg) (off : BitVec 8)
  /-- ARM STRD (R496): ARM addressing mode 3, register offset. -/
  | strdReg (c : Cond) (a : Mode3) (rd rm : Reg)
  /-- ARM UNDEFINED (R361): ARM unallocated multiply / extra load-store corner (row 5 of 30_encoding.md rule R344). -/
  | undefMul (c : Cond) (rest : BitVec 17) (low : BitVec 4)
  /-- ARM MRS (R400): ARM status register to register. -/
  | mrs (c : Cond) (r : Bool) (rd : Reg)
  /-- ARM MSR (R401): ARM register to status register. -/
  | msrReg (c : Cond) (r : Bool) (mask : BitVec 4) (rm : Reg)
  /-- ARM BX (R463): ARM branch and exchange. -/
  | bx (c : Cond) (rm : Reg)
  /-- ARM BLX__2 (R465): ARM branch with link and exchange, register. -/
  | blx2 (c : Cond) (rm : Reg)
  /-- ARM CLZ (R402): ARM count leading zeros. -/
  | clz (c : Cond) (rd rm : Reg)
  /-- ARM BKPT (R467): ARM software breakpoint. -/
  | bkpt (c : Cond) (imm : BitVec 16)
  /-- ARM QADD (R433): ARM saturating arithmetic. -/
  | qadd (c : Cond) (rn rd rm : Reg)
  /-- ARM QSUB (R434): ARM saturating arithmetic. -/
  | qsub (c : Cond) (rn rd rm : Reg)
  /-- ARM QDADD (R435): ARM saturating arithmetic. -/
  | qdadd (c : Cond) (rn rd rm : Reg)
  /-- ARM QDSUB (R436): ARM saturating arithmetic. -/
  | qdsub (c : Cond) (rn rd rm : Reg)
  /-- ARM SMLAxy (R428): ARM DSP multiply. -/
  | smlaxy (c : Cond) (rd rn rs : Reg) (y x : Bool) (rm : Reg)
  /-- ARM SMLAWy (R430): ARM DSP multiply. -/
  | smlawy (c : Cond) (rd rn rs : Reg) (y : Bool) (rm : Reg)
  /-- ARM SMULWy (R429): ARM DSP multiply. -/
  | smulwy (c : Cond) (rd rs : Reg) (y : Bool) (rm : Reg)
  /-- ARM SMLALxy (R431): ARM DSP multiply. -/
  | smlalxy (c : Cond) (rdHi rdLo rs : Reg) (y x : Bool) (rm : Reg)
  /-- ARM SMULxy (R427): ARM DSP multiply. -/
  | smulxy (c : Cond) (rd rs : Reg) (y x : Bool) (rm : Reg)
  /-- ARM UNDEFINED (R361): ARM miscellaneous space, remaining words (all have bit 7 = 0; with bit 7 = 1 and bit 4 = 0 every word is one of the five DSP multiplies above). -/
  | undefMisc (c : Cond) (op : BitVec 2) (rest : BitVec 12) (low : BitVec 7)
  /-- ARM AND (R383): ARM data processing, immediate shift. -/
  | andShift (c : Cond) (s : Bool) (rn rd : Reg) (sh : ImmShift)
  /-- ARM AND (R383): ARM data processing, register shift. -/
  | andRegShift (c : Cond) (s : Bool) (rn rd : Reg) (sh : RegShift)
  /-- ARM EOR (R384): ARM data processing, immediate shift. -/
  | eorShift (c : Cond) (s : Bool) (rn rd : Reg) (sh : ImmShift)
  /-- ARM EOR (R384): ARM data processing, register shift. -/
  | eorRegShift (c : Cond) (s : Bool) (rn rd : Reg) (sh : RegShift)
  /-- ARM SUB (R385): ARM data processing, immediate shift. -/
  | subShift (c : Cond) (s : Bool) (rn rd : Reg) (sh : ImmShift)
  /-- ARM SUB (R385): ARM data processing, register shift. -/
  | subRegShift (c : Cond) (s : Bool) (rn rd : Reg) (sh : RegShift)
  /-- ARM RSB (R386): ARM data processing, immediate shift. -/
  | rsbShift (c : Cond) (s : Bool) (rn rd : Reg) (sh : ImmShift)
  /-- ARM RSB (R386): ARM data processing, register shift. -/
  | rsbRegShift (c : Cond) (s : Bool) (rn rd : Reg) (sh : RegShift)
  /-- ARM ADD (R387): ARM data processing, immediate shift. -/
  | addShift (c : Cond) (s : Bool) (rn rd : Reg) (sh : ImmShift)
  /-- ARM ADD (R387): ARM data processing, register shift. -/
  | addRegShift (c : Cond) (s : Bool) (rn rd : Reg) (sh : RegShift)
  /-- ARM ADC (R388): ARM data processing, immediate shift. -/
  | adcShift (c : Cond) (s : Bool) (rn rd : Reg) (sh : ImmShift)
  /-- ARM ADC (R388): ARM data processing, register shift. -/
  | adcRegShift (c : Cond) (s : Bool) (rn rd : Reg) (sh : RegShift)
  /-- ARM SBC (R389): ARM data processing, immediate shift. -/
  | sbcShift (c : Cond) (s : Bool) (rn rd : Reg) (sh : ImmShift)
  /-- ARM SBC (R389): ARM data processing, register shift. -/
  | sbcRegShift (c : Cond) (s : Bool) (rn rd : Reg) (sh : RegShift)
  /-- ARM RSC (R390): ARM data processing, immediate shift. -/
  | rscShift (c : Cond) (s : Bool) (rn rd : Reg) (sh : ImmShift)
  /-- ARM RSC (R390): ARM data processing, register shift. -/
  | rscRegShift (c : Cond) (s : Bool) (rn rd : Reg) (sh : RegShift)
  /-- ARM TST (R391): ARM data processing, immediate shift. -/
  | tstShift (c : Cond) (rn : Reg) (sh : ImmShift)
  /-- ARM TST (R391): ARM data processing, register shift. -/
  | tstRegShift (c : Cond) (rn : Reg) (sh : RegShift)
  /-- ARM TEQ (R392): ARM data processing, immediate shift. -/
  | teqShift (c : Cond) (rn : Reg) (sh : ImmShift)
  /-- ARM TEQ (R392): ARM data processing, register shift. -/
  | teqRegShift (c : Cond) (rn : Reg) (sh : RegShift)
  /-- ARM CMP (R393): ARM data processing, immediate shift. -/
  | cmpShift (c : Cond) (rn : Reg) (sh : ImmShift)
  /-- ARM CMP (R393): ARM data processing, register shift. -/
  | cmpRegShift (c : Cond) (rn : Reg) (sh : RegShift)
  /-- ARM CMN (R394): ARM data processing, immediate shift. -/
  | cmnShift (c : Cond) (rn : Reg) (sh : ImmShift)
  /-- ARM CMN (R394): ARM data processing, register shift. -/
  | cmnRegShift (c : Cond) (rn : Reg) (sh : RegShift)
  /-- ARM ORR (R395): ARM data processing, immediate shift. -/
  | orrShift (c : Cond) (s : Bool) (rn rd : Reg) (sh : ImmShift)
  /-- ARM ORR (R395): ARM data processing, register shift. -/
  | orrRegShift (c : Cond) (s : Bool) (rn rd : Reg) (sh : RegShift)
  /-- ARM MOV (R396): ARM data processing, immediate shift. -/
  | movShift (c : Cond) (s : Bool) (rd : Reg) (sh : ImmShift)
  /-- ARM MOV (R396): ARM data processing, register shift. -/
  | movRegShift (c : Cond) (s : Bool) (rd : Reg) (sh : RegShift)
  /-- ARM BIC (R397): ARM data processing, immediate shift. -/
  | bicShift (c : Cond) (s : Bool) (rn rd : Reg) (sh : ImmShift)
  /-- ARM BIC (R397): ARM data processing, register shift. -/
  | bicRegShift (c : Cond) (s : Bool) (rn rd : Reg) (sh : RegShift)
  /-- ARM MVN (R398): ARM data processing, immediate shift. -/
  | mvnShift (c : Cond) (s : Bool) (rd : Reg) (sh : ImmShift)
  /-- ARM MVN (R398): ARM data processing, register shift. -/
  | mvnRegShift (c : Cond) (s : Bool) (rd : Reg) (sh : RegShift)
  /-- ARM MSR (R401): ARM immediate to status register. -/
  | msrImm (c : Cond) (r : Bool) (mask : BitVec 4) (op : RotImm)
  /-- ARM UNDEFINED (R361): ARM unallocated neighbour of MSR immediate (row 10 of 30_encoding.md rule R344). -/
  | undefMsr (c : Cond) (x : Bool) (rest : BitVec 20)
  /-- ARM AND (R383): ARM data processing, immediate. -/
  | andImm (c : Cond) (s : Bool) (rn rd : Reg) (op : RotImm)
  /-- ARM EOR (R384): ARM data processing, immediate. -/
  | eorImm (c : Cond) (s : Bool) (rn rd : Reg) (op : RotImm)
  /-- ARM SUB (R385): ARM data processing, immediate. -/
  | subImm (c : Cond) (s : Bool) (rn rd : Reg) (op : RotImm)
  /-- ARM RSB (R386): ARM data processing, immediate. -/
  | rsbImm (c : Cond) (s : Bool) (rn rd : Reg) (op : RotImm)
  /-- ARM ADD (R387): ARM data processing, immediate. -/
  | addImm (c : Cond) (s : Bool) (rn rd : Reg) (op : RotImm)
  /-- ARM ADC (R388): ARM data processing, immediate. -/
  | adcImm (c : Cond) (s : Bool) (rn rd : Reg) (op : RotImm)
  /-- ARM SBC (R389): ARM data processing, immediate. -/
  | sbcImm (c : Cond) (s : Bool) (rn rd : Reg) (op : RotImm)
  /-- ARM RSC (R390): ARM data processing, immediate. -/
  | rscImm (c : Cond) (s : Bool) (rn rd : Reg) (op : RotImm)
  /-- ARM TST (R391): ARM data processing, immediate. -/
  | tstImm (c : Cond) (rn : Reg) (op : RotImm)
  /-- ARM TEQ (R392): ARM data processing, immediate. -/
  | teqImm (c : Cond) (rn : Reg) (op : RotImm)
  /-- ARM CMP (R393): ARM data processing, immediate. -/
  | cmpImm (c : Cond) (rn : Reg) (op : RotImm)
  /-- ARM CMN (R394): ARM data processing, immediate. -/
  | cmnImm (c : Cond) (rn : Reg) (op : RotImm)
  /-- ARM ORR (R395): ARM data processing, immediate. -/
  | orrImm (c : Cond) (s : Bool) (rn rd : Reg) (op : RotImm)
  /-- ARM MOV (R396): ARM data processing, immediate. -/
  | movImm (c : Cond) (s : Bool) (rd : Reg) (op : RotImm)
  /-- ARM BIC (R397): ARM data processing, immediate. -/
  | bicImm (c : Cond) (s : Bool) (rn rd : Reg) (op : RotImm)
  /-- ARM MVN (R398): ARM data processing, immediate. -/
  | mvnImm (c : Cond) (s : Bool) (rd : Reg) (op : RotImm)
  /-- ARM LDRT (R487): ARM addressing mode 2, immediate offset, post-indexed user access. -/
  | ldrtImm (c : Cond) (u : Bool) (rn rd : Reg) (off : BitVec 12)
  /-- ARM LDRT (R487): ARM addressing mode 2, (scaled) register offset, post-indexed user access. -/
  | ldrtReg (c : Cond) (u : Bool) (rn rd : Reg) (sh : ImmShift)
  /-- ARM LDRBT (R488): ARM addressing mode 2, immediate offset, post-indexed user access. -/
  | ldrbtImm (c : Cond) (u : Bool) (rn rd : Reg) (off : BitVec 12)
  /-- ARM LDRBT (R488): ARM addressing mode 2, (scaled) register offset, post-indexed user access. -/
  | ldrbtReg (c : Cond) (u : Bool) (rn rd : Reg) (sh : ImmShift)
  /-- ARM STRT (R489): ARM addressing mode 2, immediate offset, post-indexed user access. -/
  | strtImm (c : Cond) (u : Bool) (rn rd : Reg) (off : BitVec 12)
  /-- ARM STRT (R489): ARM addressing mode 2, (scaled) register offset, post-indexed user access. -/
  | strtReg (c : Cond) (u : Bool) (rn rd : Reg) (sh : ImmShift)
  /-- ARM STRBT (R490): ARM addressing mode 2, immediate offset, post-indexed user access. -/
  | strbtImm (c : Cond) (u : Bool) (rn rd : Reg) (off : BitVec 12)
  /-- ARM STRBT (R490): ARM addressing mode 2, (scaled) register offset, post-indexed user access. -/
  | strbtReg (c : Cond) (u : Bool) (rn rd : Reg) (sh : ImmShift)
  /-- ARM LDR (R483): ARM addressing mode 2, immediate offset. -/
  | ldrImm (c : Cond) (a : Mode2) (rd : Reg) (off : BitVec 12)
  /-- ARM LDR (R483): ARM addressing mode 2, (scaled) register offset. -/
  | ldrReg (c : Cond) (a : Mode2) (rd : Reg) (sh : ImmShift)
  /-- ARM LDRB (R484): ARM addressing mode 2, immediate offset. -/
  | ldrbImm (c : Cond) (a : Mode2) (rd : Reg) (off : BitVec 12)
  /-- ARM LDRB (R484): ARM addressing mode 2, (scaled) register offset. -/
  | ldrbReg (c : Cond) (a : Mode2) (rd : Reg) (sh : ImmShift)
  /-- ARM STR (R485): ARM addressing mode 2, immediate offset. -/
  | strImm (c : Cond) (a : Mode2) (rd : Reg) (off : BitVec 12)
  /-- ARM STR (R485): ARM addressing mode 2, (scaled) register offset. -/
  | strReg (c : Cond) (a : Mode2) (rd : Reg) (sh : ImmShift)
  /-- ARM STRB (R486): ARM addressing mode 2, immediate offset. -/
  | strbImm (c : Cond) (a : Mode2) (rd : Reg) (off : BitVec 12)
  /-- ARM STRB (R486): ARM addressing mode 2, (scaled) register offset. -/
  | strbReg (c : Cond) (a : Mode2) (rd : Reg) (sh : ImmShift)
  /-- ARM UNDEFINED (R361): ARM architecturally undefined space (row 14 of 30_encoding.md rule R344). -/
  | undefMedia (c : Cond) (rest : BitVec 20) (low : BitVec 4)
  /-- ARM LDM__3 (R510): ARM load multiple with PC and S: exception return. -/
  | ldm3 (c : Cond) (a : Mode4) (list : BitVec 15)
  /-- ARM LDM__2 (R509): ARM load multiple, user registers. -/
  | ldm2 (c : Cond) (a : Mode4) (list : BitVec 15)
  /-- ARM LDM__1 (R505): ARM load multiple. -/
  | ldm1 (c : Cond) (a : Mode4) (list : BitVec 16)
  /-- ARM STM__2 (R511): ARM store multiple, user registers. -/
  | stm2 (c : Cond) (a : Mode4) (list : BitVec 16)
  /-- ARM STM__1 (R506): ARM store multiple. -/
  | stm1 (c : Cond) (a : Mode4) (list : BitVec 16)
  /-- ARM B (R461): ARM branch. -/
  | b (c : Cond) (imm : BitVec 24)
  /-- ARM BL (R462): ARM branch with link. -/
  | bl (c : Cond) (imm : BitVec 24)
  /-- ARM MAR (R575): Internal accumulator access (MCRR to coprocessor 0). -/
  | mar (c : Cond) (rdHi rdLo : Reg) (sbz : BitVec 5) (acc : BitVec 3)
  /-- ARM MRA (R576): Internal accumulator access (MRRC to coprocessor 0). -/
  | mra (c : Cond) (rdHi rdLo : Reg) (sbz : BitVec 5) (acc : BitVec 3)
  /-- ARM MCRR (R543): ARM two-register coprocessor transfer, cp_num != 0. -/
  | mcrr (c : Cond) (rn rd : Reg) (cp op crm : BitVec 4)
  /-- ARM MRRC (R543): ARM two-register coprocessor transfer, cp_num != 0. -/
  | mrrc (c : Cond) (rn rd : Reg) (cp op crm : BitVec 4)
  /-- ARM LDC (R540): ARM coprocessor load (CP14, CP13). -/
  | ldc (c : Cond) (a : Mode5) (crd cp : BitVec 4) (off : BitVec 8)
  /-- ARM STC (R541): ARM coprocessor store (CP14, CP13). -/
  | stc (c : Cond) (a : Mode5) (crd cp : BitVec 4) (off : BitVec 8)
  /-- ARM CDP (R542): ARM coprocessor data processing. -/
  | cdp (c : Cond) (op1 crn crd cp : BitVec 4) (op2 : BitVec 3) (crm : BitVec 4)
  /-- ARM MIA (R572): Multiply with internal accumulate (MCR to coprocessor 0). -/
  | mia (c : Cond) (rs : Reg) (acc : BitVec 3) (rm : Reg)
  /-- ARM MIAPH (R573): Multiply with internal accumulate, packed halfwords. -/
  | miaph (c : Cond) (rs : Reg) (acc : BitVec 3) (rm : Reg)
  /-- ARM MIABB (R574): Multiply with internal accumulate, 16 x 16. -/
  | miabb (c : Cond) (rs : Reg) (acc : BitVec 3) (rm : Reg)
  /-- ARM MIABT (R574): Multiply with internal accumulate, 16 x 16. -/
  | miabt (c : Cond) (rs : Reg) (acc : BitVec 3) (rm : Reg)
  /-- ARM MIATB (R574): Multiply with internal accumulate, 16 x 16. -/
  | miatb (c : Cond) (rs : Reg) (acc : BitVec 3) (rm : Reg)
  /-- ARM MIATT (R574): Multiply with internal accumulate, 16 x 16. -/
  | miatt (c : Cond) (rs : Reg) (acc : BitVec 3) (rm : Reg)
  /-- ARM MCR (R532): ARM register to coprocessor. -/
  | mcr (c : Cond) (op1 : BitVec 3) (crn : BitVec 4) (rd : Reg) (cp : BitVec 4) (op2 : BitVec 3) (crm : BitVec 4)
  /-- ARM MRC (R533): ARM coprocessor to register. -/
  | mrc (c : Cond) (op1 : BitVec 3) (crn : BitVec 4) (rd : Reg) (cp : BitVec 4) (op2 : BitVec 3) (crm : BitVec 4)
  /-- ARM SWI (R466): ARM software interrupt. -/
  | swi (c : Cond) (imm : BitVec 24)
  /-- Thumb LSL__1 (R593): Thumb shift by immediate. -/
  | tLsl1 (imm : BitVec 5) (rm rd : LowReg)
  /-- Thumb LSR__1 (R594): Thumb shift by immediate. -/
  | tLsr1 (imm : BitVec 5) (rm rd : LowReg)
  /-- Thumb ASR__1 (R595): Thumb shift by immediate. -/
  | tAsr1 (imm : BitVec 5) (rm rd : LowReg)
  /-- Thumb ADD__3 (R596): Thumb add register. -/
  | tAdd3 (rm rn rd : LowReg)
  /-- Thumb SUB__3 (R597): Thumb subtract register. -/
  | tSub3 (rm rn rd : LowReg)
  /-- Thumb ADD__1 (R598): Thumb add 3-bit immediate. -/
  | tAdd1 (imm : BitVec 3) (rn rd : LowReg)
  /-- Thumb SUB__1 (R599): Thumb subtract 3-bit immediate. -/
  | tSub1 (imm : BitVec 3) (rn rd : LowReg)
  /-- Thumb MOV__1 (R600): Thumb 8-bit immediate. -/
  | tMov1 (rd : LowReg) (imm : BitVec 8)
  /-- Thumb CMP__1 (R601): Thumb 8-bit immediate. -/
  | tCmp1 (rn : LowReg) (imm : BitVec 8)
  /-- Thumb ADD__2 (R602): Thumb 8-bit immediate. -/
  | tAdd2 (rd : LowReg) (imm : BitVec 8)
  /-- Thumb SUB__2 (R603): Thumb 8-bit immediate. -/
  | tSub2 (rd : LowReg) (imm : BitVec 8)
  /-- Thumb AND (R604): Thumb ALU register. -/
  | tAnd (rm rd : LowReg)
  /-- Thumb EOR (R605): Thumb ALU register. -/
  | tEor (rm rd : LowReg)
  /-- Thumb LSL__2 (R606): Thumb ALU register. -/
  | tLsl2 (rm rd : LowReg)
  /-- Thumb LSR__2 (R607): Thumb ALU register. -/
  | tLsr2 (rm rd : LowReg)
  /-- Thumb ASR__2 (R608): Thumb ALU register. -/
  | tAsr2 (rm rd : LowReg)
  /-- Thumb ADC (R609): Thumb ALU register. -/
  | tAdc (rm rd : LowReg)
  /-- Thumb SBC (R610): Thumb ALU register. -/
  | tSbc (rm rd : LowReg)
  /-- Thumb ROR (R611): Thumb ALU register. -/
  | tRor (rm rd : LowReg)
  /-- Thumb TST (R612): Thumb ALU register. -/
  | tTst (rm rd : LowReg)
  /-- Thumb NEG (R613): Thumb ALU register. -/
  | tNeg (rm rd : LowReg)
  /-- Thumb CMP__2 (R614): Thumb ALU register. -/
  | tCmp2 (rm rd : LowReg)
  /-- Thumb CMN (R615): Thumb ALU register. -/
  | tCmn (rm rd : LowReg)
  /-- Thumb ORR (R616): Thumb ALU register. -/
  | tOrr (rm rd : LowReg)
  /-- Thumb MUL (R617): Thumb ALU register. -/
  | tMul (rm rd : LowReg)
  /-- Thumb BIC (R618): Thumb ALU register. -/
  | tBic (rm rd : LowReg)
  /-- Thumb MVN (R619): Thumb ALU register. -/
  | tMvn (rm rd : LowReg)
  /-- Thumb ADD__4 (R625): Thumb high register. -/
  | tAdd4 (d m : Reg)
  /-- Thumb CMP__3 (R626): Thumb high register. -/
  | tCmp3 (n m : Reg)
  /-- Thumb MOV__3 (R627): Thumb high register. -/
  | tMov3 (d m : Reg)
  /-- Thumb BX (R628): Thumb branch and exchange. -/
  | tBx (m : Reg)
  /-- Thumb BLX__2 (R629): Thumb branch with link and exchange, register. -/
  | tBlx2 (m : Reg)
  /-- Thumb LDR__3 (R630): Thumb load PC-relative. -/
  | tLdr3 (rd : LowReg) (imm : BitVec 8)
  /-- Thumb STR__2 (R631): Thumb load/store register offset. -/
  | tStr2 (rm rn rd : LowReg)
  /-- Thumb STRH__2 (R632): Thumb load/store register offset. -/
  | tStrh2 (rm rn rd : LowReg)
  /-- Thumb STRB__2 (R633): Thumb load/store register offset. -/
  | tStrb2 (rm rn rd : LowReg)
  /-- Thumb LDRSB (R634): Thumb load/store register offset. -/
  | tLdrsb (rm rn rd : LowReg)
  /-- Thumb LDR__2 (R635): Thumb load/store register offset. -/
  | tLdr2 (rm rn rd : LowReg)
  /-- Thumb LDRH__2 (R636): Thumb load/store register offset. -/
  | tLdrh2 (rm rn rd : LowReg)
  /-- Thumb LDRB__2 (R637): Thumb load/store register offset. -/
  | tLdrb2 (rm rn rd : LowReg)
  /-- Thumb LDRSH (R638): Thumb load/store register offset. -/
  | tLdrsh (rm rn rd : LowReg)
  /-- Thumb STR__1 (R639): Thumb load/store immediate offset. -/
  | tStr1 (imm : BitVec 5) (rn rd : LowReg)
  /-- Thumb LDR__1 (R640): Thumb load/store immediate offset. -/
  | tLdr1 (imm : BitVec 5) (rn rd : LowReg)
  /-- Thumb STRB__1 (R641): Thumb load/store immediate offset. -/
  | tStrb1 (imm : BitVec 5) (rn rd : LowReg)
  /-- Thumb LDRB__1 (R642): Thumb load/store immediate offset. -/
  | tLdrb1 (imm : BitVec 5) (rn rd : LowReg)
  /-- Thumb STRH__1 (R643): Thumb load/store halfword immediate offset. -/
  | tStrh1 (imm : BitVec 5) (rn rd : LowReg)
  /-- Thumb LDRH__1 (R644): Thumb load/store halfword immediate offset. -/
  | tLdrh1 (imm : BitVec 5) (rn rd : LowReg)
  /-- Thumb STR__3 (R645): Thumb store SP-relative. -/
  | tStr3 (rd : LowReg) (imm : BitVec 8)
  /-- Thumb LDR__4 (R646): Thumb load SP-relative. -/
  | tLdr4 (rd : LowReg) (imm : BitVec 8)
  /-- Thumb ADD__5 (R647): Thumb add to PC. -/
  | tAdd5 (rd : LowReg) (imm : BitVec 8)
  /-- Thumb ADD__6 (R648): Thumb add to SP. -/
  | tAdd6 (rd : LowReg) (imm : BitVec 8)
  /-- Thumb ADD__7 (R649): Thumb adjust SP. -/
  | tAdd7 (imm : BitVec 7)
  /-- Thumb SUB__4 (R650): Thumb adjust SP. -/
  | tSub4 (imm : BitVec 7)
  /-- Thumb PUSH (R651): Thumb push registers. -/
  | tPush (r : Bool) (list : BitVec 8)
  /-- Thumb POP (R652): Thumb pop registers. -/
  | tPop (r : Bool) (list : BitVec 8)
  /-- Thumb BKPT (R659): Thumb software breakpoint. -/
  | tBkpt (imm : BitVec 8)
  /-- Thumb UNDEFINED (R660): Thumb remaining 1011 space. -/
  | tUndefMisc (rest : BitVec 12)
  /-- Thumb STMIA (R653): Thumb store multiple. -/
  | tStmia (rn : LowReg) (list : BitVec 8)
  /-- Thumb LDMIA (R654): Thumb load multiple. -/
  | tLdmia (rn : LowReg) (list : BitVec 8)
  /-- Thumb UNDEFINED (R660): Thumb conditional branch with cond = 1110. -/
  | tUndefCond (rest : BitVec 8)
  /-- Thumb SWI (R658): Thumb software interrupt. -/
  | tSwi (imm : BitVec 8)
  /-- Thumb B__1 (R655): Thumb conditional branch. -/
  | tB1 (c : Cond) (imm : BitVec 8)
  /-- Thumb B__2 (R656): Thumb unconditional branch. -/
  | tB2 (imm : BitVec 11)
  /-- Thumb UNDEFINED (R660): Thumb BLX (1) second half with bit 0 = 1. -/
  | tUndefBlx (off : BitVec 10)
  /-- Thumb BLX__1 (R657): Thumb second half of the BLX pair. -/
  | tBlx1 (off : BitVec 10)
  /-- Thumb BL__BLX__1 (R657): Thumb first half of the pair (H = 10). -/
  | tBlFirst (off : BitVec 11)
  /-- Thumb BL (R657): Thumb second half of the BL pair (H = 11). -/
  | tBl (off : BitVec 11)
  deriving DecidableEq, Repr

end Sys2Proof
end

