-- ==== Sys2Proof/WellFormed.lean ====
section
/-!
DEFINITION. Which terms of `Instr` stand for a word of their own row. The opcode table is read in order (30_encoding
R378: the first matching row wins), so a term of a wide row whose word an earlier, narrower row takes (R375) is ill
formed. Nothing here restricts registers: what an instruction does with a forbidden register is its meaning's matter.
-/

namespace Sys2Proof

/-- Rows 1 to 3 (BLX(1), PLD) come before the rest of the cond = 1111 space (R360). -/
def wfUncond (rest : BitVec 28) : Bool :=
  !(rest &&& 0xE000000#28 == 0xA000000#28) && !(rest &&& 0xF70F000#28 == 0x550F000#28)
    && !(rest &&& 0xF70F010#28 == 0x750F000#28)

/-- Rows 5 to 12 (multiplies, SWP) come before the unallocated words with bits 7:4 = 1001 (R344 row 5). -/
def wfUndefMul (rest : BitVec 17) : Bool :=
  let b := rest.extractLsb' 12 5
  !(b.extractLsb' 2 3 == 0b000#3) && !(b.extractLsb' 3 2 == 0b01#2) && !(b == 0b10000#5) && !(b == 0b10100#5)

/-- Rows 26 to 35 come before the remaining miscellaneous words (R344 row 6). -/
def wfUndefMisc (op : BitVec 2) (low : BitVec 7) : Bool :=
  let k := low.extractLsb' 4 3
  !(k == 0b000#3) && !(k == 0b101#3) && !(k == 0b001#3 && op == 0b01#2) && !(k == 0b001#3 && op == 0b11#2)
    && !(k == 0b011#3 && op == 0b01#2) && !(k == 0b111#3 && op == 0b01#2)

/-- MAR and MRA take coprocessor 0 (R359, R375). -/
def wfTwoReg (cp : BitVec 4) : Bool := !(cp == 0#4)

/-- P = 0, U = 0, N = 1, W = 0 is MCRR/MRRC, not LDC/STC (R375). -/
def wfMode5 (a : Mode5) : Bool := !(!a.p && !a.u && a.n && !a.w)

/-- The listed multiply-with-internal-accumulate words take opcode_1 = 001 of coprocessor 0 (R358, R375). -/
def wfMcr (op1 : BitVec 3) (crn cp : BitVec 4) : Bool :=
  !(cp == 0#4 && op1 == 1#3
    && (crn == 0b0000#4 || crn == 0b1000#4 || crn == 0b1100#4 || crn == 0b1101#4 || crn == 0b1110#4 || crn == 0b1111#4))

/-- Thumb B(1) has conditions 0000 to 1101 (R371 rows 17 to 19). -/
def wfThumbCond (c : Cond) : Bool := !(c == .al)

/-- ADD/SUB SP, PUSH, POP and BKPT come before the rest of the Thumb 1011 space (R371 row 15). -/
def wfThumbMisc (rest : BitVec 12) : Bool :=
  let k := rest.extractLsb' 8 4
  !(k == 0b0000#4) && !(k.extractLsb' 1 3 == 0b010#3) && !(k.extractLsb' 1 3 == 0b110#3) && !(k == 0b1110#4)

/-- Does the term stand for a word of its own row. -/
def Instr.wf : Instr → Bool
  | .blx1 _ _ => true
  | .pldImm _ _ _ => true
  | .pldReg _ _ _ => true
  | .undefUncond rest => wfUncond rest
  | .mul _ _ _ _ _ => true
  | .mla _ _ _ _ _ _ => true
  | .umull _ _ _ _ _ _ => true
  | .umlal _ _ _ _ _ _ => true
  | .smull _ _ _ _ _ _ => true
  | .smlal _ _ _ _ _ _ => true
  | .swp _ _ _ _ => true
  | .swpb _ _ _ _ => true
  | .strhImm _ _ _ _ => true
  | .strhReg _ _ _ _ => true
  | .ldrhImm _ _ _ _ => true
  | .ldrhReg _ _ _ _ => true
  | .ldrsbImm _ _ _ _ => true
  | .ldrsbReg _ _ _ _ => true
  | .ldrshImm _ _ _ _ => true
  | .ldrshReg _ _ _ _ => true
  | .ldrdImm _ _ _ _ => true
  | .ldrdReg _ _ _ _ => true
  | .strdImm _ _ _ _ => true
  | .strdReg _ _ _ _ => true
  | .undefMul _ rest _ => wfUndefMul rest
  | .mrs _ _ _ => true
  | .msrReg _ _ _ _ => true
  | .bx _ _ => true
  | .blx2 _ _ => true
  | .clz _ _ _ => true
  | .bkpt _ _ => true
  | .qadd _ _ _ _ => true
  | .qsub _ _ _ _ => true
  | .qdadd _ _ _ _ => true
  | .qdsub _ _ _ _ => true
  | .smlaxy _ _ _ _ _ _ _ => true
  | .smlawy _ _ _ _ _ _ => true
  | .smulwy _ _ _ _ _ => true
  | .smlalxy _ _ _ _ _ _ _ => true
  | .smulxy _ _ _ _ _ _ => true
  | .undefMisc _ op _ low => wfUndefMisc op low
  | .andShift _ _ _ _ _ => true
  | .andRegShift _ _ _ _ _ => true
  | .eorShift _ _ _ _ _ => true
  | .eorRegShift _ _ _ _ _ => true
  | .subShift _ _ _ _ _ => true
  | .subRegShift _ _ _ _ _ => true
  | .rsbShift _ _ _ _ _ => true
  | .rsbRegShift _ _ _ _ _ => true
  | .addShift _ _ _ _ _ => true
  | .addRegShift _ _ _ _ _ => true
  | .adcShift _ _ _ _ _ => true
  | .adcRegShift _ _ _ _ _ => true
  | .sbcShift _ _ _ _ _ => true
  | .sbcRegShift _ _ _ _ _ => true
  | .rscShift _ _ _ _ _ => true
  | .rscRegShift _ _ _ _ _ => true
  | .tstShift _ _ _ => true
  | .tstRegShift _ _ _ => true
  | .teqShift _ _ _ => true
  | .teqRegShift _ _ _ => true
  | .cmpShift _ _ _ => true
  | .cmpRegShift _ _ _ => true
  | .cmnShift _ _ _ => true
  | .cmnRegShift _ _ _ => true
  | .orrShift _ _ _ _ _ => true
  | .orrRegShift _ _ _ _ _ => true
  | .movShift _ _ _ _ => true
  | .movRegShift _ _ _ _ => true
  | .bicShift _ _ _ _ _ => true
  | .bicRegShift _ _ _ _ _ => true
  | .mvnShift _ _ _ _ => true
  | .mvnRegShift _ _ _ _ => true
  | .msrImm _ _ _ _ => true
  | .undefMsr _ _ _ => true
  | .andImm _ _ _ _ _ => true
  | .eorImm _ _ _ _ _ => true
  | .subImm _ _ _ _ _ => true
  | .rsbImm _ _ _ _ _ => true
  | .addImm _ _ _ _ _ => true
  | .adcImm _ _ _ _ _ => true
  | .sbcImm _ _ _ _ _ => true
  | .rscImm _ _ _ _ _ => true
  | .tstImm _ _ _ => true
  | .teqImm _ _ _ => true
  | .cmpImm _ _ _ => true
  | .cmnImm _ _ _ => true
  | .orrImm _ _ _ _ _ => true
  | .movImm _ _ _ _ => true
  | .bicImm _ _ _ _ _ => true
  | .mvnImm _ _ _ _ => true
  | .ldrtImm _ _ _ _ _ => true
  | .ldrtReg _ _ _ _ _ => true
  | .ldrbtImm _ _ _ _ _ => true
  | .ldrbtReg _ _ _ _ _ => true
  | .strtImm _ _ _ _ _ => true
  | .strtReg _ _ _ _ _ => true
  | .strbtImm _ _ _ _ _ => true
  | .strbtReg _ _ _ _ _ => true
  | .ldrImm _ _ _ _ => true
  | .ldrReg _ _ _ _ => true
  | .ldrbImm _ _ _ _ => true
  | .ldrbReg _ _ _ _ => true
  | .strImm _ _ _ _ => true
  | .strReg _ _ _ _ => true
  | .strbImm _ _ _ _ => true
  | .strbReg _ _ _ _ => true
  | .undefMedia _ _ _ => true
  | .ldm3 _ _ _ => true
  | .ldm2 _ _ _ => true
  | .ldm1 _ _ _ => true
  | .stm2 _ _ _ => true
  | .stm1 _ _ _ => true
  | .b _ _ => true
  | .bl _ _ => true
  | .mar _ _ _ _ _ => true
  | .mra _ _ _ _ _ => true
  | .mcrr _ _ _ cp _ _ => wfTwoReg cp
  | .mrrc _ _ _ cp _ _ => wfTwoReg cp
  | .ldc _ a _ _ _ => wfMode5 a
  | .stc _ a _ _ _ => wfMode5 a
  | .cdp _ _ _ _ _ _ _ => true
  | .mia _ _ _ _ => true
  | .miaph _ _ _ _ => true
  | .miabb _ _ _ _ => true
  | .miabt _ _ _ _ => true
  | .miatb _ _ _ _ => true
  | .miatt _ _ _ _ => true
  | .mcr _ op1 crn _ cp _ _ => wfMcr op1 crn cp
  | .mrc _ _ _ _ _ _ _ => true
  | .swi _ _ => true
  | .tLsl1 _ _ _ => true
  | .tLsr1 _ _ _ => true
  | .tAsr1 _ _ _ => true
  | .tAdd3 _ _ _ => true
  | .tSub3 _ _ _ => true
  | .tAdd1 _ _ _ => true
  | .tSub1 _ _ _ => true
  | .tMov1 _ _ => true
  | .tCmp1 _ _ => true
  | .tAdd2 _ _ => true
  | .tSub2 _ _ => true
  | .tAnd _ _ => true
  | .tEor _ _ => true
  | .tLsl2 _ _ => true
  | .tLsr2 _ _ => true
  | .tAsr2 _ _ => true
  | .tAdc _ _ => true
  | .tSbc _ _ => true
  | .tRor _ _ => true
  | .tTst _ _ => true
  | .tNeg _ _ => true
  | .tCmp2 _ _ => true
  | .tCmn _ _ => true
  | .tOrr _ _ => true
  | .tMul _ _ => true
  | .tBic _ _ => true
  | .tMvn _ _ => true
  | .tAdd4 _ _ => true
  | .tCmp3 _ _ => true
  | .tMov3 _ _ => true
  | .tBx _ => true
  | .tBlx2 _ => true
  | .tLdr3 _ _ => true
  | .tStr2 _ _ _ => true
  | .tStrh2 _ _ _ => true
  | .tStrb2 _ _ _ => true
  | .tLdrsb _ _ _ => true
  | .tLdr2 _ _ _ => true
  | .tLdrh2 _ _ _ => true
  | .tLdrb2 _ _ _ => true
  | .tLdrsh _ _ _ => true
  | .tStr1 _ _ _ => true
  | .tLdr1 _ _ _ => true
  | .tStrb1 _ _ _ => true
  | .tLdrb1 _ _ _ => true
  | .tStrh1 _ _ _ => true
  | .tLdrh1 _ _ _ => true
  | .tStr3 _ _ => true
  | .tLdr4 _ _ => true
  | .tAdd5 _ _ => true
  | .tAdd6 _ _ => true
  | .tAdd7 _ => true
  | .tSub4 _ => true
  | .tPush _ _ => true
  | .tPop _ _ => true
  | .tBkpt _ => true
  | .tUndefMisc rest => wfThumbMisc rest
  | .tStmia _ _ => true
  | .tLdmia _ _ => true
  | .tUndefCond _ => true
  | .tSwi _ => true
  | .tB1 c _ => wfThumbCond c
  | .tB2 _ => true
  | .tUndefBlx _ => true
  | .tBlx1 _ => true
  | .tBlFirst _ => true
  | .tBl _ => true

end Sys2Proof
end

