-- ==== Sys2Proof/Decode.lean ====
section
/-!
DEFINITION. The decoder and the encoder, both read off spec/opcode_table.json (30_encoding R344 to R378).
The decoder is the table itself: a list of rows in the table's order, the first row with `w AND mask = match` wins
(R378). `decodeBytes` is total on any bytes and rejects by name. The encoder writes SBZ fields 0 and SBO fields 1.
-/

namespace Sys2Proof

/-- The condition a field names; 1111 does not reach it (its words are rows 1 to 4). -/
def Cond.ofBits (b : BitVec 4) : Cond :=
  if b = 0 then .eq else if b = 1 then .ne else if b = 2 then .cs else if b = 3 then .cc
  else if b = 4 then .mi else if b = 5 then .pl else if b = 6 then .vs else if b = 7 then .vc
  else if b = 8 then .hi else if b = 9 then .ls else if b = 10 then .ge else if b = 11 then .lt
  else if b = 12 then .gt else if b = 13 then .le else .al

/-- The shift kind a field names (30_encoding R345). -/
def ShiftKind.ofBits (b : BitVec 2) : ShiftKind :=
  if b = 0 then .lsl else if b = 1 then .lsr else if b = 2 then .asr else .ror

/-- The indexing P and W name (30_encoding R351). P = 0 with W = 1 does not reach it. -/
def Index.ofBits (p w : Bool) : Index :=
  if p then (if w then .pre else .offset) else .post

/-- One row of the opcode table: the words `w` with `w AND mask = pat` are its own, unless an earlier row took them. -/
structure DecodeRow (n : Nat) where
  mask : BitVec n
  pat : BitVec n
  build : BitVec n → Instr

/-- Does the row's pattern hold of the word. -/
def DecodeRow.hits {n : Nat} (r : DecodeRow n) (w : BitVec n) : Bool := w &&& r.mask == r.pat

/-- Rows 1 to 25: the unconditional space, multiplies, swap, halfword and doubleword transfers. -/
def armRowsExtra : List (DecodeRow 32) := [
  ⟨0xFE000000#32, 0xFA000000#32, fun w => .blx1 (w.getLsbD 24) (w.extractLsb' 0 24)⟩,
  ⟨0xFF70F000#32, 0xF550F000#32, fun w => .pldImm (w.getLsbD 23) (w.extractLsb' 16 4) (w.extractLsb' 0 12)⟩,
  ⟨0xFF70F010#32, 0xF750F000#32, fun w => .pldReg (w.getLsbD 23) (w.extractLsb' 16 4) ⟨w.extractLsb' 7 5, ShiftKind.ofBits (w.extractLsb' 5 2), w.extractLsb' 0 4⟩⟩,
  ⟨0xF0000000#32, 0xF0000000#32, fun w => .undefUncond (w.extractLsb' 0 28)⟩,
  ⟨0x0FE000F0#32, 0x00000090#32, fun w => .mul (Cond.ofBits (w.extractLsb' 28 4)) (w.getLsbD 20) (w.extractLsb' 16 4) (w.extractLsb' 8 4) (w.extractLsb' 0 4)⟩,
  ⟨0x0FE000F0#32, 0x00200090#32, fun w => .mla (Cond.ofBits (w.extractLsb' 28 4)) (w.getLsbD 20) (w.extractLsb' 16 4) (w.extractLsb' 12 4) (w.extractLsb' 8 4) (w.extractLsb' 0 4)⟩,
  ⟨0x0FE000F0#32, 0x00800090#32, fun w => .umull (Cond.ofBits (w.extractLsb' 28 4)) (w.getLsbD 20) (w.extractLsb' 16 4) (w.extractLsb' 12 4) (w.extractLsb' 8 4) (w.extractLsb' 0 4)⟩,
  ⟨0x0FE000F0#32, 0x00A00090#32, fun w => .umlal (Cond.ofBits (w.extractLsb' 28 4)) (w.getLsbD 20) (w.extractLsb' 16 4) (w.extractLsb' 12 4) (w.extractLsb' 8 4) (w.extractLsb' 0 4)⟩,
  ⟨0x0FE000F0#32, 0x00C00090#32, fun w => .smull (Cond.ofBits (w.extractLsb' 28 4)) (w.getLsbD 20) (w.extractLsb' 16 4) (w.extractLsb' 12 4) (w.extractLsb' 8 4) (w.extractLsb' 0 4)⟩,
  ⟨0x0FE000F0#32, 0x00E00090#32, fun w => .smlal (Cond.ofBits (w.extractLsb' 28 4)) (w.getLsbD 20) (w.extractLsb' 16 4) (w.extractLsb' 12 4) (w.extractLsb' 8 4) (w.extractLsb' 0 4)⟩,
  ⟨0x0FF000F0#32, 0x01000090#32, fun w => .swp (Cond.ofBits (w.extractLsb' 28 4)) (w.extractLsb' 16 4) (w.extractLsb' 12 4) (w.extractLsb' 0 4)⟩,
  ⟨0x0FF000F0#32, 0x01400090#32, fun w => .swpb (Cond.ofBits (w.extractLsb' 28 4)) (w.extractLsb' 16 4) (w.extractLsb' 12 4) (w.extractLsb' 0 4)⟩,
  ⟨0x0E5000F0#32, 0x004000B0#32, fun w => .strhImm (Cond.ofBits (w.extractLsb' 28 4)) ⟨w.getLsbD 24, w.getLsbD 23, w.getLsbD 21, w.extractLsb' 16 4⟩ (w.extractLsb' 12 4) (w.extractLsb' 8 4 ++ w.extractLsb' 0 4)⟩,
  ⟨0x0E5000F0#32, 0x000000B0#32, fun w => .strhReg (Cond.ofBits (w.extractLsb' 28 4)) ⟨w.getLsbD 24, w.getLsbD 23, w.getLsbD 21, w.extractLsb' 16 4⟩ (w.extractLsb' 12 4) (w.extractLsb' 0 4)⟩,
  ⟨0x0E5000F0#32, 0x005000B0#32, fun w => .ldrhImm (Cond.ofBits (w.extractLsb' 28 4)) ⟨w.getLsbD 24, w.getLsbD 23, w.getLsbD 21, w.extractLsb' 16 4⟩ (w.extractLsb' 12 4) (w.extractLsb' 8 4 ++ w.extractLsb' 0 4)⟩,
  ⟨0x0E5000F0#32, 0x001000B0#32, fun w => .ldrhReg (Cond.ofBits (w.extractLsb' 28 4)) ⟨w.getLsbD 24, w.getLsbD 23, w.getLsbD 21, w.extractLsb' 16 4⟩ (w.extractLsb' 12 4) (w.extractLsb' 0 4)⟩,
  ⟨0x0E5000F0#32, 0x005000D0#32, fun w => .ldrsbImm (Cond.ofBits (w.extractLsb' 28 4)) ⟨w.getLsbD 24, w.getLsbD 23, w.getLsbD 21, w.extractLsb' 16 4⟩ (w.extractLsb' 12 4) (w.extractLsb' 8 4 ++ w.extractLsb' 0 4)⟩,
  ⟨0x0E5000F0#32, 0x001000D0#32, fun w => .ldrsbReg (Cond.ofBits (w.extractLsb' 28 4)) ⟨w.getLsbD 24, w.getLsbD 23, w.getLsbD 21, w.extractLsb' 16 4⟩ (w.extractLsb' 12 4) (w.extractLsb' 0 4)⟩,
  ⟨0x0E5000F0#32, 0x005000F0#32, fun w => .ldrshImm (Cond.ofBits (w.extractLsb' 28 4)) ⟨w.getLsbD 24, w.getLsbD 23, w.getLsbD 21, w.extractLsb' 16 4⟩ (w.extractLsb' 12 4) (w.extractLsb' 8 4 ++ w.extractLsb' 0 4)⟩,
  ⟨0x0E5000F0#32, 0x001000F0#32, fun w => .ldrshReg (Cond.ofBits (w.extractLsb' 28 4)) ⟨w.getLsbD 24, w.getLsbD 23, w.getLsbD 21, w.extractLsb' 16 4⟩ (w.extractLsb' 12 4) (w.extractLsb' 0 4)⟩,
  ⟨0x0E5000F0#32, 0x004000D0#32, fun w => .ldrdImm (Cond.ofBits (w.extractLsb' 28 4)) ⟨w.getLsbD 24, w.getLsbD 23, w.getLsbD 21, w.extractLsb' 16 4⟩ (w.extractLsb' 12 4) (w.extractLsb' 8 4 ++ w.extractLsb' 0 4)⟩,
  ⟨0x0E5000F0#32, 0x000000D0#32, fun w => .ldrdReg (Cond.ofBits (w.extractLsb' 28 4)) ⟨w.getLsbD 24, w.getLsbD 23, w.getLsbD 21, w.extractLsb' 16 4⟩ (w.extractLsb' 12 4) (w.extractLsb' 0 4)⟩,
  ⟨0x0E5000F0#32, 0x004000F0#32, fun w => .strdImm (Cond.ofBits (w.extractLsb' 28 4)) ⟨w.getLsbD 24, w.getLsbD 23, w.getLsbD 21, w.extractLsb' 16 4⟩ (w.extractLsb' 12 4) (w.extractLsb' 8 4 ++ w.extractLsb' 0 4)⟩,
  ⟨0x0E5000F0#32, 0x000000F0#32, fun w => .strdReg (Cond.ofBits (w.extractLsb' 28 4)) ⟨w.getLsbD 24, w.getLsbD 23, w.getLsbD 21, w.extractLsb' 16 4⟩ (w.extractLsb' 12 4) (w.extractLsb' 0 4)⟩,
  ⟨0x0E0000F0#32, 0x00000090#32, fun w => .undefMul (Cond.ofBits (w.extractLsb' 28 4)) (w.extractLsb' 8 17) (w.extractLsb' 0 4)⟩]

/-- Rows 26 to 41: the miscellaneous space (R348, R349). -/
def armRowsMisc : List (DecodeRow 32) := [
  ⟨0x0FB000F0#32, 0x01000000#32, fun w => .mrs (Cond.ofBits (w.extractLsb' 28 4)) (w.getLsbD 22) (w.extractLsb' 12 4)⟩,
  ⟨0x0FB000F0#32, 0x01200000#32, fun w => .msrReg (Cond.ofBits (w.extractLsb' 28 4)) (w.getLsbD 22) (w.extractLsb' 16 4) (w.extractLsb' 0 4)⟩,
  ⟨0x0FF000F0#32, 0x01200010#32, fun w => .bx (Cond.ofBits (w.extractLsb' 28 4)) (w.extractLsb' 0 4)⟩,
  ⟨0x0FF000F0#32, 0x01200030#32, fun w => .blx2 (Cond.ofBits (w.extractLsb' 28 4)) (w.extractLsb' 0 4)⟩,
  ⟨0x0FF000F0#32, 0x01600010#32, fun w => .clz (Cond.ofBits (w.extractLsb' 28 4)) (w.extractLsb' 12 4) (w.extractLsb' 0 4)⟩,
  ⟨0x0FF000F0#32, 0x01200070#32, fun w => .bkpt (Cond.ofBits (w.extractLsb' 28 4)) (w.extractLsb' 8 12 ++ w.extractLsb' 0 4)⟩,
  ⟨0x0FF000F0#32, 0x01000050#32, fun w => .qadd (Cond.ofBits (w.extractLsb' 28 4)) (w.extractLsb' 16 4) (w.extractLsb' 12 4) (w.extractLsb' 0 4)⟩,
  ⟨0x0FF000F0#32, 0x01200050#32, fun w => .qsub (Cond.ofBits (w.extractLsb' 28 4)) (w.extractLsb' 16 4) (w.extractLsb' 12 4) (w.extractLsb' 0 4)⟩,
  ⟨0x0FF000F0#32, 0x01400050#32, fun w => .qdadd (Cond.ofBits (w.extractLsb' 28 4)) (w.extractLsb' 16 4) (w.extractLsb' 12 4) (w.extractLsb' 0 4)⟩,
  ⟨0x0FF000F0#32, 0x01600050#32, fun w => .qdsub (Cond.ofBits (w.extractLsb' 28 4)) (w.extractLsb' 16 4) (w.extractLsb' 12 4) (w.extractLsb' 0 4)⟩,
  ⟨0x0FF00090#32, 0x01000080#32, fun w => .smlaxy (Cond.ofBits (w.extractLsb' 28 4)) (w.extractLsb' 16 4) (w.extractLsb' 12 4) (w.extractLsb' 8 4) (w.getLsbD 6) (w.getLsbD 5) (w.extractLsb' 0 4)⟩,
  ⟨0x0FF000B0#32, 0x01200080#32, fun w => .smlawy (Cond.ofBits (w.extractLsb' 28 4)) (w.extractLsb' 16 4) (w.extractLsb' 12 4) (w.extractLsb' 8 4) (w.getLsbD 6) (w.extractLsb' 0 4)⟩,
  ⟨0x0FF000B0#32, 0x012000A0#32, fun w => .smulwy (Cond.ofBits (w.extractLsb' 28 4)) (w.extractLsb' 16 4) (w.extractLsb' 8 4) (w.getLsbD 6) (w.extractLsb' 0 4)⟩,
  ⟨0x0FF00090#32, 0x01400080#32, fun w => .smlalxy (Cond.ofBits (w.extractLsb' 28 4)) (w.extractLsb' 16 4) (w.extractLsb' 12 4) (w.extractLsb' 8 4) (w.getLsbD 6) (w.getLsbD 5) (w.extractLsb' 0 4)⟩,
  ⟨0x0FF00090#32, 0x01600080#32, fun w => .smulxy (Cond.ofBits (w.extractLsb' 28 4)) (w.extractLsb' 16 4) (w.extractLsb' 8 4) (w.getLsbD 6) (w.getLsbD 5) (w.extractLsb' 0 4)⟩,
  ⟨0x0F900080#32, 0x01000000#32, fun w => .undefMisc (Cond.ofBits (w.extractLsb' 28 4)) (w.extractLsb' 21 2) (w.extractLsb' 8 12) (w.extractLsb' 0 7)⟩]

/-- Rows 42 to 73: data processing with a register operand (R345). -/
def armRowsDp : List (DecodeRow 32) := [
  ⟨0x0FE00010#32, 0x00000000#32, fun w => .andShift (Cond.ofBits (w.extractLsb' 28 4)) (w.getLsbD 20) (w.extractLsb' 16 4) (w.extractLsb' 12 4) ⟨w.extractLsb' 7 5, ShiftKind.ofBits (w.extractLsb' 5 2), w.extractLsb' 0 4⟩⟩,
  ⟨0x0FE00090#32, 0x00000010#32, fun w => .andRegShift (Cond.ofBits (w.extractLsb' 28 4)) (w.getLsbD 20) (w.extractLsb' 16 4) (w.extractLsb' 12 4) ⟨w.extractLsb' 8 4, ShiftKind.ofBits (w.extractLsb' 5 2), w.extractLsb' 0 4⟩⟩,
  ⟨0x0FE00010#32, 0x00200000#32, fun w => .eorShift (Cond.ofBits (w.extractLsb' 28 4)) (w.getLsbD 20) (w.extractLsb' 16 4) (w.extractLsb' 12 4) ⟨w.extractLsb' 7 5, ShiftKind.ofBits (w.extractLsb' 5 2), w.extractLsb' 0 4⟩⟩,
  ⟨0x0FE00090#32, 0x00200010#32, fun w => .eorRegShift (Cond.ofBits (w.extractLsb' 28 4)) (w.getLsbD 20) (w.extractLsb' 16 4) (w.extractLsb' 12 4) ⟨w.extractLsb' 8 4, ShiftKind.ofBits (w.extractLsb' 5 2), w.extractLsb' 0 4⟩⟩,
  ⟨0x0FE00010#32, 0x00400000#32, fun w => .subShift (Cond.ofBits (w.extractLsb' 28 4)) (w.getLsbD 20) (w.extractLsb' 16 4) (w.extractLsb' 12 4) ⟨w.extractLsb' 7 5, ShiftKind.ofBits (w.extractLsb' 5 2), w.extractLsb' 0 4⟩⟩,
  ⟨0x0FE00090#32, 0x00400010#32, fun w => .subRegShift (Cond.ofBits (w.extractLsb' 28 4)) (w.getLsbD 20) (w.extractLsb' 16 4) (w.extractLsb' 12 4) ⟨w.extractLsb' 8 4, ShiftKind.ofBits (w.extractLsb' 5 2), w.extractLsb' 0 4⟩⟩,
  ⟨0x0FE00010#32, 0x00600000#32, fun w => .rsbShift (Cond.ofBits (w.extractLsb' 28 4)) (w.getLsbD 20) (w.extractLsb' 16 4) (w.extractLsb' 12 4) ⟨w.extractLsb' 7 5, ShiftKind.ofBits (w.extractLsb' 5 2), w.extractLsb' 0 4⟩⟩,
  ⟨0x0FE00090#32, 0x00600010#32, fun w => .rsbRegShift (Cond.ofBits (w.extractLsb' 28 4)) (w.getLsbD 20) (w.extractLsb' 16 4) (w.extractLsb' 12 4) ⟨w.extractLsb' 8 4, ShiftKind.ofBits (w.extractLsb' 5 2), w.extractLsb' 0 4⟩⟩,
  ⟨0x0FE00010#32, 0x00800000#32, fun w => .addShift (Cond.ofBits (w.extractLsb' 28 4)) (w.getLsbD 20) (w.extractLsb' 16 4) (w.extractLsb' 12 4) ⟨w.extractLsb' 7 5, ShiftKind.ofBits (w.extractLsb' 5 2), w.extractLsb' 0 4⟩⟩,
  ⟨0x0FE00090#32, 0x00800010#32, fun w => .addRegShift (Cond.ofBits (w.extractLsb' 28 4)) (w.getLsbD 20) (w.extractLsb' 16 4) (w.extractLsb' 12 4) ⟨w.extractLsb' 8 4, ShiftKind.ofBits (w.extractLsb' 5 2), w.extractLsb' 0 4⟩⟩,
  ⟨0x0FE00010#32, 0x00A00000#32, fun w => .adcShift (Cond.ofBits (w.extractLsb' 28 4)) (w.getLsbD 20) (w.extractLsb' 16 4) (w.extractLsb' 12 4) ⟨w.extractLsb' 7 5, ShiftKind.ofBits (w.extractLsb' 5 2), w.extractLsb' 0 4⟩⟩,
  ⟨0x0FE00090#32, 0x00A00010#32, fun w => .adcRegShift (Cond.ofBits (w.extractLsb' 28 4)) (w.getLsbD 20) (w.extractLsb' 16 4) (w.extractLsb' 12 4) ⟨w.extractLsb' 8 4, ShiftKind.ofBits (w.extractLsb' 5 2), w.extractLsb' 0 4⟩⟩,
  ⟨0x0FE00010#32, 0x00C00000#32, fun w => .sbcShift (Cond.ofBits (w.extractLsb' 28 4)) (w.getLsbD 20) (w.extractLsb' 16 4) (w.extractLsb' 12 4) ⟨w.extractLsb' 7 5, ShiftKind.ofBits (w.extractLsb' 5 2), w.extractLsb' 0 4⟩⟩,
  ⟨0x0FE00090#32, 0x00C00010#32, fun w => .sbcRegShift (Cond.ofBits (w.extractLsb' 28 4)) (w.getLsbD 20) (w.extractLsb' 16 4) (w.extractLsb' 12 4) ⟨w.extractLsb' 8 4, ShiftKind.ofBits (w.extractLsb' 5 2), w.extractLsb' 0 4⟩⟩,
  ⟨0x0FE00010#32, 0x00E00000#32, fun w => .rscShift (Cond.ofBits (w.extractLsb' 28 4)) (w.getLsbD 20) (w.extractLsb' 16 4) (w.extractLsb' 12 4) ⟨w.extractLsb' 7 5, ShiftKind.ofBits (w.extractLsb' 5 2), w.extractLsb' 0 4⟩⟩,
  ⟨0x0FE00090#32, 0x00E00010#32, fun w => .rscRegShift (Cond.ofBits (w.extractLsb' 28 4)) (w.getLsbD 20) (w.extractLsb' 16 4) (w.extractLsb' 12 4) ⟨w.extractLsb' 8 4, ShiftKind.ofBits (w.extractLsb' 5 2), w.extractLsb' 0 4⟩⟩,
  ⟨0x0FF00010#32, 0x01100000#32, fun w => .tstShift (Cond.ofBits (w.extractLsb' 28 4)) (w.extractLsb' 16 4) ⟨w.extractLsb' 7 5, ShiftKind.ofBits (w.extractLsb' 5 2), w.extractLsb' 0 4⟩⟩,
  ⟨0x0FF00090#32, 0x01100010#32, fun w => .tstRegShift (Cond.ofBits (w.extractLsb' 28 4)) (w.extractLsb' 16 4) ⟨w.extractLsb' 8 4, ShiftKind.ofBits (w.extractLsb' 5 2), w.extractLsb' 0 4⟩⟩,
  ⟨0x0FF00010#32, 0x01300000#32, fun w => .teqShift (Cond.ofBits (w.extractLsb' 28 4)) (w.extractLsb' 16 4) ⟨w.extractLsb' 7 5, ShiftKind.ofBits (w.extractLsb' 5 2), w.extractLsb' 0 4⟩⟩,
  ⟨0x0FF00090#32, 0x01300010#32, fun w => .teqRegShift (Cond.ofBits (w.extractLsb' 28 4)) (w.extractLsb' 16 4) ⟨w.extractLsb' 8 4, ShiftKind.ofBits (w.extractLsb' 5 2), w.extractLsb' 0 4⟩⟩,
  ⟨0x0FF00010#32, 0x01500000#32, fun w => .cmpShift (Cond.ofBits (w.extractLsb' 28 4)) (w.extractLsb' 16 4) ⟨w.extractLsb' 7 5, ShiftKind.ofBits (w.extractLsb' 5 2), w.extractLsb' 0 4⟩⟩,
  ⟨0x0FF00090#32, 0x01500010#32, fun w => .cmpRegShift (Cond.ofBits (w.extractLsb' 28 4)) (w.extractLsb' 16 4) ⟨w.extractLsb' 8 4, ShiftKind.ofBits (w.extractLsb' 5 2), w.extractLsb' 0 4⟩⟩,
  ⟨0x0FF00010#32, 0x01700000#32, fun w => .cmnShift (Cond.ofBits (w.extractLsb' 28 4)) (w.extractLsb' 16 4) ⟨w.extractLsb' 7 5, ShiftKind.ofBits (w.extractLsb' 5 2), w.extractLsb' 0 4⟩⟩,
  ⟨0x0FF00090#32, 0x01700010#32, fun w => .cmnRegShift (Cond.ofBits (w.extractLsb' 28 4)) (w.extractLsb' 16 4) ⟨w.extractLsb' 8 4, ShiftKind.ofBits (w.extractLsb' 5 2), w.extractLsb' 0 4⟩⟩,
  ⟨0x0FE00010#32, 0x01800000#32, fun w => .orrShift (Cond.ofBits (w.extractLsb' 28 4)) (w.getLsbD 20) (w.extractLsb' 16 4) (w.extractLsb' 12 4) ⟨w.extractLsb' 7 5, ShiftKind.ofBits (w.extractLsb' 5 2), w.extractLsb' 0 4⟩⟩,
  ⟨0x0FE00090#32, 0x01800010#32, fun w => .orrRegShift (Cond.ofBits (w.extractLsb' 28 4)) (w.getLsbD 20) (w.extractLsb' 16 4) (w.extractLsb' 12 4) ⟨w.extractLsb' 8 4, ShiftKind.ofBits (w.extractLsb' 5 2), w.extractLsb' 0 4⟩⟩,
  ⟨0x0FE00010#32, 0x01A00000#32, fun w => .movShift (Cond.ofBits (w.extractLsb' 28 4)) (w.getLsbD 20) (w.extractLsb' 12 4) ⟨w.extractLsb' 7 5, ShiftKind.ofBits (w.extractLsb' 5 2), w.extractLsb' 0 4⟩⟩,
  ⟨0x0FE00090#32, 0x01A00010#32, fun w => .movRegShift (Cond.ofBits (w.extractLsb' 28 4)) (w.getLsbD 20) (w.extractLsb' 12 4) ⟨w.extractLsb' 8 4, ShiftKind.ofBits (w.extractLsb' 5 2), w.extractLsb' 0 4⟩⟩,
  ⟨0x0FE00010#32, 0x01C00000#32, fun w => .bicShift (Cond.ofBits (w.extractLsb' 28 4)) (w.getLsbD 20) (w.extractLsb' 16 4) (w.extractLsb' 12 4) ⟨w.extractLsb' 7 5, ShiftKind.ofBits (w.extractLsb' 5 2), w.extractLsb' 0 4⟩⟩,
  ⟨0x0FE00090#32, 0x01C00010#32, fun w => .bicRegShift (Cond.ofBits (w.extractLsb' 28 4)) (w.getLsbD 20) (w.extractLsb' 16 4) (w.extractLsb' 12 4) ⟨w.extractLsb' 8 4, ShiftKind.ofBits (w.extractLsb' 5 2), w.extractLsb' 0 4⟩⟩,
  ⟨0x0FE00010#32, 0x01E00000#32, fun w => .mvnShift (Cond.ofBits (w.extractLsb' 28 4)) (w.getLsbD 20) (w.extractLsb' 12 4) ⟨w.extractLsb' 7 5, ShiftKind.ofBits (w.extractLsb' 5 2), w.extractLsb' 0 4⟩⟩,
  ⟨0x0FE00090#32, 0x01E00010#32, fun w => .mvnRegShift (Cond.ofBits (w.extractLsb' 28 4)) (w.getLsbD 20) (w.extractLsb' 12 4) ⟨w.extractLsb' 8 4, ShiftKind.ofBits (w.extractLsb' 5 2), w.extractLsb' 0 4⟩⟩]

/-- Rows 74 to 91: data processing with an immediate, MSR immediate (R345, R348). -/
def armRowsDpImm : List (DecodeRow 32) := [
  ⟨0x0FB00000#32, 0x03200000#32, fun w => .msrImm (Cond.ofBits (w.extractLsb' 28 4)) (w.getLsbD 22) (w.extractLsb' 16 4) ⟨w.extractLsb' 8 4, w.extractLsb' 0 8⟩⟩,
  ⟨0x0FB00000#32, 0x03000000#32, fun w => .undefMsr (Cond.ofBits (w.extractLsb' 28 4)) (w.getLsbD 22) (w.extractLsb' 0 20)⟩,
  ⟨0x0FE00000#32, 0x02000000#32, fun w => .andImm (Cond.ofBits (w.extractLsb' 28 4)) (w.getLsbD 20) (w.extractLsb' 16 4) (w.extractLsb' 12 4) ⟨w.extractLsb' 8 4, w.extractLsb' 0 8⟩⟩,
  ⟨0x0FE00000#32, 0x02200000#32, fun w => .eorImm (Cond.ofBits (w.extractLsb' 28 4)) (w.getLsbD 20) (w.extractLsb' 16 4) (w.extractLsb' 12 4) ⟨w.extractLsb' 8 4, w.extractLsb' 0 8⟩⟩,
  ⟨0x0FE00000#32, 0x02400000#32, fun w => .subImm (Cond.ofBits (w.extractLsb' 28 4)) (w.getLsbD 20) (w.extractLsb' 16 4) (w.extractLsb' 12 4) ⟨w.extractLsb' 8 4, w.extractLsb' 0 8⟩⟩,
  ⟨0x0FE00000#32, 0x02600000#32, fun w => .rsbImm (Cond.ofBits (w.extractLsb' 28 4)) (w.getLsbD 20) (w.extractLsb' 16 4) (w.extractLsb' 12 4) ⟨w.extractLsb' 8 4, w.extractLsb' 0 8⟩⟩,
  ⟨0x0FE00000#32, 0x02800000#32, fun w => .addImm (Cond.ofBits (w.extractLsb' 28 4)) (w.getLsbD 20) (w.extractLsb' 16 4) (w.extractLsb' 12 4) ⟨w.extractLsb' 8 4, w.extractLsb' 0 8⟩⟩,
  ⟨0x0FE00000#32, 0x02A00000#32, fun w => .adcImm (Cond.ofBits (w.extractLsb' 28 4)) (w.getLsbD 20) (w.extractLsb' 16 4) (w.extractLsb' 12 4) ⟨w.extractLsb' 8 4, w.extractLsb' 0 8⟩⟩,
  ⟨0x0FE00000#32, 0x02C00000#32, fun w => .sbcImm (Cond.ofBits (w.extractLsb' 28 4)) (w.getLsbD 20) (w.extractLsb' 16 4) (w.extractLsb' 12 4) ⟨w.extractLsb' 8 4, w.extractLsb' 0 8⟩⟩,
  ⟨0x0FE00000#32, 0x02E00000#32, fun w => .rscImm (Cond.ofBits (w.extractLsb' 28 4)) (w.getLsbD 20) (w.extractLsb' 16 4) (w.extractLsb' 12 4) ⟨w.extractLsb' 8 4, w.extractLsb' 0 8⟩⟩,
  ⟨0x0FF00000#32, 0x03100000#32, fun w => .tstImm (Cond.ofBits (w.extractLsb' 28 4)) (w.extractLsb' 16 4) ⟨w.extractLsb' 8 4, w.extractLsb' 0 8⟩⟩,
  ⟨0x0FF00000#32, 0x03300000#32, fun w => .teqImm (Cond.ofBits (w.extractLsb' 28 4)) (w.extractLsb' 16 4) ⟨w.extractLsb' 8 4, w.extractLsb' 0 8⟩⟩,
  ⟨0x0FF00000#32, 0x03500000#32, fun w => .cmpImm (Cond.ofBits (w.extractLsb' 28 4)) (w.extractLsb' 16 4) ⟨w.extractLsb' 8 4, w.extractLsb' 0 8⟩⟩,
  ⟨0x0FF00000#32, 0x03700000#32, fun w => .cmnImm (Cond.ofBits (w.extractLsb' 28 4)) (w.extractLsb' 16 4) ⟨w.extractLsb' 8 4, w.extractLsb' 0 8⟩⟩,
  ⟨0x0FE00000#32, 0x03800000#32, fun w => .orrImm (Cond.ofBits (w.extractLsb' 28 4)) (w.getLsbD 20) (w.extractLsb' 16 4) (w.extractLsb' 12 4) ⟨w.extractLsb' 8 4, w.extractLsb' 0 8⟩⟩,
  ⟨0x0FE00000#32, 0x03A00000#32, fun w => .movImm (Cond.ofBits (w.extractLsb' 28 4)) (w.getLsbD 20) (w.extractLsb' 12 4) ⟨w.extractLsb' 8 4, w.extractLsb' 0 8⟩⟩,
  ⟨0x0FE00000#32, 0x03C00000#32, fun w => .bicImm (Cond.ofBits (w.extractLsb' 28 4)) (w.getLsbD 20) (w.extractLsb' 16 4) (w.extractLsb' 12 4) ⟨w.extractLsb' 8 4, w.extractLsb' 0 8⟩⟩,
  ⟨0x0FE00000#32, 0x03E00000#32, fun w => .mvnImm (Cond.ofBits (w.extractLsb' 28 4)) (w.getLsbD 20) (w.extractLsb' 12 4) ⟨w.extractLsb' 8 4, w.extractLsb' 0 8⟩⟩]

/-- Rows 92 to 115: word and byte transfers, multiple transfers, branches (R351, R352, R354). -/
def armRowsMem : List (DecodeRow 32) := [
  ⟨0x0F700000#32, 0x04300000#32, fun w => .ldrtImm (Cond.ofBits (w.extractLsb' 28 4)) (w.getLsbD 23) (w.extractLsb' 16 4) (w.extractLsb' 12 4) (w.extractLsb' 0 12)⟩,
  ⟨0x0F700010#32, 0x06300000#32, fun w => .ldrtReg (Cond.ofBits (w.extractLsb' 28 4)) (w.getLsbD 23) (w.extractLsb' 16 4) (w.extractLsb' 12 4) ⟨w.extractLsb' 7 5, ShiftKind.ofBits (w.extractLsb' 5 2), w.extractLsb' 0 4⟩⟩,
  ⟨0x0F700000#32, 0x04700000#32, fun w => .ldrbtImm (Cond.ofBits (w.extractLsb' 28 4)) (w.getLsbD 23) (w.extractLsb' 16 4) (w.extractLsb' 12 4) (w.extractLsb' 0 12)⟩,
  ⟨0x0F700010#32, 0x06700000#32, fun w => .ldrbtReg (Cond.ofBits (w.extractLsb' 28 4)) (w.getLsbD 23) (w.extractLsb' 16 4) (w.extractLsb' 12 4) ⟨w.extractLsb' 7 5, ShiftKind.ofBits (w.extractLsb' 5 2), w.extractLsb' 0 4⟩⟩,
  ⟨0x0F700000#32, 0x04200000#32, fun w => .strtImm (Cond.ofBits (w.extractLsb' 28 4)) (w.getLsbD 23) (w.extractLsb' 16 4) (w.extractLsb' 12 4) (w.extractLsb' 0 12)⟩,
  ⟨0x0F700010#32, 0x06200000#32, fun w => .strtReg (Cond.ofBits (w.extractLsb' 28 4)) (w.getLsbD 23) (w.extractLsb' 16 4) (w.extractLsb' 12 4) ⟨w.extractLsb' 7 5, ShiftKind.ofBits (w.extractLsb' 5 2), w.extractLsb' 0 4⟩⟩,
  ⟨0x0F700000#32, 0x04600000#32, fun w => .strbtImm (Cond.ofBits (w.extractLsb' 28 4)) (w.getLsbD 23) (w.extractLsb' 16 4) (w.extractLsb' 12 4) (w.extractLsb' 0 12)⟩,
  ⟨0x0F700010#32, 0x06600000#32, fun w => .strbtReg (Cond.ofBits (w.extractLsb' 28 4)) (w.getLsbD 23) (w.extractLsb' 16 4) (w.extractLsb' 12 4) ⟨w.extractLsb' 7 5, ShiftKind.ofBits (w.extractLsb' 5 2), w.extractLsb' 0 4⟩⟩,
  ⟨0x0E500000#32, 0x04100000#32, fun w => .ldrImm (Cond.ofBits (w.extractLsb' 28 4)) ⟨Index.ofBits (w.getLsbD 24) (w.getLsbD 21), w.getLsbD 23, w.extractLsb' 16 4⟩ (w.extractLsb' 12 4) (w.extractLsb' 0 12)⟩,
  ⟨0x0E500010#32, 0x06100000#32, fun w => .ldrReg (Cond.ofBits (w.extractLsb' 28 4)) ⟨Index.ofBits (w.getLsbD 24) (w.getLsbD 21), w.getLsbD 23, w.extractLsb' 16 4⟩ (w.extractLsb' 12 4) ⟨w.extractLsb' 7 5, ShiftKind.ofBits (w.extractLsb' 5 2), w.extractLsb' 0 4⟩⟩,
  ⟨0x0E500000#32, 0x04500000#32, fun w => .ldrbImm (Cond.ofBits (w.extractLsb' 28 4)) ⟨Index.ofBits (w.getLsbD 24) (w.getLsbD 21), w.getLsbD 23, w.extractLsb' 16 4⟩ (w.extractLsb' 12 4) (w.extractLsb' 0 12)⟩,
  ⟨0x0E500010#32, 0x06500000#32, fun w => .ldrbReg (Cond.ofBits (w.extractLsb' 28 4)) ⟨Index.ofBits (w.getLsbD 24) (w.getLsbD 21), w.getLsbD 23, w.extractLsb' 16 4⟩ (w.extractLsb' 12 4) ⟨w.extractLsb' 7 5, ShiftKind.ofBits (w.extractLsb' 5 2), w.extractLsb' 0 4⟩⟩,
  ⟨0x0E500000#32, 0x04000000#32, fun w => .strImm (Cond.ofBits (w.extractLsb' 28 4)) ⟨Index.ofBits (w.getLsbD 24) (w.getLsbD 21), w.getLsbD 23, w.extractLsb' 16 4⟩ (w.extractLsb' 12 4) (w.extractLsb' 0 12)⟩,
  ⟨0x0E500010#32, 0x06000000#32, fun w => .strReg (Cond.ofBits (w.extractLsb' 28 4)) ⟨Index.ofBits (w.getLsbD 24) (w.getLsbD 21), w.getLsbD 23, w.extractLsb' 16 4⟩ (w.extractLsb' 12 4) ⟨w.extractLsb' 7 5, ShiftKind.ofBits (w.extractLsb' 5 2), w.extractLsb' 0 4⟩⟩,
  ⟨0x0E500000#32, 0x04400000#32, fun w => .strbImm (Cond.ofBits (w.extractLsb' 28 4)) ⟨Index.ofBits (w.getLsbD 24) (w.getLsbD 21), w.getLsbD 23, w.extractLsb' 16 4⟩ (w.extractLsb' 12 4) (w.extractLsb' 0 12)⟩,
  ⟨0x0E500010#32, 0x06400000#32, fun w => .strbReg (Cond.ofBits (w.extractLsb' 28 4)) ⟨Index.ofBits (w.getLsbD 24) (w.getLsbD 21), w.getLsbD 23, w.extractLsb' 16 4⟩ (w.extractLsb' 12 4) ⟨w.extractLsb' 7 5, ShiftKind.ofBits (w.extractLsb' 5 2), w.extractLsb' 0 4⟩⟩,
  ⟨0x0E000010#32, 0x06000010#32, fun w => .undefMedia (Cond.ofBits (w.extractLsb' 28 4)) (w.extractLsb' 5 20) (w.extractLsb' 0 4)⟩,
  ⟨0x0E508000#32, 0x08508000#32, fun w => .ldm3 (Cond.ofBits (w.extractLsb' 28 4)) ⟨w.getLsbD 24, w.getLsbD 23, w.getLsbD 21, w.extractLsb' 16 4⟩ (w.extractLsb' 0 15)⟩,
  ⟨0x0E508000#32, 0x08500000#32, fun w => .ldm2 (Cond.ofBits (w.extractLsb' 28 4)) ⟨w.getLsbD 24, w.getLsbD 23, w.getLsbD 21, w.extractLsb' 16 4⟩ (w.extractLsb' 0 15)⟩,
  ⟨0x0E500000#32, 0x08100000#32, fun w => .ldm1 (Cond.ofBits (w.extractLsb' 28 4)) ⟨w.getLsbD 24, w.getLsbD 23, w.getLsbD 21, w.extractLsb' 16 4⟩ (w.extractLsb' 0 16)⟩,
  ⟨0x0E500000#32, 0x08400000#32, fun w => .stm2 (Cond.ofBits (w.extractLsb' 28 4)) ⟨w.getLsbD 24, w.getLsbD 23, w.getLsbD 21, w.extractLsb' 16 4⟩ (w.extractLsb' 0 16)⟩,
  ⟨0x0E500000#32, 0x08000000#32, fun w => .stm1 (Cond.ofBits (w.extractLsb' 28 4)) ⟨w.getLsbD 24, w.getLsbD 23, w.getLsbD 21, w.extractLsb' 16 4⟩ (w.extractLsb' 0 16)⟩,
  ⟨0x0F000000#32, 0x0A000000#32, fun w => .b (Cond.ofBits (w.extractLsb' 28 4)) (w.extractLsb' 0 24)⟩,
  ⟨0x0F000000#32, 0x0B000000#32, fun w => .bl (Cond.ofBits (w.extractLsb' 28 4)) (w.extractLsb' 0 24)⟩]

/-- Rows 116 to 131: coprocessor space and SWI (R355 to R359, R354). -/
def armRowsCp : List (DecodeRow 32) := [
  ⟨0x0FF00F00#32, 0x0C400000#32, fun w => .mar (Cond.ofBits (w.extractLsb' 28 4)) (w.extractLsb' 16 4) (w.extractLsb' 12 4) (w.extractLsb' 3 5) (w.extractLsb' 0 3)⟩,
  ⟨0x0FF00F00#32, 0x0C500000#32, fun w => .mra (Cond.ofBits (w.extractLsb' 28 4)) (w.extractLsb' 16 4) (w.extractLsb' 12 4) (w.extractLsb' 3 5) (w.extractLsb' 0 3)⟩,
  ⟨0x0FF00000#32, 0x0C400000#32, fun w => .mcrr (Cond.ofBits (w.extractLsb' 28 4)) (w.extractLsb' 16 4) (w.extractLsb' 12 4) (w.extractLsb' 8 4) (w.extractLsb' 4 4) (w.extractLsb' 0 4)⟩,
  ⟨0x0FF00000#32, 0x0C500000#32, fun w => .mrrc (Cond.ofBits (w.extractLsb' 28 4)) (w.extractLsb' 16 4) (w.extractLsb' 12 4) (w.extractLsb' 8 4) (w.extractLsb' 4 4) (w.extractLsb' 0 4)⟩,
  ⟨0x0E100000#32, 0x0C100000#32, fun w => .ldc (Cond.ofBits (w.extractLsb' 28 4)) ⟨w.getLsbD 24, w.getLsbD 23, w.getLsbD 22, w.getLsbD 21, w.extractLsb' 16 4⟩ (w.extractLsb' 12 4) (w.extractLsb' 8 4) (w.extractLsb' 0 8)⟩,
  ⟨0x0E100000#32, 0x0C000000#32, fun w => .stc (Cond.ofBits (w.extractLsb' 28 4)) ⟨w.getLsbD 24, w.getLsbD 23, w.getLsbD 22, w.getLsbD 21, w.extractLsb' 16 4⟩ (w.extractLsb' 12 4) (w.extractLsb' 8 4) (w.extractLsb' 0 8)⟩,
  ⟨0x0F000010#32, 0x0E000000#32, fun w => .cdp (Cond.ofBits (w.extractLsb' 28 4)) (w.extractLsb' 20 4) (w.extractLsb' 16 4) (w.extractLsb' 12 4) (w.extractLsb' 8 4) (w.extractLsb' 5 3) (w.extractLsb' 0 4)⟩,
  ⟨0x0FFF0F10#32, 0x0E200010#32, fun w => .mia (Cond.ofBits (w.extractLsb' 28 4)) (w.extractLsb' 12 4) (w.extractLsb' 5 3) (w.extractLsb' 0 4)⟩,
  ⟨0x0FFF0F10#32, 0x0E280010#32, fun w => .miaph (Cond.ofBits (w.extractLsb' 28 4)) (w.extractLsb' 12 4) (w.extractLsb' 5 3) (w.extractLsb' 0 4)⟩,
  ⟨0x0FFF0F10#32, 0x0E2C0010#32, fun w => .miabb (Cond.ofBits (w.extractLsb' 28 4)) (w.extractLsb' 12 4) (w.extractLsb' 5 3) (w.extractLsb' 0 4)⟩,
  ⟨0x0FFF0F10#32, 0x0E2D0010#32, fun w => .miabt (Cond.ofBits (w.extractLsb' 28 4)) (w.extractLsb' 12 4) (w.extractLsb' 5 3) (w.extractLsb' 0 4)⟩,
  ⟨0x0FFF0F10#32, 0x0E2E0010#32, fun w => .miatb (Cond.ofBits (w.extractLsb' 28 4)) (w.extractLsb' 12 4) (w.extractLsb' 5 3) (w.extractLsb' 0 4)⟩,
  ⟨0x0FFF0F10#32, 0x0E2F0010#32, fun w => .miatt (Cond.ofBits (w.extractLsb' 28 4)) (w.extractLsb' 12 4) (w.extractLsb' 5 3) (w.extractLsb' 0 4)⟩,
  ⟨0x0F100010#32, 0x0E000010#32, fun w => .mcr (Cond.ofBits (w.extractLsb' 28 4)) (w.extractLsb' 21 3) (w.extractLsb' 16 4) (w.extractLsb' 12 4) (w.extractLsb' 8 4) (w.extractLsb' 5 3) (w.extractLsb' 0 4)⟩,
  ⟨0x0F100010#32, 0x0E100010#32, fun w => .mrc (Cond.ofBits (w.extractLsb' 28 4)) (w.extractLsb' 21 3) (w.extractLsb' 16 4) (w.extractLsb' 12 4) (w.extractLsb' 8 4) (w.extractLsb' 5 3) (w.extractLsb' 0 4)⟩,
  ⟨0x0F000000#32, 0x0F000000#32, fun w => .swi (Cond.ofBits (w.extractLsb' 28 4)) (w.extractLsb' 0 24)⟩]

/-- The ARM rows of the opcode table, in its order. -/
def armRows : List (DecodeRow 32) :=
  armRowsExtra ++ armRowsMisc ++ armRowsDp ++ armRowsDpImm ++ armRowsMem ++ armRowsCp

/-- Rows 132 to 163: Thumb data processing and BX/BLX (R371 rows 1 to 5). -/
def thumbRowsAlu : List (DecodeRow 16) := [
  ⟨0xF800#16, 0x0000#16, fun w => .tLsl1 (w.extractLsb' 6 5) (w.extractLsb' 3 3) (w.extractLsb' 0 3)⟩,
  ⟨0xF800#16, 0x0800#16, fun w => .tLsr1 (w.extractLsb' 6 5) (w.extractLsb' 3 3) (w.extractLsb' 0 3)⟩,
  ⟨0xF800#16, 0x1000#16, fun w => .tAsr1 (w.extractLsb' 6 5) (w.extractLsb' 3 3) (w.extractLsb' 0 3)⟩,
  ⟨0xFE00#16, 0x1800#16, fun w => .tAdd3 (w.extractLsb' 6 3) (w.extractLsb' 3 3) (w.extractLsb' 0 3)⟩,
  ⟨0xFE00#16, 0x1A00#16, fun w => .tSub3 (w.extractLsb' 6 3) (w.extractLsb' 3 3) (w.extractLsb' 0 3)⟩,
  ⟨0xFE00#16, 0x1C00#16, fun w => .tAdd1 (w.extractLsb' 6 3) (w.extractLsb' 3 3) (w.extractLsb' 0 3)⟩,
  ⟨0xFE00#16, 0x1E00#16, fun w => .tSub1 (w.extractLsb' 6 3) (w.extractLsb' 3 3) (w.extractLsb' 0 3)⟩,
  ⟨0xF800#16, 0x2000#16, fun w => .tMov1 (w.extractLsb' 8 3) (w.extractLsb' 0 8)⟩,
  ⟨0xF800#16, 0x2800#16, fun w => .tCmp1 (w.extractLsb' 8 3) (w.extractLsb' 0 8)⟩,
  ⟨0xF800#16, 0x3000#16, fun w => .tAdd2 (w.extractLsb' 8 3) (w.extractLsb' 0 8)⟩,
  ⟨0xF800#16, 0x3800#16, fun w => .tSub2 (w.extractLsb' 8 3) (w.extractLsb' 0 8)⟩,
  ⟨0xFFC0#16, 0x4000#16, fun w => .tAnd (w.extractLsb' 3 3) (w.extractLsb' 0 3)⟩,
  ⟨0xFFC0#16, 0x4040#16, fun w => .tEor (w.extractLsb' 3 3) (w.extractLsb' 0 3)⟩,
  ⟨0xFFC0#16, 0x4080#16, fun w => .tLsl2 (w.extractLsb' 3 3) (w.extractLsb' 0 3)⟩,
  ⟨0xFFC0#16, 0x40C0#16, fun w => .tLsr2 (w.extractLsb' 3 3) (w.extractLsb' 0 3)⟩,
  ⟨0xFFC0#16, 0x4100#16, fun w => .tAsr2 (w.extractLsb' 3 3) (w.extractLsb' 0 3)⟩,
  ⟨0xFFC0#16, 0x4140#16, fun w => .tAdc (w.extractLsb' 3 3) (w.extractLsb' 0 3)⟩,
  ⟨0xFFC0#16, 0x4180#16, fun w => .tSbc (w.extractLsb' 3 3) (w.extractLsb' 0 3)⟩,
  ⟨0xFFC0#16, 0x41C0#16, fun w => .tRor (w.extractLsb' 3 3) (w.extractLsb' 0 3)⟩,
  ⟨0xFFC0#16, 0x4200#16, fun w => .tTst (w.extractLsb' 3 3) (w.extractLsb' 0 3)⟩,
  ⟨0xFFC0#16, 0x4240#16, fun w => .tNeg (w.extractLsb' 3 3) (w.extractLsb' 0 3)⟩,
  ⟨0xFFC0#16, 0x4280#16, fun w => .tCmp2 (w.extractLsb' 3 3) (w.extractLsb' 0 3)⟩,
  ⟨0xFFC0#16, 0x42C0#16, fun w => .tCmn (w.extractLsb' 3 3) (w.extractLsb' 0 3)⟩,
  ⟨0xFFC0#16, 0x4300#16, fun w => .tOrr (w.extractLsb' 3 3) (w.extractLsb' 0 3)⟩,
  ⟨0xFFC0#16, 0x4340#16, fun w => .tMul (w.extractLsb' 3 3) (w.extractLsb' 0 3)⟩,
  ⟨0xFFC0#16, 0x4380#16, fun w => .tBic (w.extractLsb' 3 3) (w.extractLsb' 0 3)⟩,
  ⟨0xFFC0#16, 0x43C0#16, fun w => .tMvn (w.extractLsb' 3 3) (w.extractLsb' 0 3)⟩,
  ⟨0xFF00#16, 0x4400#16, fun w => .tAdd4 (w.extractLsb' 7 1 ++ w.extractLsb' 0 3) (w.extractLsb' 6 1 ++ w.extractLsb' 3 3)⟩,
  ⟨0xFF00#16, 0x4500#16, fun w => .tCmp3 (w.extractLsb' 7 1 ++ w.extractLsb' 0 3) (w.extractLsb' 6 1 ++ w.extractLsb' 3 3)⟩,
  ⟨0xFF00#16, 0x4600#16, fun w => .tMov3 (w.extractLsb' 7 1 ++ w.extractLsb' 0 3) (w.extractLsb' 6 1 ++ w.extractLsb' 3 3)⟩,
  ⟨0xFF80#16, 0x4700#16, fun w => .tBx (w.extractLsb' 6 1 ++ w.extractLsb' 3 3)⟩,
  ⟨0xFF80#16, 0x4780#16, fun w => .tBlx2 (w.extractLsb' 6 1 ++ w.extractLsb' 3 3)⟩]

/-- Rows 164 to 198: Thumb transfers, address forming, branches (R371 rows 6 to 23). -/
def thumbRowsMem : List (DecodeRow 16) := [
  ⟨0xF800#16, 0x4800#16, fun w => .tLdr3 (w.extractLsb' 8 3) (w.extractLsb' 0 8)⟩,
  ⟨0xFE00#16, 0x5000#16, fun w => .tStr2 (w.extractLsb' 6 3) (w.extractLsb' 3 3) (w.extractLsb' 0 3)⟩,
  ⟨0xFE00#16, 0x5200#16, fun w => .tStrh2 (w.extractLsb' 6 3) (w.extractLsb' 3 3) (w.extractLsb' 0 3)⟩,
  ⟨0xFE00#16, 0x5400#16, fun w => .tStrb2 (w.extractLsb' 6 3) (w.extractLsb' 3 3) (w.extractLsb' 0 3)⟩,
  ⟨0xFE00#16, 0x5600#16, fun w => .tLdrsb (w.extractLsb' 6 3) (w.extractLsb' 3 3) (w.extractLsb' 0 3)⟩,
  ⟨0xFE00#16, 0x5800#16, fun w => .tLdr2 (w.extractLsb' 6 3) (w.extractLsb' 3 3) (w.extractLsb' 0 3)⟩,
  ⟨0xFE00#16, 0x5A00#16, fun w => .tLdrh2 (w.extractLsb' 6 3) (w.extractLsb' 3 3) (w.extractLsb' 0 3)⟩,
  ⟨0xFE00#16, 0x5C00#16, fun w => .tLdrb2 (w.extractLsb' 6 3) (w.extractLsb' 3 3) (w.extractLsb' 0 3)⟩,
  ⟨0xFE00#16, 0x5E00#16, fun w => .tLdrsh (w.extractLsb' 6 3) (w.extractLsb' 3 3) (w.extractLsb' 0 3)⟩,
  ⟨0xF800#16, 0x6000#16, fun w => .tStr1 (w.extractLsb' 6 5) (w.extractLsb' 3 3) (w.extractLsb' 0 3)⟩,
  ⟨0xF800#16, 0x6800#16, fun w => .tLdr1 (w.extractLsb' 6 5) (w.extractLsb' 3 3) (w.extractLsb' 0 3)⟩,
  ⟨0xF800#16, 0x7000#16, fun w => .tStrb1 (w.extractLsb' 6 5) (w.extractLsb' 3 3) (w.extractLsb' 0 3)⟩,
  ⟨0xF800#16, 0x7800#16, fun w => .tLdrb1 (w.extractLsb' 6 5) (w.extractLsb' 3 3) (w.extractLsb' 0 3)⟩,
  ⟨0xF800#16, 0x8000#16, fun w => .tStrh1 (w.extractLsb' 6 5) (w.extractLsb' 3 3) (w.extractLsb' 0 3)⟩,
  ⟨0xF800#16, 0x8800#16, fun w => .tLdrh1 (w.extractLsb' 6 5) (w.extractLsb' 3 3) (w.extractLsb' 0 3)⟩,
  ⟨0xF800#16, 0x9000#16, fun w => .tStr3 (w.extractLsb' 8 3) (w.extractLsb' 0 8)⟩,
  ⟨0xF800#16, 0x9800#16, fun w => .tLdr4 (w.extractLsb' 8 3) (w.extractLsb' 0 8)⟩,
  ⟨0xF800#16, 0xA000#16, fun w => .tAdd5 (w.extractLsb' 8 3) (w.extractLsb' 0 8)⟩,
  ⟨0xF800#16, 0xA800#16, fun w => .tAdd6 (w.extractLsb' 8 3) (w.extractLsb' 0 8)⟩,
  ⟨0xFF80#16, 0xB000#16, fun w => .tAdd7 (w.extractLsb' 0 7)⟩,
  ⟨0xFF80#16, 0xB080#16, fun w => .tSub4 (w.extractLsb' 0 7)⟩,
  ⟨0xFE00#16, 0xB400#16, fun w => .tPush (w.getLsbD 8) (w.extractLsb' 0 8)⟩,
  ⟨0xFE00#16, 0xBC00#16, fun w => .tPop (w.getLsbD 8) (w.extractLsb' 0 8)⟩,
  ⟨0xFF00#16, 0xBE00#16, fun w => .tBkpt (w.extractLsb' 0 8)⟩,
  ⟨0xF000#16, 0xB000#16, fun w => .tUndefMisc (w.extractLsb' 0 12)⟩,
  ⟨0xF800#16, 0xC000#16, fun w => .tStmia (w.extractLsb' 8 3) (w.extractLsb' 0 8)⟩,
  ⟨0xF800#16, 0xC800#16, fun w => .tLdmia (w.extractLsb' 8 3) (w.extractLsb' 0 8)⟩,
  ⟨0xFF00#16, 0xDE00#16, fun w => .tUndefCond (w.extractLsb' 0 8)⟩,
  ⟨0xFF00#16, 0xDF00#16, fun w => .tSwi (w.extractLsb' 0 8)⟩,
  ⟨0xF000#16, 0xD000#16, fun w => .tB1 (Cond.ofBits (w.extractLsb' 8 4)) (w.extractLsb' 0 8)⟩,
  ⟨0xF800#16, 0xE000#16, fun w => .tB2 (w.extractLsb' 0 11)⟩,
  ⟨0xF801#16, 0xE801#16, fun w => .tUndefBlx (w.extractLsb' 1 10)⟩,
  ⟨0xF801#16, 0xE800#16, fun w => .tBlx1 (w.extractLsb' 1 10)⟩,
  ⟨0xF800#16, 0xF000#16, fun w => .tBlFirst (w.extractLsb' 0 11)⟩,
  ⟨0xF800#16, 0xF800#16, fun w => .tBl (w.extractLsb' 0 11)⟩]

/-- The Thumb rows of the opcode table, in its order. -/
def thumbRows : List (DecodeRow 16) := thumbRowsAlu ++ thumbRowsMem

/-- The instruction of the first row that hits the word (R378). -/
def decodeRows {n : Nat} : List (DecodeRow n) → BitVec n → Option Instr
  | [], _ => none
  | r :: rs, w => if r.hits w then some (r.build w) else decodeRows rs w

/-- Decode an ARM word. Every word hits some row (R378). -/
def decodeArm (w : BitVec 32) : Option Instr := decodeRows armRows w

/-- Decode a Thumb halfword. Every halfword hits some row (R378). -/
def decodeThumb (w : BitVec 16) : Option Instr := decodeRows thumbRows w

/-- Why bytes are no instruction. -/
inductive DecodeError where
  /-- fewer bytes than the instruction set's unit (4 in ARM state, 2 in Thumb state) -/
  | truncated
  /-- no row of the opcode table hits the word -/
  | noRow
  deriving DecidableEq, Repr

/-- The instruction set, by the T bit: ARM words of 4 bytes or Thumb halfwords of 2. -/
inductive Isa where
  | arm | thumb
  deriving DecidableEq, Repr, Inhabited

/-- Decode the first instruction of little-endian bytes, with the bytes after it (20_memory R221, B = 0). Total. -/
def decodeBytes (isa : Isa) (bs : List Byte) : Except DecodeError (Instr × List Byte) :=
  match isa, bs with
  | .arm, b0 :: b1 :: b2 :: b3 :: rest =>
    match decodeArm (b3 ++ b2 ++ b1 ++ b0) with
    | some i => .ok (i, rest)
    | none => .error .noRow
  | .thumb, b0 :: b1 :: rest =>
    match decodeThumb (b1 ++ b0) with
    | some i => .ok (i, rest)
    | none => .error .noRow
  | _, _ => .error .truncated

/-- The bytes that hold `n` bytes of `w`, least significant first (how the hardware stores them with B = 0). -/
def bytesOfNat : Nat → Nat → List Byte
  | 0, _ => []
  | n + 1, w => BitVec.ofNat 8 w :: bytesOfNat n (w / 256)

/-- The instruction the decoder reads from a row's word: 32 bits are an ARM word, 16 a Thumb halfword. -/
def decodeTableWord (nbits w : Nat) : Option Instr :=
  let isa : Isa := if nbits = 16 then .thumb else .arm
  match decodeBytes isa (bytesOfNat (if nbits = 16 then 2 else 4) w) with
  | .ok (i, _) => some i
  | .error _ => none

/-- Is the instruction a Thumb one. -/
def Instr.isThumb : Instr → Bool
  | .blx1 .. => false
  | .pldImm .. => false
  | .pldReg .. => false
  | .undefUncond .. => false
  | .mul .. => false
  | .mla .. => false
  | .umull .. => false
  | .umlal .. => false
  | .smull .. => false
  | .smlal .. => false
  | .swp .. => false
  | .swpb .. => false
  | .strhImm .. => false
  | .strhReg .. => false
  | .ldrhImm .. => false
  | .ldrhReg .. => false
  | .ldrsbImm .. => false
  | .ldrsbReg .. => false
  | .ldrshImm .. => false
  | .ldrshReg .. => false
  | .ldrdImm .. => false
  | .ldrdReg .. => false
  | .strdImm .. => false
  | .strdReg .. => false
  | .undefMul .. => false
  | .mrs .. => false
  | .msrReg .. => false
  | .bx .. => false
  | .blx2 .. => false
  | .clz .. => false
  | .bkpt .. => false
  | .qadd .. => false
  | .qsub .. => false
  | .qdadd .. => false
  | .qdsub .. => false
  | .smlaxy .. => false
  | .smlawy .. => false
  | .smulwy .. => false
  | .smlalxy .. => false
  | .smulxy .. => false
  | .undefMisc .. => false
  | .andShift .. => false
  | .andRegShift .. => false
  | .eorShift .. => false
  | .eorRegShift .. => false
  | .subShift .. => false
  | .subRegShift .. => false
  | .rsbShift .. => false
  | .rsbRegShift .. => false
  | .addShift .. => false
  | .addRegShift .. => false
  | .adcShift .. => false
  | .adcRegShift .. => false
  | .sbcShift .. => false
  | .sbcRegShift .. => false
  | .rscShift .. => false
  | .rscRegShift .. => false
  | .tstShift .. => false
  | .tstRegShift .. => false
  | .teqShift .. => false
  | .teqRegShift .. => false
  | .cmpShift .. => false
  | .cmpRegShift .. => false
  | .cmnShift .. => false
  | .cmnRegShift .. => false
  | .orrShift .. => false
  | .orrRegShift .. => false
  | .movShift .. => false
  | .movRegShift .. => false
  | .bicShift .. => false
  | .bicRegShift .. => false
  | .mvnShift .. => false
  | .mvnRegShift .. => false
  | .msrImm .. => false
  | .undefMsr .. => false
  | .andImm .. => false
  | .eorImm .. => false
  | .subImm .. => false
  | .rsbImm .. => false
  | .addImm .. => false
  | .adcImm .. => false
  | .sbcImm .. => false
  | .rscImm .. => false
  | .tstImm .. => false
  | .teqImm .. => false
  | .cmpImm .. => false
  | .cmnImm .. => false
  | .orrImm .. => false
  | .movImm .. => false
  | .bicImm .. => false
  | .mvnImm .. => false
  | .ldrtImm .. => false
  | .ldrtReg .. => false
  | .ldrbtImm .. => false
  | .ldrbtReg .. => false
  | .strtImm .. => false
  | .strtReg .. => false
  | .strbtImm .. => false
  | .strbtReg .. => false
  | .ldrImm .. => false
  | .ldrReg .. => false
  | .ldrbImm .. => false
  | .ldrbReg .. => false
  | .strImm .. => false
  | .strReg .. => false
  | .strbImm .. => false
  | .strbReg .. => false
  | .undefMedia .. => false
  | .ldm3 .. => false
  | .ldm2 .. => false
  | .ldm1 .. => false
  | .stm2 .. => false
  | .stm1 .. => false
  | .b .. => false
  | .bl .. => false
  | .mar .. => false
  | .mra .. => false
  | .mcrr .. => false
  | .mrrc .. => false
  | .ldc .. => false
  | .stc .. => false
  | .cdp .. => false
  | .mia .. => false
  | .miaph .. => false
  | .miabb .. => false
  | .miabt .. => false
  | .miatb .. => false
  | .miatt .. => false
  | .mcr .. => false
  | .mrc .. => false
  | .swi .. => false
  | .tLsl1 .. => true
  | .tLsr1 .. => true
  | .tAsr1 .. => true
  | .tAdd3 .. => true
  | .tSub3 .. => true
  | .tAdd1 .. => true
  | .tSub1 .. => true
  | .tMov1 .. => true
  | .tCmp1 .. => true
  | .tAdd2 .. => true
  | .tSub2 .. => true
  | .tAnd .. => true
  | .tEor .. => true
  | .tLsl2 .. => true
  | .tLsr2 .. => true
  | .tAsr2 .. => true
  | .tAdc .. => true
  | .tSbc .. => true
  | .tRor .. => true
  | .tTst .. => true
  | .tNeg .. => true
  | .tCmp2 .. => true
  | .tCmn .. => true
  | .tOrr .. => true
  | .tMul .. => true
  | .tBic .. => true
  | .tMvn .. => true
  | .tAdd4 .. => true
  | .tCmp3 .. => true
  | .tMov3 .. => true
  | .tBx .. => true
  | .tBlx2 .. => true
  | .tLdr3 .. => true
  | .tStr2 .. => true
  | .tStrh2 .. => true
  | .tStrb2 .. => true
  | .tLdrsb .. => true
  | .tLdr2 .. => true
  | .tLdrh2 .. => true
  | .tLdrb2 .. => true
  | .tLdrsh .. => true
  | .tStr1 .. => true
  | .tLdr1 .. => true
  | .tStrb1 .. => true
  | .tLdrb1 .. => true
  | .tStrh1 .. => true
  | .tLdrh1 .. => true
  | .tStr3 .. => true
  | .tLdr4 .. => true
  | .tAdd5 .. => true
  | .tAdd6 .. => true
  | .tAdd7 .. => true
  | .tSub4 .. => true
  | .tPush .. => true
  | .tPop .. => true
  | .tBkpt .. => true
  | .tUndefMisc .. => true
  | .tStmia .. => true
  | .tLdmia .. => true
  | .tUndefCond .. => true
  | .tSwi .. => true
  | .tB1 .. => true
  | .tB2 .. => true
  | .tUndefBlx .. => true
  | .tBlx1 .. => true
  | .tBlFirst .. => true
  | .tBl .. => true

/-- The ARM word of an instruction (0 for a Thumb instruction). -/
def encodeArm : Instr → BitVec 32
  | .blx1 h imm => 0x7d#7 ++ (BitVec.ofBool h) ++ imm
  | .pldImm u rn off => 0xf5#8 ++ (BitVec.ofBool u) ++ 0x5#3 ++ rn ++ 0xf#4 ++ off
  | .pldReg u rn sh => 0xf7#8 ++ (BitVec.ofBool u) ++ 0x5#3 ++ rn ++ 0xf#4 ++ sh.amount ++ sh.kind.toBits ++ 0x0#1 ++ sh.rm
  | .undefUncond rest => 0xf#4 ++ rest
  | .mul c s rd rs rm => c.toBits ++ 0x0#7 ++ (BitVec.ofBool s) ++ rd ++ 0x0#4 ++ rs ++ 0x9#4 ++ rm
  | .mla c s rd rn rs rm => c.toBits ++ 0x1#7 ++ (BitVec.ofBool s) ++ rd ++ rn ++ rs ++ 0x9#4 ++ rm
  | .umull c s rdHi rdLo rs rm => c.toBits ++ 0x4#7 ++ (BitVec.ofBool s) ++ rdHi ++ rdLo ++ rs ++ 0x9#4 ++ rm
  | .umlal c s rdHi rdLo rs rm => c.toBits ++ 0x5#7 ++ (BitVec.ofBool s) ++ rdHi ++ rdLo ++ rs ++ 0x9#4 ++ rm
  | .smull c s rdHi rdLo rs rm => c.toBits ++ 0x6#7 ++ (BitVec.ofBool s) ++ rdHi ++ rdLo ++ rs ++ 0x9#4 ++ rm
  | .smlal c s rdHi rdLo rs rm => c.toBits ++ 0x7#7 ++ (BitVec.ofBool s) ++ rdHi ++ rdLo ++ rs ++ 0x9#4 ++ rm
  | .swp c rn rd rm => c.toBits ++ 0x10#8 ++ rn ++ rd ++ 0x9#8 ++ rm
  | .swpb c rn rd rm => c.toBits ++ 0x14#8 ++ rn ++ rd ++ 0x9#8 ++ rm
  | .strhImm c a rd off => c.toBits ++ 0x0#3 ++ (BitVec.ofBool a.p) ++ (BitVec.ofBool a.u) ++ 0x1#1 ++ (BitVec.ofBool a.w) ++ 0x0#1 ++ a.rn ++ rd ++ (off.extractLsb' 4 4) ++ 0xb#4 ++ (off.extractLsb' 0 4)
  | .strhReg c a rd rm => c.toBits ++ 0x0#3 ++ (BitVec.ofBool a.p) ++ (BitVec.ofBool a.u) ++ 0x0#1 ++ (BitVec.ofBool a.w) ++ 0x0#1 ++ a.rn ++ rd ++ 0xb#8 ++ rm
  | .ldrhImm c a rd off => c.toBits ++ 0x0#3 ++ (BitVec.ofBool a.p) ++ (BitVec.ofBool a.u) ++ 0x1#1 ++ (BitVec.ofBool a.w) ++ 0x1#1 ++ a.rn ++ rd ++ (off.extractLsb' 4 4) ++ 0xb#4 ++ (off.extractLsb' 0 4)
  | .ldrhReg c a rd rm => c.toBits ++ 0x0#3 ++ (BitVec.ofBool a.p) ++ (BitVec.ofBool a.u) ++ 0x0#1 ++ (BitVec.ofBool a.w) ++ 0x1#1 ++ a.rn ++ rd ++ 0xb#8 ++ rm
  | .ldrsbImm c a rd off => c.toBits ++ 0x0#3 ++ (BitVec.ofBool a.p) ++ (BitVec.ofBool a.u) ++ 0x1#1 ++ (BitVec.ofBool a.w) ++ 0x1#1 ++ a.rn ++ rd ++ (off.extractLsb' 4 4) ++ 0xd#4 ++ (off.extractLsb' 0 4)
  | .ldrsbReg c a rd rm => c.toBits ++ 0x0#3 ++ (BitVec.ofBool a.p) ++ (BitVec.ofBool a.u) ++ 0x0#1 ++ (BitVec.ofBool a.w) ++ 0x1#1 ++ a.rn ++ rd ++ 0xd#8 ++ rm
  | .ldrshImm c a rd off => c.toBits ++ 0x0#3 ++ (BitVec.ofBool a.p) ++ (BitVec.ofBool a.u) ++ 0x1#1 ++ (BitVec.ofBool a.w) ++ 0x1#1 ++ a.rn ++ rd ++ (off.extractLsb' 4 4) ++ 0xf#4 ++ (off.extractLsb' 0 4)
  | .ldrshReg c a rd rm => c.toBits ++ 0x0#3 ++ (BitVec.ofBool a.p) ++ (BitVec.ofBool a.u) ++ 0x0#1 ++ (BitVec.ofBool a.w) ++ 0x1#1 ++ a.rn ++ rd ++ 0xf#8 ++ rm
  | .ldrdImm c a rd off => c.toBits ++ 0x0#3 ++ (BitVec.ofBool a.p) ++ (BitVec.ofBool a.u) ++ 0x1#1 ++ (BitVec.ofBool a.w) ++ 0x0#1 ++ a.rn ++ rd ++ (off.extractLsb' 4 4) ++ 0xd#4 ++ (off.extractLsb' 0 4)
  | .ldrdReg c a rd rm => c.toBits ++ 0x0#3 ++ (BitVec.ofBool a.p) ++ (BitVec.ofBool a.u) ++ 0x0#1 ++ (BitVec.ofBool a.w) ++ 0x0#1 ++ a.rn ++ rd ++ 0xd#8 ++ rm
  | .strdImm c a rd off => c.toBits ++ 0x0#3 ++ (BitVec.ofBool a.p) ++ (BitVec.ofBool a.u) ++ 0x1#1 ++ (BitVec.ofBool a.w) ++ 0x0#1 ++ a.rn ++ rd ++ (off.extractLsb' 4 4) ++ 0xf#4 ++ (off.extractLsb' 0 4)
  | .strdReg c a rd rm => c.toBits ++ 0x0#3 ++ (BitVec.ofBool a.p) ++ (BitVec.ofBool a.u) ++ 0x0#1 ++ (BitVec.ofBool a.w) ++ 0x0#1 ++ a.rn ++ rd ++ 0xf#8 ++ rm
  | .undefMul c rest low => c.toBits ++ 0x0#3 ++ rest ++ 0x9#4 ++ low
  | .mrs c r rd => c.toBits ++ 0x2#5 ++ (BitVec.ofBool r) ++ 0xf#6 ++ rd ++ 0x0#12
  | .msrReg c r mask rm => c.toBits ++ 0x2#5 ++ (BitVec.ofBool r) ++ 0x2#2 ++ mask ++ 0xf00#12 ++ rm
  | .bx c rm => c.toBits ++ 0x12fff1#24 ++ rm
  | .blx2 c rm => c.toBits ++ 0x12fff3#24 ++ rm
  | .clz c rd rm => c.toBits ++ 0x16f#12 ++ rd ++ 0xf1#8 ++ rm
  | .bkpt c imm => c.toBits ++ 0x12#8 ++ (imm.extractLsb' 4 12) ++ 0x7#4 ++ (imm.extractLsb' 0 4)
  | .qadd c rn rd rm => c.toBits ++ 0x10#8 ++ rn ++ rd ++ 0x5#8 ++ rm
  | .qsub c rn rd rm => c.toBits ++ 0x12#8 ++ rn ++ rd ++ 0x5#8 ++ rm
  | .qdadd c rn rd rm => c.toBits ++ 0x14#8 ++ rn ++ rd ++ 0x5#8 ++ rm
  | .qdsub c rn rd rm => c.toBits ++ 0x16#8 ++ rn ++ rd ++ 0x5#8 ++ rm
  | .smlaxy c rd rn rs y x rm => c.toBits ++ 0x10#8 ++ rd ++ rn ++ rs ++ 0x1#1 ++ (BitVec.ofBool y) ++ (BitVec.ofBool x) ++ 0x0#1 ++ rm
  | .smlawy c rd rn rs y rm => c.toBits ++ 0x12#8 ++ rd ++ rn ++ rs ++ 0x1#1 ++ (BitVec.ofBool y) ++ 0x0#2 ++ rm
  | .smulwy c rd rs y rm => c.toBits ++ 0x12#8 ++ rd ++ 0x0#4 ++ rs ++ 0x1#1 ++ (BitVec.ofBool y) ++ 0x2#2 ++ rm
  | .smlalxy c rdHi rdLo rs y x rm => c.toBits ++ 0x14#8 ++ rdHi ++ rdLo ++ rs ++ 0x1#1 ++ (BitVec.ofBool y) ++ (BitVec.ofBool x) ++ 0x0#1 ++ rm
  | .smulxy c rd rs y x rm => c.toBits ++ 0x16#8 ++ rd ++ 0x0#4 ++ rs ++ 0x1#1 ++ (BitVec.ofBool y) ++ (BitVec.ofBool x) ++ 0x0#1 ++ rm
  | .undefMisc c op rest low => c.toBits ++ 0x2#5 ++ op ++ 0x0#1 ++ rest ++ 0x0#1 ++ low
  | .andShift c s rn rd sh => c.toBits ++ 0x0#7 ++ (BitVec.ofBool s) ++ rn ++ rd ++ sh.amount ++ sh.kind.toBits ++ 0x0#1 ++ sh.rm
  | .andRegShift c s rn rd sh => c.toBits ++ 0x0#7 ++ (BitVec.ofBool s) ++ rn ++ rd ++ sh.rs ++ 0x0#1 ++ sh.kind.toBits ++ 0x1#1 ++ sh.rm
  | .eorShift c s rn rd sh => c.toBits ++ 0x1#7 ++ (BitVec.ofBool s) ++ rn ++ rd ++ sh.amount ++ sh.kind.toBits ++ 0x0#1 ++ sh.rm
  | .eorRegShift c s rn rd sh => c.toBits ++ 0x1#7 ++ (BitVec.ofBool s) ++ rn ++ rd ++ sh.rs ++ 0x0#1 ++ sh.kind.toBits ++ 0x1#1 ++ sh.rm
  | .subShift c s rn rd sh => c.toBits ++ 0x2#7 ++ (BitVec.ofBool s) ++ rn ++ rd ++ sh.amount ++ sh.kind.toBits ++ 0x0#1 ++ sh.rm
  | .subRegShift c s rn rd sh => c.toBits ++ 0x2#7 ++ (BitVec.ofBool s) ++ rn ++ rd ++ sh.rs ++ 0x0#1 ++ sh.kind.toBits ++ 0x1#1 ++ sh.rm
  | .rsbShift c s rn rd sh => c.toBits ++ 0x3#7 ++ (BitVec.ofBool s) ++ rn ++ rd ++ sh.amount ++ sh.kind.toBits ++ 0x0#1 ++ sh.rm
  | .rsbRegShift c s rn rd sh => c.toBits ++ 0x3#7 ++ (BitVec.ofBool s) ++ rn ++ rd ++ sh.rs ++ 0x0#1 ++ sh.kind.toBits ++ 0x1#1 ++ sh.rm
  | .addShift c s rn rd sh => c.toBits ++ 0x4#7 ++ (BitVec.ofBool s) ++ rn ++ rd ++ sh.amount ++ sh.kind.toBits ++ 0x0#1 ++ sh.rm
  | .addRegShift c s rn rd sh => c.toBits ++ 0x4#7 ++ (BitVec.ofBool s) ++ rn ++ rd ++ sh.rs ++ 0x0#1 ++ sh.kind.toBits ++ 0x1#1 ++ sh.rm
  | .adcShift c s rn rd sh => c.toBits ++ 0x5#7 ++ (BitVec.ofBool s) ++ rn ++ rd ++ sh.amount ++ sh.kind.toBits ++ 0x0#1 ++ sh.rm
  | .adcRegShift c s rn rd sh => c.toBits ++ 0x5#7 ++ (BitVec.ofBool s) ++ rn ++ rd ++ sh.rs ++ 0x0#1 ++ sh.kind.toBits ++ 0x1#1 ++ sh.rm
  | .sbcShift c s rn rd sh => c.toBits ++ 0x6#7 ++ (BitVec.ofBool s) ++ rn ++ rd ++ sh.amount ++ sh.kind.toBits ++ 0x0#1 ++ sh.rm
  | .sbcRegShift c s rn rd sh => c.toBits ++ 0x6#7 ++ (BitVec.ofBool s) ++ rn ++ rd ++ sh.rs ++ 0x0#1 ++ sh.kind.toBits ++ 0x1#1 ++ sh.rm
  | .rscShift c s rn rd sh => c.toBits ++ 0x7#7 ++ (BitVec.ofBool s) ++ rn ++ rd ++ sh.amount ++ sh.kind.toBits ++ 0x0#1 ++ sh.rm
  | .rscRegShift c s rn rd sh => c.toBits ++ 0x7#7 ++ (BitVec.ofBool s) ++ rn ++ rd ++ sh.rs ++ 0x0#1 ++ sh.kind.toBits ++ 0x1#1 ++ sh.rm
  | .tstShift c rn sh => c.toBits ++ 0x11#8 ++ rn ++ 0x0#4 ++ sh.amount ++ sh.kind.toBits ++ 0x0#1 ++ sh.rm
  | .tstRegShift c rn sh => c.toBits ++ 0x11#8 ++ rn ++ 0x0#4 ++ sh.rs ++ 0x0#1 ++ sh.kind.toBits ++ 0x1#1 ++ sh.rm
  | .teqShift c rn sh => c.toBits ++ 0x13#8 ++ rn ++ 0x0#4 ++ sh.amount ++ sh.kind.toBits ++ 0x0#1 ++ sh.rm
  | .teqRegShift c rn sh => c.toBits ++ 0x13#8 ++ rn ++ 0x0#4 ++ sh.rs ++ 0x0#1 ++ sh.kind.toBits ++ 0x1#1 ++ sh.rm
  | .cmpShift c rn sh => c.toBits ++ 0x15#8 ++ rn ++ 0x0#4 ++ sh.amount ++ sh.kind.toBits ++ 0x0#1 ++ sh.rm
  | .cmpRegShift c rn sh => c.toBits ++ 0x15#8 ++ rn ++ 0x0#4 ++ sh.rs ++ 0x0#1 ++ sh.kind.toBits ++ 0x1#1 ++ sh.rm
  | .cmnShift c rn sh => c.toBits ++ 0x17#8 ++ rn ++ 0x0#4 ++ sh.amount ++ sh.kind.toBits ++ 0x0#1 ++ sh.rm
  | .cmnRegShift c rn sh => c.toBits ++ 0x17#8 ++ rn ++ 0x0#4 ++ sh.rs ++ 0x0#1 ++ sh.kind.toBits ++ 0x1#1 ++ sh.rm
  | .orrShift c s rn rd sh => c.toBits ++ 0xc#7 ++ (BitVec.ofBool s) ++ rn ++ rd ++ sh.amount ++ sh.kind.toBits ++ 0x0#1 ++ sh.rm
  | .orrRegShift c s rn rd sh => c.toBits ++ 0xc#7 ++ (BitVec.ofBool s) ++ rn ++ rd ++ sh.rs ++ 0x0#1 ++ sh.kind.toBits ++ 0x1#1 ++ sh.rm
  | .movShift c s rd sh => c.toBits ++ 0xd#7 ++ (BitVec.ofBool s) ++ 0x0#4 ++ rd ++ sh.amount ++ sh.kind.toBits ++ 0x0#1 ++ sh.rm
  | .movRegShift c s rd sh => c.toBits ++ 0xd#7 ++ (BitVec.ofBool s) ++ 0x0#4 ++ rd ++ sh.rs ++ 0x0#1 ++ sh.kind.toBits ++ 0x1#1 ++ sh.rm
  | .bicShift c s rn rd sh => c.toBits ++ 0xe#7 ++ (BitVec.ofBool s) ++ rn ++ rd ++ sh.amount ++ sh.kind.toBits ++ 0x0#1 ++ sh.rm
  | .bicRegShift c s rn rd sh => c.toBits ++ 0xe#7 ++ (BitVec.ofBool s) ++ rn ++ rd ++ sh.rs ++ 0x0#1 ++ sh.kind.toBits ++ 0x1#1 ++ sh.rm
  | .mvnShift c s rd sh => c.toBits ++ 0xf#7 ++ (BitVec.ofBool s) ++ 0x0#4 ++ rd ++ sh.amount ++ sh.kind.toBits ++ 0x0#1 ++ sh.rm
  | .mvnRegShift c s rd sh => c.toBits ++ 0xf#7 ++ (BitVec.ofBool s) ++ 0x0#4 ++ rd ++ sh.rs ++ 0x0#1 ++ sh.kind.toBits ++ 0x1#1 ++ sh.rm
  | .msrImm c r mask op => c.toBits ++ 0x6#5 ++ (BitVec.ofBool r) ++ 0x2#2 ++ mask ++ 0xf#4 ++ op.rot ++ op.imm8
  | .undefMsr c x rest => c.toBits ++ 0x6#5 ++ (BitVec.ofBool x) ++ 0x0#2 ++ rest
  | .andImm c s rn rd op => c.toBits ++ 0x10#7 ++ (BitVec.ofBool s) ++ rn ++ rd ++ op.rot ++ op.imm8
  | .eorImm c s rn rd op => c.toBits ++ 0x11#7 ++ (BitVec.ofBool s) ++ rn ++ rd ++ op.rot ++ op.imm8
  | .subImm c s rn rd op => c.toBits ++ 0x12#7 ++ (BitVec.ofBool s) ++ rn ++ rd ++ op.rot ++ op.imm8
  | .rsbImm c s rn rd op => c.toBits ++ 0x13#7 ++ (BitVec.ofBool s) ++ rn ++ rd ++ op.rot ++ op.imm8
  | .addImm c s rn rd op => c.toBits ++ 0x14#7 ++ (BitVec.ofBool s) ++ rn ++ rd ++ op.rot ++ op.imm8
  | .adcImm c s rn rd op => c.toBits ++ 0x15#7 ++ (BitVec.ofBool s) ++ rn ++ rd ++ op.rot ++ op.imm8
  | .sbcImm c s rn rd op => c.toBits ++ 0x16#7 ++ (BitVec.ofBool s) ++ rn ++ rd ++ op.rot ++ op.imm8
  | .rscImm c s rn rd op => c.toBits ++ 0x17#7 ++ (BitVec.ofBool s) ++ rn ++ rd ++ op.rot ++ op.imm8
  | .tstImm c rn op => c.toBits ++ 0x31#8 ++ rn ++ 0x0#4 ++ op.rot ++ op.imm8
  | .teqImm c rn op => c.toBits ++ 0x33#8 ++ rn ++ 0x0#4 ++ op.rot ++ op.imm8
  | .cmpImm c rn op => c.toBits ++ 0x35#8 ++ rn ++ 0x0#4 ++ op.rot ++ op.imm8
  | .cmnImm c rn op => c.toBits ++ 0x37#8 ++ rn ++ 0x0#4 ++ op.rot ++ op.imm8
  | .orrImm c s rn rd op => c.toBits ++ 0x1c#7 ++ (BitVec.ofBool s) ++ rn ++ rd ++ op.rot ++ op.imm8
  | .movImm c s rd op => c.toBits ++ 0x1d#7 ++ (BitVec.ofBool s) ++ 0x0#4 ++ rd ++ op.rot ++ op.imm8
  | .bicImm c s rn rd op => c.toBits ++ 0x1e#7 ++ (BitVec.ofBool s) ++ rn ++ rd ++ op.rot ++ op.imm8
  | .mvnImm c s rd op => c.toBits ++ 0x1f#7 ++ (BitVec.ofBool s) ++ 0x0#4 ++ rd ++ op.rot ++ op.imm8
  | .ldrtImm c u rn rd off => c.toBits ++ 0x4#4 ++ (BitVec.ofBool u) ++ 0x3#3 ++ rn ++ rd ++ off
  | .ldrtReg c u rn rd sh => c.toBits ++ 0x6#4 ++ (BitVec.ofBool u) ++ 0x3#3 ++ rn ++ rd ++ sh.amount ++ sh.kind.toBits ++ 0x0#1 ++ sh.rm
  | .ldrbtImm c u rn rd off => c.toBits ++ 0x4#4 ++ (BitVec.ofBool u) ++ 0x7#3 ++ rn ++ rd ++ off
  | .ldrbtReg c u rn rd sh => c.toBits ++ 0x6#4 ++ (BitVec.ofBool u) ++ 0x7#3 ++ rn ++ rd ++ sh.amount ++ sh.kind.toBits ++ 0x0#1 ++ sh.rm
  | .strtImm c u rn rd off => c.toBits ++ 0x4#4 ++ (BitVec.ofBool u) ++ 0x2#3 ++ rn ++ rd ++ off
  | .strtReg c u rn rd sh => c.toBits ++ 0x6#4 ++ (BitVec.ofBool u) ++ 0x2#3 ++ rn ++ rd ++ sh.amount ++ sh.kind.toBits ++ 0x0#1 ++ sh.rm
  | .strbtImm c u rn rd off => c.toBits ++ 0x4#4 ++ (BitVec.ofBool u) ++ 0x6#3 ++ rn ++ rd ++ off
  | .strbtReg c u rn rd sh => c.toBits ++ 0x6#4 ++ (BitVec.ofBool u) ++ 0x6#3 ++ rn ++ rd ++ sh.amount ++ sh.kind.toBits ++ 0x0#1 ++ sh.rm
  | .ldrImm c a rd off => c.toBits ++ 0x2#3 ++ (BitVec.ofBool a.index.pBit) ++ (BitVec.ofBool a.u) ++ 0x0#1 ++ (BitVec.ofBool a.index.wBit) ++ 0x1#1 ++ a.rn ++ rd ++ off
  | .ldrReg c a rd sh => c.toBits ++ 0x3#3 ++ (BitVec.ofBool a.index.pBit) ++ (BitVec.ofBool a.u) ++ 0x0#1 ++ (BitVec.ofBool a.index.wBit) ++ 0x1#1 ++ a.rn ++ rd ++ sh.amount ++ sh.kind.toBits ++ 0x0#1 ++ sh.rm
  | .ldrbImm c a rd off => c.toBits ++ 0x2#3 ++ (BitVec.ofBool a.index.pBit) ++ (BitVec.ofBool a.u) ++ 0x1#1 ++ (BitVec.ofBool a.index.wBit) ++ 0x1#1 ++ a.rn ++ rd ++ off
  | .ldrbReg c a rd sh => c.toBits ++ 0x3#3 ++ (BitVec.ofBool a.index.pBit) ++ (BitVec.ofBool a.u) ++ 0x1#1 ++ (BitVec.ofBool a.index.wBit) ++ 0x1#1 ++ a.rn ++ rd ++ sh.amount ++ sh.kind.toBits ++ 0x0#1 ++ sh.rm
  | .strImm c a rd off => c.toBits ++ 0x2#3 ++ (BitVec.ofBool a.index.pBit) ++ (BitVec.ofBool a.u) ++ 0x0#1 ++ (BitVec.ofBool a.index.wBit) ++ 0x0#1 ++ a.rn ++ rd ++ off
  | .strReg c a rd sh => c.toBits ++ 0x3#3 ++ (BitVec.ofBool a.index.pBit) ++ (BitVec.ofBool a.u) ++ 0x0#1 ++ (BitVec.ofBool a.index.wBit) ++ 0x0#1 ++ a.rn ++ rd ++ sh.amount ++ sh.kind.toBits ++ 0x0#1 ++ sh.rm
  | .strbImm c a rd off => c.toBits ++ 0x2#3 ++ (BitVec.ofBool a.index.pBit) ++ (BitVec.ofBool a.u) ++ 0x1#1 ++ (BitVec.ofBool a.index.wBit) ++ 0x0#1 ++ a.rn ++ rd ++ off
  | .strbReg c a rd sh => c.toBits ++ 0x3#3 ++ (BitVec.ofBool a.index.pBit) ++ (BitVec.ofBool a.u) ++ 0x1#1 ++ (BitVec.ofBool a.index.wBit) ++ 0x0#1 ++ a.rn ++ rd ++ sh.amount ++ sh.kind.toBits ++ 0x0#1 ++ sh.rm
  | .undefMedia c rest low => c.toBits ++ 0x3#3 ++ rest ++ 0x1#1 ++ low
  | .ldm3 c a list => c.toBits ++ 0x4#3 ++ (BitVec.ofBool a.p) ++ (BitVec.ofBool a.u) ++ 0x1#1 ++ (BitVec.ofBool a.w) ++ 0x1#1 ++ a.rn ++ 0x1#1 ++ list
  | .ldm2 c a list => c.toBits ++ 0x4#3 ++ (BitVec.ofBool a.p) ++ (BitVec.ofBool a.u) ++ 0x1#1 ++ (BitVec.ofBool a.w) ++ 0x1#1 ++ a.rn ++ 0x0#1 ++ list
  | .ldm1 c a list => c.toBits ++ 0x4#3 ++ (BitVec.ofBool a.p) ++ (BitVec.ofBool a.u) ++ 0x0#1 ++ (BitVec.ofBool a.w) ++ 0x1#1 ++ a.rn ++ list
  | .stm2 c a list => c.toBits ++ 0x4#3 ++ (BitVec.ofBool a.p) ++ (BitVec.ofBool a.u) ++ 0x1#1 ++ (BitVec.ofBool a.w) ++ 0x0#1 ++ a.rn ++ list
  | .stm1 c a list => c.toBits ++ 0x4#3 ++ (BitVec.ofBool a.p) ++ (BitVec.ofBool a.u) ++ 0x0#1 ++ (BitVec.ofBool a.w) ++ 0x0#1 ++ a.rn ++ list
  | .b c imm => c.toBits ++ 0xa#4 ++ imm
  | .bl c imm => c.toBits ++ 0xb#4 ++ imm
  | .mar c rdHi rdLo sbz acc => c.toBits ++ 0xc4#8 ++ rdHi ++ rdLo ++ 0x0#4 ++ sbz ++ acc
  | .mra c rdHi rdLo sbz acc => c.toBits ++ 0xc5#8 ++ rdHi ++ rdLo ++ 0x0#4 ++ sbz ++ acc
  | .mcrr c rn rd cp op crm => c.toBits ++ 0xc4#8 ++ rn ++ rd ++ cp ++ op ++ crm
  | .mrrc c rn rd cp op crm => c.toBits ++ 0xc5#8 ++ rn ++ rd ++ cp ++ op ++ crm
  | .ldc c a crd cp off => c.toBits ++ 0x6#3 ++ (BitVec.ofBool a.p) ++ (BitVec.ofBool a.u) ++ (BitVec.ofBool a.n) ++ (BitVec.ofBool a.w) ++ 0x1#1 ++ a.rn ++ crd ++ cp ++ off
  | .stc c a crd cp off => c.toBits ++ 0x6#3 ++ (BitVec.ofBool a.p) ++ (BitVec.ofBool a.u) ++ (BitVec.ofBool a.n) ++ (BitVec.ofBool a.w) ++ 0x0#1 ++ a.rn ++ crd ++ cp ++ off
  | .cdp c op1 crn crd cp op2 crm => c.toBits ++ 0xe#4 ++ op1 ++ crn ++ crd ++ cp ++ op2 ++ 0x0#1 ++ crm
  | .mia c rs acc rm => c.toBits ++ 0xe20#12 ++ rs ++ 0x0#4 ++ acc ++ 0x1#1 ++ rm
  | .miaph c rs acc rm => c.toBits ++ 0xe28#12 ++ rs ++ 0x0#4 ++ acc ++ 0x1#1 ++ rm
  | .miabb c rs acc rm => c.toBits ++ 0xe2c#12 ++ rs ++ 0x0#4 ++ acc ++ 0x1#1 ++ rm
  | .miabt c rs acc rm => c.toBits ++ 0xe2d#12 ++ rs ++ 0x0#4 ++ acc ++ 0x1#1 ++ rm
  | .miatb c rs acc rm => c.toBits ++ 0xe2e#12 ++ rs ++ 0x0#4 ++ acc ++ 0x1#1 ++ rm
  | .miatt c rs acc rm => c.toBits ++ 0xe2f#12 ++ rs ++ 0x0#4 ++ acc ++ 0x1#1 ++ rm
  | .mcr c op1 crn rd cp op2 crm => c.toBits ++ 0xe#4 ++ op1 ++ 0x0#1 ++ crn ++ rd ++ cp ++ op2 ++ 0x1#1 ++ crm
  | .mrc c op1 crn rd cp op2 crm => c.toBits ++ 0xe#4 ++ op1 ++ 0x1#1 ++ crn ++ rd ++ cp ++ op2 ++ 0x1#1 ++ crm
  | .swi c imm => c.toBits ++ 0xf#4 ++ imm
  | _ => 0

/-- The Thumb halfword of an instruction (0 for an ARM instruction). -/
def encodeThumb : Instr → BitVec 16
  | .tLsl1 imm rm rd => 0x0#5 ++ imm ++ rm ++ rd
  | .tLsr1 imm rm rd => 0x1#5 ++ imm ++ rm ++ rd
  | .tAsr1 imm rm rd => 0x2#5 ++ imm ++ rm ++ rd
  | .tAdd3 rm rn rd => 0xc#7 ++ rm ++ rn ++ rd
  | .tSub3 rm rn rd => 0xd#7 ++ rm ++ rn ++ rd
  | .tAdd1 imm rn rd => 0xe#7 ++ imm ++ rn ++ rd
  | .tSub1 imm rn rd => 0xf#7 ++ imm ++ rn ++ rd
  | .tMov1 rd imm => 0x4#5 ++ rd ++ imm
  | .tCmp1 rn imm => 0x5#5 ++ rn ++ imm
  | .tAdd2 rd imm => 0x6#5 ++ rd ++ imm
  | .tSub2 rd imm => 0x7#5 ++ rd ++ imm
  | .tAnd rm rd => 0x100#10 ++ rm ++ rd
  | .tEor rm rd => 0x101#10 ++ rm ++ rd
  | .tLsl2 rm rd => 0x102#10 ++ rm ++ rd
  | .tLsr2 rm rd => 0x103#10 ++ rm ++ rd
  | .tAsr2 rm rd => 0x104#10 ++ rm ++ rd
  | .tAdc rm rd => 0x105#10 ++ rm ++ rd
  | .tSbc rm rd => 0x106#10 ++ rm ++ rd
  | .tRor rm rd => 0x107#10 ++ rm ++ rd
  | .tTst rm rd => 0x108#10 ++ rm ++ rd
  | .tNeg rm rd => 0x109#10 ++ rm ++ rd
  | .tCmp2 rm rd => 0x10a#10 ++ rm ++ rd
  | .tCmn rm rd => 0x10b#10 ++ rm ++ rd
  | .tOrr rm rd => 0x10c#10 ++ rm ++ rd
  | .tMul rm rd => 0x10d#10 ++ rm ++ rd
  | .tBic rm rd => 0x10e#10 ++ rm ++ rd
  | .tMvn rm rd => 0x10f#10 ++ rm ++ rd
  | .tAdd4 d m => 0x44#8 ++ (d.extractLsb' 3 1) ++ (m.extractLsb' 3 1) ++ (m.extractLsb' 0 3) ++ (d.extractLsb' 0 3)
  | .tCmp3 n m => 0x45#8 ++ (n.extractLsb' 3 1) ++ (m.extractLsb' 3 1) ++ (m.extractLsb' 0 3) ++ (n.extractLsb' 0 3)
  | .tMov3 d m => 0x46#8 ++ (d.extractLsb' 3 1) ++ (m.extractLsb' 3 1) ++ (m.extractLsb' 0 3) ++ (d.extractLsb' 0 3)
  | .tBx m => 0x8e#9 ++ (m.extractLsb' 3 1) ++ (m.extractLsb' 0 3) ++ 0x0#3
  | .tBlx2 m => 0x8f#9 ++ (m.extractLsb' 3 1) ++ (m.extractLsb' 0 3) ++ 0x0#3
  | .tLdr3 rd imm => 0x9#5 ++ rd ++ imm
  | .tStr2 rm rn rd => 0x28#7 ++ rm ++ rn ++ rd
  | .tStrh2 rm rn rd => 0x29#7 ++ rm ++ rn ++ rd
  | .tStrb2 rm rn rd => 0x2a#7 ++ rm ++ rn ++ rd
  | .tLdrsb rm rn rd => 0x2b#7 ++ rm ++ rn ++ rd
  | .tLdr2 rm rn rd => 0x2c#7 ++ rm ++ rn ++ rd
  | .tLdrh2 rm rn rd => 0x2d#7 ++ rm ++ rn ++ rd
  | .tLdrb2 rm rn rd => 0x2e#7 ++ rm ++ rn ++ rd
  | .tLdrsh rm rn rd => 0x2f#7 ++ rm ++ rn ++ rd
  | .tStr1 imm rn rd => 0xc#5 ++ imm ++ rn ++ rd
  | .tLdr1 imm rn rd => 0xd#5 ++ imm ++ rn ++ rd
  | .tStrb1 imm rn rd => 0xe#5 ++ imm ++ rn ++ rd
  | .tLdrb1 imm rn rd => 0xf#5 ++ imm ++ rn ++ rd
  | .tStrh1 imm rn rd => 0x10#5 ++ imm ++ rn ++ rd
  | .tLdrh1 imm rn rd => 0x11#5 ++ imm ++ rn ++ rd
  | .tStr3 rd imm => 0x12#5 ++ rd ++ imm
  | .tLdr4 rd imm => 0x13#5 ++ rd ++ imm
  | .tAdd5 rd imm => 0x14#5 ++ rd ++ imm
  | .tAdd6 rd imm => 0x15#5 ++ rd ++ imm
  | .tAdd7 imm => 0x160#9 ++ imm
  | .tSub4 imm => 0x161#9 ++ imm
  | .tPush r list => 0x5a#7 ++ (BitVec.ofBool r) ++ list
  | .tPop r list => 0x5e#7 ++ (BitVec.ofBool r) ++ list
  | .tBkpt imm => 0xbe#8 ++ imm
  | .tUndefMisc rest => 0xb#4 ++ rest
  | .tStmia rn list => 0x18#5 ++ rn ++ list
  | .tLdmia rn list => 0x19#5 ++ rn ++ list
  | .tUndefCond rest => 0xde#8 ++ rest
  | .tSwi imm => 0xdf#8 ++ imm
  | .tB1 c imm => 0xd#4 ++ c.toBits ++ imm
  | .tB2 imm => 0x1c#5 ++ imm
  | .tUndefBlx off => 0x1d#5 ++ off ++ 0x1#1
  | .tBlx1 off => 0x1d#5 ++ off ++ 0x0#1
  | .tBlFirst off => 0x1e#5 ++ off
  | .tBl off => 0x1f#5 ++ off
  | _ => 0

/-- The words of an instruction: one ARM word, or one Thumb halfword. -/
inductive Encoding where
  | arm (w : BitVec 32)
  | thumb (w : BitVec 16)
  deriving DecidableEq, Repr

/-- The words of a well-formed instruction, from the same encoding tables. -/
def encode (i : Instr) : Encoding :=
  if i.isThumb then .thumb (encodeThumb i) else .arm (encodeArm i)

/-- Decode what `encode` writes. -/
def decode : Encoding → Option Instr
  | .arm w => decodeArm w
  | .thumb w => decodeThumb w

end Sys2Proof
end

