-- ==== Sys2Proof/Config.lean ====
section
/-!
DEFINITION. What an implementation, the board or the silicon fixes, and the free values.
An `opaque` constant has no body: no proof can learn its value, so every statement holds whatever it is.
The two board pins' values at power-on are the spec's defaults (92_eei_decisions section 2); the host event `pins` gives
them any value before a reset.
-/

namespace Sys2Proof.Config

/-- The silicon stepping (00_scope R4): the revision field of the ID registers. -/
inductive Stepping where
  | a0 | a1 | b0 | c0 | d0
  deriving DecidableEq, Repr, Inhabited

/-- Revision number of a stepping (11_state_cp15 R82). -/
def Stepping.revision : Stepping → BitVec 4
  | .a0 => 0 | .a1 => 1 | .b0 => 2 | .c0 => 3 | .d0 => 4

/-- A0 and A1 (61_debug R816 calls them the A-step). -/
def Stepping.isA : Stepping → Bool
  | .a0 => true | .a1 => true | .b0 => false | .c0 => false | .d0 => false

/-- C-0 and D-0 define ECTST.DWE (12_state R174). -/
def Stepping.hasDwe : Stepping → Bool
  | .a0 => false | .a1 => false | .b0 => false | .c0 => true | .d0 => true

/-- FREE VALUE. `STEPPING`, no default (92_eei_decisions section 2; log 47). -/
opaque stepping : Stepping

/-- FREE VALUE. The `n`-th free 32-bit value (log 12): applied to the counter `freeCount` of the state. -/
opaque freeWord : Nat → BitVec 32

/-- FREE VALUE. `STORE_PC_OFFSET` is 12 when true, 8 when false (D3; log 11). -/
opaque storePcIs12 : Bool

/-- FREE VALUE. U40: true when an access to DCSR or a breakpoint register in Halt mode outside Special Debug
State takes the undefined-instruction exception; false when a write is ignored and a read answers the register. -/
opaque haltDebugAccessTraps : Bool

/-- FREE VALUE. U46: is the mini instruction cache looked up when Control.I = 0 outside Special Debug State. -/
opaque miniLookupWhenDisabled : Bool

/-- FREE VALUE. U7: does Invalidate I cache line invalidate a locked line (it keeps its lock), or do nothing. -/
opaque invalidateHitsLockedLine : Bool

/-- FREE VALUE. `RESET_TRAP_MOE` is 0b101 when true, 0b000 (the spec's default) when false (D23; log 28). -/
opaque resetTrapIsVector : Bool

/-- `RESET_TRAP_MOE` (92_eei_decisions section 2: in {0b000, 0b101}). -/
def resetTrapMoe : BitVec 3 := if resetTrapIsVector then 0b101#3 else 0b000#3

/-- FREE VALUE. `IDLE_WAKE_INTERNAL` (U51; log 42): do PMU and BCU requests end idle, as the pins do. -/
opaque idleWakeInternal : Bool

/-- FREE VALUE. `TB_CHECKPOINT_POLICY` (U44, R783; log 38): is a branch message checkpointed, from the number of bytes
written since the buffer was enabled and since the last checkpointed message (`none`: there is none). -/
opaque checkpointNow (written : Nat) (since : Option Nat) : Bool

/-- The trace buffer asks for its full break when this many bytes are written (R786: 256 - 6). DEDUCED. -/
def traceFullThreshold : Nat := 250

/-- FREE VALUE. Is a bus abort of a fetch's table walk a precise data abort (62_platform R854) when true, or a prefetch abort
(21_mmu R273: "R711 for fetches") when false (log 27). -/
opaque fetchWalkAbortIsData : Bool

/-- `DBUS_WIDTH` default 64 bits (92_eei_decisions section 2): the DBusWidth pin is 0. -/
def busIs32Default : Bool := false

/-- `PLLCFG` default 0 (92_eei_decisions section 2). -/
def pllcfgDefault : Bool := false

end Sys2Proof.Config
end

