-- ==== Sys2Proof/Machine/State.lean ====
section
/-!
DEFINITION. The state of the 80200 as plain data: every piece of state the spec gives the machine (INVENTORY.md,
'## State', gives for each the rule that names it and its reset value), the environment it meets, and the model's
own fields. Also the reasons a step can stop, and the state after power-on reset (10_state R49, 70_reset R901).
-/

namespace Sys2Proof.Machine

/-- The size of a translated region (21_mmu R262 to R264). -/
inductive RegionSize where
  | sect | large | small | tiny
  deriving DecidableEq, Repr, Inhabited

/-- One TLB entry (21_mmu R290): `mva` and `pa` are the region's bases; `ap` holds AP3 to AP0, eight bits, the
one AP field repeated where the descriptor has one (R267). -/
structure TlbEntry where
  index : BitVec 5
  valid : Bool
  locked : Bool
  size : RegionSize
  mva : Word
  pa : Word
  domain : BitVec 4
  ap : BitVec 8
  x : Bool
  c : Bool
  b : Bool
  p : Bool
  deriving DecidableEq, Repr, Inhabited

/-- A TLB (21_mmu R290): the entries ever written (at most one per index), the round-robin and lock pointers. -/
structure Tlb where
  entries : List TlbEntry
  rr : BitVec 5
  lock : BitVec 5
  deriving DecidableEq, Repr, Inhabited

/-- One cache line (21_mmu R301, R311). `pa` and `ecc` are where an eviction writes (log 34); `bad` marks the
bytes whose parity is wrong (R327, R328); `downloaded` is the MODEL's: the line came through LDIC (61_debug R799), no memory
stands behind it (log 58). -/
structure CacheLine where
  set : BitVec 5
  way : BitVec 5
  tag : BitVec 22
  valid : Bool
  locked : Bool
  dirtyLo : Bool
  dirtyHi : Bool
  pa : Word
  ecc : Bool
  bad : BitVec 32
  data : Vector Byte 32
  downloaded : Bool
  deriving DecidableEq, Repr, Inhabited

/-- A cache: the lines ever written (at most one per set and way) and a round-robin pointer per set. -/
structure Cache where
  lines : List CacheLine
  rr : Vector (BitVec 5) 32
  deriving DecidableEq, Repr, Inhabited

/-- An instruction fetch buffer (21_mmu R302, R303): 32 bytes, a valid bit per word, the line's MVA[31:5]. -/
structure FetchBuf where
  tag : BitVec 27
  valid : BitVec 8
  data : Vector Byte 32
  deriving DecidableEq, Repr, Inhabited

/-- The two fetch buffers and which the next miss fills (log 35). -/
structure FetchBufs where
  buf0 : FetchBuf
  buf1 : FetchBuf
  next : Bool
  deriving DecidableEq, Repr, Inhabited

/-- Branch history (21_mmu R330): strongly or weakly not taken, weakly or strongly taken. -/
inductive History where
  | sn | wn | wt | st
  deriving DecidableEq, Repr, Inhabited

/-- The MODEL's record of where a branch was fetched: the instruction set and the byte order, whether in Special Debug State,
whether from a line that LDIC downloaded, and the physical address. -/
structure FetchPlace where
  thumb : Bool
  big : Bool
  sds : Bool
  downloaded : Bool
  pa : Word
  deriving DecidableEq, Repr, Inhabited

/-- A valid BTB entry (21_mmu R330): index = address[8:2], tag = address[31:9,1], target[31:1]. `word` and `place` are the
MODEL's: the branch the entry was made for and where it was fetched, the old word a fetch may still deliver when the code there
has been rewritten (U3). -/
structure BtbEntry where
  index : BitVec 7
  tag : BitVec 24
  target : BitVec 31
  history : History
  word : Word
  place : FetchPlace
  deriving DecidableEq, Repr, Inhabited

/-- The MODEL's record of how the lock function's requirements stand (21_mmu R307, U8): no line locked since the
instruction cache was invalidated; lines locked and no cacheable line fetched since; a cacheable line fetched after a lock,
so that the cache must be invalidated before the next lock. -/
inductive LockPhase where
  | fresh | locking | spoiled
  deriving DecidableEq, Repr, Inhabited

/-- CP15 registers (11_state_cp15). ID and Cache Type are constants. -/
structure Cp15 where
  control : Word
  auxControl : Word
  ttbr : Word
  dacr : Word
  fsr : Word
  far : Word
  dcacheLock : Bool
  pid : Word
  ibcr0 : Word
  ibcr1 : Word
  dbr0 : Word
  dbr1 : Word
  dbcon : Word
  cpar : Word
  deriving DecidableEq, Repr, Inhabited

/-- The performance monitor (12_state R142 to R144); `prescale` is the divide-by-64 phase of CCNT. -/
structure Pmu where
  pmnc : Word
  ccnt : Word
  pmn0 : Word
  pmn1 : Word
  prescale : BitVec 6
  deriving DecidableEq, Repr, Inhabited

/-- The power mode (12_state R148, 62_platform R881). -/
inductive PowerMode where
  | active | idle | sleep
  deriving DecidableEq, Repr, Inhabited

/-- Clock configuration and power mode (12_state R147, R148). -/
structure Power where
  cclkcfg : BitVec 4
  mode : PowerMode
  deriving DecidableEq, Repr, Inhabited

/-- The debug unit (12_state R150 to R154, 61_debug R752, R756). -/
structure Dbg where
  dcsr : Word
  tx : Word
  rx : Word
  txrxctrl : Word
  sds : Bool
  extBreak : Bool
  tbFull : Bool
  deriving DecidableEq, Repr, Inhabited

/-- The trace buffer (61_debug R780 to R787): 256 bytes oldest first, the instruction count, the bytes written since
the buffer was enabled and since the last checkpointed message, and the checkpoint registers (12_state R156). -/
structure Trace where
  bytes : List Byte
  count : BitVec 4
  written : Nat
  sinceChk : Option Nat
  chkpt0 : Word
  chkpt1 : Word
  deriving DecidableEq, Repr, Inhabited

/-- The interrupt controller (12_state R160 to R162) and the synchronised pins it samples (60_exceptions R700). -/
structure Icu where
  intctl : Word
  intstr : Word
  fiqPin : Bool
  irqPin : Bool
  deriving DecidableEq, Repr, Inhabited

/-- The bus controller (12_state R170 to R175); `dweWritten`: ECTST.DWE has been changed once (U57). -/
structure Bcu where
  bcuctl : Word
  bcumod : Word
  elog0 : Word
  elog1 : Word
  ecar0 : Word
  ecar1 : Word
  ectst : Word
  dweWritten : Bool
  deriving DecidableEq, Repr, Inhabited

/-- An LDIC load in progress (61_debug R799): the target cache, the line address VA[31:5], the words so far with
whether their parity is what the cache expects (U47). -/
structure LdicLoad where
  mini : Bool
  addr : BitVec 27
  words : List (Word × Bool)
  deriving DecidableEq, Repr, Inhabited

/-- The test access port's state that software interacts with (61_debug R761, R764, R798, R805, R806). `valid`, `data`,
`reg1` and `reg0` are the latch DBG_REG[34], [33:2], [1] and [0] that SELDCSR, DBGTX and DBGRX share (R760); `holdRst` is
the signal hold_rst; `pinsFloat`: highz was selected when RESET# rose, so the output pins float (R806). -/
structure Jtag where
  ir : BitVec 5
  holdRst : Bool
  valid : Bool
  data : Word
  reg1 : Bool
  reg0 : Bool
  ldicFn : Option LdicLoad
  out : BitVec 36
  pinsFloat : Bool
  deriving DecidableEq, Repr, Inhabited

/-- The error state of an 8-byte block of memory (62_platform R851): one wrong data bit, one wrong check bit, or
more than one wrong bit, each with the syndrome the BCU computes for it. -/
inductive EccState where
  | good | dataBit (bit : BitVec 6) (syn : BitVec 8) | checkBit (syn : BitVec 8) | multi (syn : BitVec 8)
  deriving DecidableEq, Repr, Inhabited

/-- A range of physical addresses, first to last, whose data cycles the board aborts, of reads, of writes or of both
(62_platform R874). -/
structure AbortRegion where
  first : Word
  last : Word
  reads : Bool
  writes : Bool
  deriving DecidableEq, Repr, Inhabited

/-- The board: the address ranges it aborts (62_platform R874), those whose read bursts it returns critical word first, with
CWF = 1 (R872; first and last address), what other bus masters write before each of the core's coming requests (R875; the
first item before the next one, each a list of addresses and bytes), ECC error states by block number (sorted, none `good`), and
the levels of the pins that are sampled at reset. -/
structure Board where
  abortRegions : List AbortRegion
  cwf : List (Word × Word)
  between : List (List (Word × Byte))
  ecc : List (Nat × EccState)
  bus32 : Bool
  pllcfg : Bool
  deriving DecidableEq, Repr, Inhabited

/-- The two kinds of imprecise data abort (60_exceptions R716). -/
inductive AbortKind where
  | external | parity
  deriving DecidableEq, Repr, Inhabited

/-- What one instruction did to the control flow, for the trace buffer (61_debug R781, R782). -/
inductive Flow where
  /-- no control flow change -/
  | seq
  /-- a taken B or BL -/
  | direct (target : Word)
  /-- any other taken branch -/
  | indirect (target : Word)
  /-- an exception with vector bits 4:2; `counted`: the instruction that took it is counted first (R815; log 38) -/
  | exception (vvv : BitVec 3) (counted : Bool)
  /-- a debug exception: never traced (R750) -/
  | debug
  deriving DecidableEq, Repr, Inhabited

/-- The bus lock of SWP and SWPB (20_memory R245, 62_platform R875), by 32-byte block: the next read of the instruction will
assert it, or it is asserted until the instruction's write. -/
inductive BusLock where
  | free | asked (block : Nat) | held (block : Nat)
  deriving DecidableEq, Repr, Inhabited

/-- The MODEL's own scratch: what the current step has done so far. `events` are PMU event numbers (12_state R145); `lock` is
the bus lock of the instruction. -/
structure Scratch where
  events : List (BitVec 8)
  flow : Flow
  dataBreak : Bool
  lock : BusLock
  deriving DecidableEq, Repr, Inhabited

/-- What the outside world does between two steps (log 13). -/
inductive HostEvent where
  /-- let the core take one step -/
  | tick
  /-- the synchronised FIQ# pin becomes asserted or not (60_exceptions R703) -/
  | fiq (on : Bool)
  /-- the synchronised IRQ# pin becomes asserted or not -/
  | irq (on : Bool)
  /-- RESET# pulsed for at least 32 MCLK cycles, with or without TRST# (70_reset R901) -/
  | reset (trst : Bool)
  /-- RESET# goes low, with or without TRST#, and stays low for at least 32 MCLK cycles (61_debug R764, R800) -/
  | resetAssert (trst : Bool)
  /-- RESET# goes high (70_reset R900) -/
  | resetRelease
  /-- RESET# pulsed for less (U53) -/
  | shortReset
  /-- TRST# alone (61_debug R805) -/
  | trst
  /-- Update-IR with this instruction code (61_debug R806) -/
  | jtagIr (code : BitVec 5)
  /-- a scan of the 36-bit debug register (61_debug R760) -/
  | scanDr (din : BitVec 36)
  /-- one LDIC packet, and whether a data word's parity bit is right (61_debug R799) -/
  | ldic (packet : BitVec 33) (parityOk : Bool)
  /-- an imprecise data abort is signalled (60_exceptions R716) -/
  | imprecise (kind : AbortKind)
  /-- a parity upset in the main (or mini) instruction cache, of the bytes marked (21_mmu R327) -/
  | upsetI (mini : Bool) (set way : BitVec 5) (bad : BitVec 32)
  /-- a parity upset in the data (or mini-data) cache (21_mmu R328) -/
  | upsetD (mini : Bool) (set way : BitVec 5) (bad : BitVec 32)
  /-- another bus master writes a byte of memory, between two steps (62_platform R875) -/
  | busWrite (pa : Word) (b : Byte)
  /-- other bus masters write these bytes before the core's coming requests, a list for each of them in turn, so also between
  two requests of one instruction (62_platform R875) -/
  | between (ws : List (List (Word × Byte)))
  /-- the board aborts requests in these physical address ranges from now on (62_platform R874) -/
  | abortRegions (rs : List AbortRegion)
  /-- the board drives CWF = 1 in the read bursts of these physical address ranges from now on (62_platform R872) -/
  | cwf (rs : List (Word × Word))
  /-- the error state of an 8-byte block of memory (62_platform R851) -/
  | eccError (block : BitVec 29) (e : EccState)
  /-- the levels of the pins that the next reset samples: DBusWidth and PLLCFG (62_platform R876, R880) -/
  | pins (bus32 pllcfg : Bool)
  deriving DecidableEq, Repr, Inhabited

/-- The whole state of the machine. `resetPin`: RESET# is asserted; `inReset`: internal reset, which hold_rst may keep
asserted after the pin (61_debug R764); `bus32`: the bus width sampled at reset (62_platform R876). `synced` and `overwritten`,
the MODEL's, are what a fetch may still see of changed code (20_memory R246, U3; log 58): external memory as it stood when the
instruction cache was last invalidated as a whole, and the words that stood, in memory or in a data cache, where a write came
since, by number (address / 4), each with its four bytes. -/
structure State where
  regs : Vector Word 32
  spsrs : Vector Word 6
  cpsr : Word
  pc : Word
  acc0 : BitVec 40
  mem : List Host.Cell
  synced : List Host.Cell
  overwritten : List (Nat × List Byte)
  cp15 : Cp15
  itlb : Tlb
  dtlb : Tlb
  icache : Cache
  lockPhase : LockPhase
  minic : Cache
  fetchBufs : FetchBufs
  dcache : Cache
  minid : Cache
  btb : List BtbEntry
  pmu : Pmu
  power : Power
  dbg : Dbg
  trace : Trace
  icu : Icu
  bcu : Bcu
  jtag : Jtag
  resetPin : Bool
  inReset : Bool
  bus32 : Bool
  pendingAbort : Option AbortKind
  board : Board
  freeCount : Nat
  hostEvents : List HostEvent
  scratch : Scratch
  deriving DecidableEq, Repr

/-- Behaviour the manual calls unpredictable or undefined because of the state or the data an instruction meets, with
no effect among its choices. Each is safe: the model stops where the hardware goes on in some way. -/
inductive Fault where
  /-- BX, BLX or another jump to ARM state with bit 1 of the target set (R463, U13). -/
  | armTargetUnaligned
  /-- a halfword access to an odd address with Control.A = 0 (R225, U13). -/
  | unalignedHalfword
  /-- LDRD or STRD with address bits 1:0 not 0 and Control.A = 0 (R226, U13). -/
  | unalignedDouble
  /-- a use of the SPSR in User or System mode (R32, R399, R400, U13). -/
  | noSpsr
  /-- a mode value that R31 does not list would be written to CPSR or used by a return (R401, U13). -/
  | badMode
  /-- MSR would set CPSR.T (R401, U13). -/
  | msrSetsThumb
  /-- DEBUG mode written outside Special Debug State (D17). -/
  | debugModeWrite
  /-- User mode entered in Special Debug State (R752, U45). -/
  | userModeInSds
  /-- SWI or an undefined instruction in Special Debug State (R721, U45). -/
  | swiOrUndefInSds
  /-- an instruction the handler must not use in DEBUG mode (R790, U45). -/
  | notInDebugMode
  /-- a prefetch abort in Special Debug State: what executes is not stated (R752, U42). -/
  | prefetchAbortInSds
  /-- a data access with the data cache enabled and the MMU disabled (R237, U2). -/
  | dcacheWithoutMmu
  /-- a page with X = 1, C = 0, B = 0 accessed (R235: 'Unpredictable, do not use'). -/
  | reservedAttributes
  /-- mini-data cache attributes MD = 0b11 used (R86). -/
  | reservedMiniAttributes
  /-- AP = 00 with S = 1 and R = 1 (R277). -/
  | reservedPermission
  /-- two valid TLB entries match one MVA (R291, U4). -/
  | tlbDoubleMatch
  /-- a TLB lock or unlock function with the MMU disabled (R295, U6). -/
  | tlbLockMmuOff
  /-- an instruction cache lock function that breaks one of the three requirements of R307 ('unpredictable results', U8), or a
  lock or unlock function with the instruction cache disabled ('undefined effect', R110). -/
  | icacheLockMisused
  /-- Unlock Data Cache with the data cache disabled: 'undefined effect' (R110). -/
  | dcacheLockDisabled
  /-- a line would be locked into the mini-data cache (R324, U10). -/
  | minidLock
  /-- MD changed while the mini-data cache holds valid lines (R87, U21). -/
  | mdChanged
  /-- CPAR bits 12:1 set (R130, U20). -/
  | cparReserved
  /-- an IBCR enabled while DCSR.GE = 0 (R742, U41). -/
  | breakpointWhileDisabled
  /-- TBREG read, or CHKPT0/1 accessed, while the trace buffer is enabled (R155, R156, U58). -/
  | traceBusy
  /-- PWRMODE written with 2 (R148, U23). -/
  | powerModeReserved
  /-- CCLKCFG written with 0 or 10 to 15 (R147, U52). -/
  | clockReserved
  /-- BCUCTL.SC or SR changed while EE = 1, or ECTST.DWE changed while EE = 1 or twice (R170, R174, U57). -/
  | bcuMisprogrammed
  /-- an ECC-protected access on a 32-bit bus with EE = 1 (R851, U50). -/
  | eccOnNarrowBus
  deriving DecidableEq, Repr

/-- A form of an instruction, or an input from outside, for which the manual gives no meaning. Each is safe: the
model stops where the hardware goes on in some way. -/
inductive Refusal where
  /-- an instruction that has no meaning yet (raised by exec's arm). -/
  | notModelled (mnemonic : String)
  /-- R15 in a register field that forbids it (U13 and the rule of the instruction). -/
  | r15Operand
  /-- a register combination with writeback, or of destinations, that the rule calls unpredictable (U13). -/
  | registerClash
  /-- P = 0 with W = 1 in addressing mode 3 (R482). -/
  | indexingReserved
  /-- an empty register list (R352). -/
  | emptyList
  /-- LDM(2) or STM(2) with W = 1 (R509, R511). -/
  | userBankWriteback
  /-- Thumb ADD(4), CMP(3), MOV(3) with two low registers (R625 to R627). -/
  | bothLow
  /-- an accumulator other than acc0, MAR/MRA bits 7:3 not zero, or an opcode_3 that is not listed (U12). -/
  | accumulatorReserved
  /-- LDC or STC with the N bit set, or unindexed with U = 0 (R356, R540, U15). -/
  | ldcFormReserved
  /-- BKPT with a condition other than AL that passes (R348). -/
  | bkptConditional
  /-- a coprocessor register that does not exist (U20, U22, U24), or one that the form may not access. -/
  | noSuchRegister
  /-- TBREG written (R155, U58). -/
  | tbregWrite
  /-- no row of the opcode table hits (never happens, R378). -/
  | undecodable
  /-- RESET# pulsed for less than 32 MCLK cycles (U53). -/
  | resetTooShort
  /-- a JTAG instruction code that R806 calls 'private' or 'not used' (U49). -/
  | jtagPrivate
  /-- an LDIC packet out of place: no LDIC instruction, a reserved function, or a line already valid (U48). -/
  | ldicMisused
  /-- an enabled interrupt pin deasserted before it was taken (R703, U16). -/
  | interruptWithdrawn
  deriving DecidableEq, Repr

/-- 32 zero bytes. -/
def zeroLine : Vector Byte 32 := Vector.replicate 32 0

/-- A TLB after reset (21_mmu R298; entries D13, log 22). -/
def Tlb.reset : Tlb := { entries := [], rr := 31, lock := 0 }

/-- A 32-way cache after reset: every line invalid, every pointer at way 31 (21_mmu R309, R326). -/
def Cache.reset32 : Cache := { lines := [], rr := Vector.replicate 32 31 }

/-- A 2-way cache after reset: every line invalid, every pointer at the last way, 1 (21_mmu R326; 61_debug R795). -/
def Cache.reset2 : Cache := { lines := [], rr := Vector.replicate 32 1 }

/-- An empty fetch buffer. -/
def FetchBuf.empty : FetchBuf := { tag := 0, valid := 0, data := zeroLine }

/-- Both fetch buffers empty (21_mmu R309). -/
def FetchBufs.empty : FetchBufs := { buf0 := .empty, buf1 := .empty, next := false }

/-- CP15 after reset (11_state_cp15; registers without a reset value: log 4). -/
def Cp15.reset : Cp15 :=
  { control := 0x78, auxControl := 0, ttbr := 0, dacr := 0, fsr := 0, far := 0, dcacheLock := false, pid := 0,
    ibcr0 := 0, ibcr1 := 0, dbr0 := 0, dbr1 := 0, dbcon := 0, cpar := 0 }

/-- The scratch at the start of a step. -/
def Scratch.empty : Scratch := { events := [], flow := .seq, dataBreak := false, lock := .free }

/-- The machine right after power-on reset, RESET# and TRST# together (10_state R49, 60_exceptions R686,
70_reset R900, R901). Values the spec does not state are the logs' (notes/assumptions 1 to 8). -/
def State.reset : State :=
  { regs := Vector.replicate 32 0
    spsrs := Vector.replicate 6 0
    cpsr := 0xD3
    pc := 0
    acc0 := 0
    mem := []
    synced := []
    overwritten := []
    cp15 := .reset
    itlb := .reset
    dtlb := .reset
    icache := .reset32
    lockPhase := .fresh
    minic := .reset2
    fetchBufs := .empty
    dcache := .reset32
    minid := .reset2
    btb := []
    pmu := { pmnc := 0, ccnt := 0, pmn0 := 0, pmn1 := 0, prescale := 0 }
    power := { cclkcfg := if Config.pllcfgDefault then 4 else 1, mode := .active }
    dbg := { dcsr := 0, tx := 0, rx := 0, txrxctrl := 0, sds := false, extBreak := false, tbFull := false }
    trace := { bytes := List.replicate 256 0, count := 0, written := 0, sinceChk := none, chkpt0 := 0, chkpt1 := 0 }
    icu := { intctl := 0, intstr := 0, fiqPin := false, irqPin := false }
    bcu := { bcuctl := 0, bcumod := 0, elog0 := 0, elog1 := 0, ecar0 := 0, ecar1 := 0, ectst := 0,
             dweWritten := false }
    jtag := { ir := 0b11110, holdRst := false, valid := false, data := 0, reg1 := false, reg0 := false, ldicFn := none,
              out := 0, pinsFloat := false }
    resetPin := false
    inReset := false
    bus32 := Config.busIs32Default
    pendingAbort := none
    board := { abortRegions := [], cwf := [], between := [], ecc := [], bus32 := Config.busIs32Default,
               pllcfg := Config.pllcfgDefault }
    freeCount := 0
    hostEvents := []
    scratch := .empty }

end Sys2Proof.Machine
end

