-- ==== Sys2Proof/Machine/Flags.lean ====
section
/-!
DEFINITION. The status registers' fields (10_state R39 to R42), the condition test (30_encoding R343), every flag
computation (40_arm R382, 41_arm R421 to R432) and the modes (10_state R31).
-/

namespace Sys2Proof.Machine

/-! ## Bits -/

/-- `w` with bit `i` set to `v`. -/
def setBit {n : Nat} (w : BitVec n) (i : Nat) (v : Bool) : BitVec n :=
  if v then w ||| BitVec.twoPow n i else w &&& ~~~(BitVec.twoPow n i)

/-- `v` where `mask` has ones, `w` elsewhere. -/
def mergeMask {n : Nat} (w mask v : BitVec n) : BitVec n := (w &&& ~~~mask) ||| (v &&& mask)

/-! ## The status registers -/

/-- The PSR bits that exist on this part: N Z C V Q, I F T, M (10_state R39; bits 26:8 read as zero, D4). -/
def psrMask : Word := 0xF80000FF

def flagN (p : Word) : Bool := p.getLsbD 31
def flagZ (p : Word) : Bool := p.getLsbD 30
def flagC (p : Word) : Bool := p.getLsbD 29
def flagV (p : Word) : Bool := p.getLsbD 28
def flagQ (p : Word) : Bool := p.getLsbD 27
/-- CPSR.I: IRQ disabled. -/
def bitI (p : Word) : Bool := p.getLsbD 7
/-- CPSR.F: FIQ disabled. -/
def bitF (p : Word) : Bool := p.getLsbD 6
/-- CPSR.T: Thumb state. -/
def bitT (p : Word) : Bool := p.getLsbD 5
/-- CPSR[4:0]. -/
def modeBits (p : Word) : BitVec 5 := p.extractLsb' 0 5

/-- N, Z, C, V replaced; every other bit kept. -/
def withNZCV (p : Word) (n z c v : Bool) : Word :=
  (BitVec.ofBool n ++ BitVec.ofBool z ++ BitVec.ofBool c ++ BitVec.ofBool v) ++ p.extractLsb' 0 28

/-- N and Z from a result; C, V and the rest kept (multiplies, R421). -/
def withNZ (p : Word) (n z : Bool) : Word := withNZCV p n z (flagC p) (flagV p)

/-- N, Z from a result and C from the shifter; V kept (logical instructions, R382). -/
def withLogic (p : Word) (r : Word) (c : Bool) : Word := withNZCV p (r.getLsbD 31) (r == 0) c (flagV p)

/-- N, Z from a result with its carry and overflow (arithmetic instructions, R382). -/
def withArith (p : Word) (r : Word) (c v : Bool) : Word := withNZCV p (r.getLsbD 31) (r == 0) c v

/-- Q set when `sat`, else kept: no instruction but MSR and a PSR restore clears it (10_state R40). -/
def withQ (p : Word) (sat : Bool) : Word := if sat then setBit p 27 true else p

/-- The mode replaced. -/
def withMode (p : Word) (m : BitVec 5) : Word := p.extractLsb' 5 27 ++ m

/-- T replaced. -/
def withT (p : Word) (t : Bool) : Word := setBit p 5 t

/-! ## Modes (10_state R31) -/

def modeUsr : BitVec 5 := 0b10000
def modeFiq : BitVec 5 := 0b10001
def modeIrq : BitVec 5 := 0b10010
def modeSvc : BitVec 5 := 0b10011
def modeDbg : BitVec 5 := 0b10101
def modeAbt : BitVec 5 := 0b10111
def modeUnd : BitVec 5 := 0b11011
def modeSys : BitVec 5 := 0b11111

/-- Is the value one that R31 lists. -/
def modeLegal (m : BitVec 5) : Bool :=
  m == modeUsr || m == modeFiq || m == modeIrq || m == modeSvc || m == modeDbg || m == modeAbt || m == modeUnd
    || m == modeSys

/-- User is the only mode without privilege (10_state R31). -/
def modePriv (m : BitVec 5) : Bool := !(m == modeUsr)

/-! ## Conditions (30_encoding R343) -/

/-- `ConditionPassed`. -/
def condPassed (c : Cond) (p : Word) : Bool :=
  match c with
  | .eq => flagZ p
  | .ne => !flagZ p
  | .cs => flagC p
  | .cc => !flagC p
  | .mi => flagN p
  | .pl => !flagN p
  | .vs => flagV p
  | .vc => !flagV p
  | .hi => flagC p && !flagZ p
  | .ls => !flagC p || flagZ p
  | .ge => flagN p == flagV p
  | .lt => !(flagN p == flagV p)
  | .gt => !flagZ p && (flagN p == flagV p)
  | .le => flagZ p || !(flagN p == flagV p)
  | .al => true

/-! ## Arithmetic (40_arm R382) -/

/-- The result, carry and overflow of an addition. -/
structure AddResult where
  value : Word
  carry : Bool
  ovf : Bool
  deriving DecidableEq, Repr

/-- `AddWithCarry` of R382: exact sums, then the result, the carry out and the signed overflow. -/
def addWithCarry (x y : Word) (cin : Bool) : AddResult :=
  let usum := x.toNat + y.toNat + cin.toNat
  let ssum := x.toInt + y.toInt + (cin.toNat : Int)
  let r := BitVec.ofNat 32 usum
  { value := r, carry := decide (2 ^ 32 ≤ usum), ovf := !decide (ssum = r.toInt) }

/-- A value clamped to 32 signed bits and whether it was (`SignedSat32`, 41_arm R432). -/
def signedSat (v : Int) : Word × Bool :=
  if 2 ^ 31 - 1 < v then (0x7FFFFFFF, true)
  else if v < -(2 ^ 31) then (0x80000000, true)
  else (BitVec.ofInt 32 v, false)

/-- Does a value fall outside 32 signed bits (41_arm R428, R430). -/
def signedOverflows (v : Int) : Bool := decide (v < -(2 ^ 31)) || decide (2 ^ 31 - 1 < v)

/-- A halfword of a register as a signed value: bottom (false) or top (true) (41_arm section 3). -/
def signedHalf (w : Word) (top : Bool) : Int :=
  if top then (w.extractLsb' 16 16).toInt else (w.extractLsb' 0 16).toInt

/-- Number of leading zeros among the lowest `n` bits of `w` (40_arm R402 with `n` = 32). -/
def leadingZeros (w : Word) : Nat → Nat
  | 0 => 0
  | n + 1 => if w.getLsbD n then 0 else leadingZeros w n + 1

end Sys2Proof.Machine
end

