-- ==== Sys2Proof/Machine/Ops.lean ====
section
/-!
DEFINITION. The named operations the meanings share: registers and their banks, the saved status registers, bytes of
memory, free values, taking an exception and returning from one, debug entry, branches.
-/

namespace Sys2Proof.Machine

/-- What a step or an instruction answers. -/
abbrev Out := Host.Outcome State Fault Refusal

/-! ## Free values and the scratch of the step -/

/-- The next free value (log 12). -/
def State.fresh (s : State) : Word := Config.freeWord s.freeCount

/-- The free value after the next one. -/
def State.fresh2 (s : State) : Word := Config.freeWord (s.freeCount + 1)

/-- Count `n` free values as used. -/
def State.draw (s : State) (n : Nat) : State := { s with freeCount := s.freeCount + n }

/-- A PMU event happens (12_state R145). -/
def State.note (s : State) (ev : BitVec 8) : State :=
  { s with scratch := { s.scratch with events := ev :: s.scratch.events } }

/-! ## Registers (10_state R30 to R36) -/

/-- The place in `regs` of register `r` (0 to 14) in mode `m` (10_state R32). -/
def bankIndex (m : BitVec 5) (r : Reg) : Fin 32 :=
  let n := r.toNat
  if n < 8 then Fin.ofNat 32 n
  else if m = modeFiq then Fin.ofNat 32 (n + 7)
  else if n < 13 then Fin.ofNat 32 n
  else if m = modeIrq then Fin.ofNat 32 (n + 9)
  else if m = modeSvc then Fin.ofNat 32 (n + 11)
  else if m = modeAbt then Fin.ofNat 32 (n + 13)
  else if m = modeUnd then Fin.ofNat 32 (n + 15)
  else if m = modeDbg then Fin.ofNat 32 (n + 17)
  else Fin.ofNat 32 n

/-- The current mode. -/
def State.mode (s : State) : BitVec 5 := modeBits s.cpsr

/-- Is the core in Thumb state. -/
def State.thumb (s : State) : Bool := bitT s.cpsr

/-- Bytes of an instruction in the current state (10_state R34). -/
def State.isize (s : State) : Word := if s.thumb then 2 else 4

/-- What naming R15 as an operand reads: the instruction's address + 8 (ARM) or + 4 (Thumb) (10_state R36). -/
def State.pcOperand (s : State) : Word := s.pc + (if s.thumb then 4 else 8)

/-- Register `r` of mode `m`, `r` not 15. -/
def State.bankReg (s : State) (m : BitVec 5) (r : Reg) : Word := s.regs[bankIndex m r]

/-- `R[r]` read as an operand (00_scope R13, 10_state R36). -/
def State.reg (s : State) (r : Reg) : Word := if r = 15 then s.pcOperand else s.bankReg s.mode r

/-- Write register `r` of mode `m`, `r` not 15. -/
def State.setBankReg (s : State) (m : BitVec 5) (r : Reg) (v : Word) : State :=
  { s with regs := s.regs.set (bankIndex m r) v }

/-- `R[r] <- v` for `r` not 15 (writes to R15 are branches and do not come here). -/
def State.setReg (s : State) (r : Reg) (v : Word) : State := if r = 15 then s else s.setBankReg s.mode r v

/-- A Thumb register number as a full one. -/
def lowReg (r : LowReg) : Reg := r.setWidth 4

/-- A privileged mode (10_state R31). -/
def State.priv (s : State) : Bool := modePriv s.mode

/-- Move past the instruction. -/
def State.advance (s : State) (n : Word) : State := { s with pc := s.pc + n }

/-- The status register replaced, reserved bits reading as zero (D4). -/
def State.setCpsr (s : State) (p : Word) : State := { s with cpsr := p &&& psrMask }

/-! ## Saved status registers (10_state R32, R42) -/

/-- The place in `spsrs` of a mode's SPSR; User and System have none. -/
def spsrIndex (m : BitVec 5) : Option (Fin 6) :=
  if m = modeFiq then some 0 else if m = modeIrq then some 1 else if m = modeSvc then some 2
  else if m = modeAbt then some 3 else if m = modeUnd then some 4 else if m = modeDbg then some 5 else none

/-- `SPSR` of the current mode. -/
def State.spsr (s : State) : Option Word := (spsrIndex s.mode).map fun i => s.spsrs[i]

/-- `SPSR_<i> <- p`, reserved bits reading as zero (D4). -/
def State.setSpsr (s : State) (i : Fin 6) (p : Word) : State := { s with spsrs := s.spsrs.set i (p &&& psrMask) }

/-! ## Memory bytes (20_memory R221, R229) -/

/-- What an address that nothing has written reads as: 0 (DESIGN CHOICE, log 8). -/
def unlistedByte : Byte := 0

/-- The byte at an address. -/
def memGet : List Host.Cell → Nat → Byte
  | [], _ => unlistedByte
  | (k, b) :: t, a => if k = a then b else memGet t a

/-- Write a byte, keeping the canonical form. -/
def memSet : List Host.Cell → Nat → Byte → List Host.Cell
  | [], a, v => if v = unlistedByte then [] else [(a, v)]
  | (k, b) :: t, a, v =>
    if a < k then (if v = unlistedByte then (k, b) :: t else (a, v) :: (k, b) :: t)
    else if a = k then (if v = unlistedByte then t else (a, v) :: t)
    else (k, b) :: memSet t a v

/-- Every key of the list is above `lo`, below 2^32 and rising, and no entry is what an unlisted byte reads as. -/
def memWfFrom : Nat → List Host.Cell → Bool
  | _, [] => true
  | lo, (k, b) :: t => decide (lo ≤ k) && decide (k < 2 ^ 32) && !(b == unlistedByte) && memWfFrom (k + 1) t

/-- The canonical form of memory. -/
def memWf (m : List Host.Cell) : Bool := memWfFrom 0 m

/-- The byte of memory at a physical address. -/
def State.byteAt (s : State) (pa : Word) : Byte := memGet s.mem pa.toNat

/-- Write the byte of memory at a physical address. -/
def State.setByteAt (s : State) (pa : Word) (b : Byte) : State := { s with mem := memSet s.mem pa.toNat b }

/-- `n` bytes of memory from a physical address up (addresses modulo 2^32, D2). -/
def State.bytesAt (s : State) (pa : Word) : Nat → List Byte
  | 0 => []
  | n + 1 => s.byteAt pa :: State.bytesAt s (pa + 1) n

/-- Write bytes of memory from a physical address up. -/
def State.setBytesAt (s : State) (pa : Word) : List Byte → State
  | [] => s
  | b :: bs => State.setBytesAt (s.setByteAt pa b) (pa + 1) bs

/-! ## Byte order (20_memory R221) -/

/-- The value of bytes, the first the least significant. -/
def leValue : List Byte → Nat
  | [] => 0
  | b :: bs => b.toNat + 256 * leValue bs

/-- The `n` bytes of a value, the least significant first. -/
def leBytes : Nat → Nat → List Byte
  | 0, _ => []
  | n + 1, v => BitVec.ofNat 8 v :: leBytes n (v / 256)

/-- Bytes in ascending address order as a value, in the byte order Control.B selects (R221). -/
def assemble (big : Bool) (bs : List Byte) : Nat := if big then leValue bs.reverse else leValue bs

/-- The bytes, in ascending address order, of an `n`-byte value (R221). -/
def disassemble (big : Bool) (n v : Nat) : List Byte := if big then (leBytes n v).reverse else leBytes n v

/-- Control.M (11_state R84). -/
def State.mmuOn (s : State) : Bool := s.cp15.control.getLsbD 0

/-- Control.B (11_state R84). -/
def State.bigEndian (s : State) : Bool := s.cp15.control.getLsbD 7

/-! ## Branches -/

/-- `pc <- t`, a taken branch of kind `f`; PMU event 0xD, software changed the PC (12_state R145). -/
def State.jump (s : State) (t : Word) (f : Flow) : State :=
  { s with pc := t, scratch := { s.scratch with flow := f, events := 0x0D :: s.scratch.events } }

/-- An indirect branch without a state change, to an ARM or Thumb address as T says (40_arm R399). An instruction that writes
the PC so counts as PMU event 0xD and not as event 0x5, 'branch instruction executed' (DESIGN CHOICE, log 37). -/
def State.jumpKeepState (s : State) (v : Word) : State :=
  let t := if s.thumb then v &&& 0xFFFFFFFE else v &&& 0xFFFFFFFC
  s.jump t (.indirect t)

/-- BX and BLX(2): T from bit 0 of the target; an ARM target with bit 1 set is unpredictable (42_arm R463). -/
def branchExchange (v : Word) (s : State) : Out :=
  if !v.getLsbD 0 && v.getLsbD 1 then .fault .armTargetUnaligned
  else .next (({ s with cpsr := withT s.cpsr (v.getLsbD 0) } : State).jump (v &&& 0xFFFFFFFE)
    (.indirect (v &&& 0xFFFFFFFE)))

/-! ## Exceptions (60_exceptions R682 to R690) -/

/-- The exceptions other than reset and the debug exceptions (60_exceptions R680). -/
inductive Exc where
  | undef | swi | prefetch | data | irq | fiq
  deriving DecidableEq, Repr

/-- The mode entered (R683). -/
def Exc.mode : Exc → BitVec 5
  | .undef => modeUnd | .swi => modeSvc | .prefetch => modeAbt | .data => modeAbt | .irq => modeIrq | .fiq => modeFiq

/-- The place of that mode's SPSR. -/
def Exc.spsr : Exc → Fin 6
  | .undef => 4 | .swi => 2 | .prefetch => 3 | .data => 3 | .irq => 1 | .fiq => 0

/-- The vector offset (R683). -/
def Exc.offset : Exc → Word
  | .undef => 0x04 | .swi => 0x08 | .prefetch => 0x0C | .data => 0x10 | .irq => 0x18 | .fiq => 0x1C

/-- Only reset and FIQ set CPSR.F (R682). -/
def Exc.setsF : Exc → Bool
  | .fiq => true | .undef => false | .swi => false | .prefetch => false | .data => false | .irq => false

/-- `VectorBase` (R684): Control.V. -/
def State.vectorBase (s : State) : Word := if s.cp15.control.getLsbD 13 then 0xFFFF0000 else 0

/-- The CPSR an exception entry leaves: mode, T = 0, I = 1, F = 1 if `f` (R682). -/
def entryCpsr (p : Word) (m : BitVec 5) (f : Bool) : Word :=
  let q := setBit (setBit (withMode p m) 5 false) 7 true
  if f then setBit q 6 true else q

/-- THE COMMON ENTRY SEQUENCE (R682): the new mode's R14 takes the link value, its SPSR the CPSR; the CPSR takes the
mode, T = 0, I = 1 (F = 1 for FIQ); the pc goes to the vector. `counted`: see `Flow.exception`. Of all entries only that of
a SWI may count as PMU event 0xD (`raiseSwi`; DEDUCED, log 37). -/
def takeException (e : Exc) (link : Word) (counted : Bool) (s : State) : State :=
  { s with
    regs := s.regs.set (bankIndex e.mode 14) link
    spsrs := s.spsrs.set e.spsr s.cpsr
    cpsr := entryCpsr s.cpsr e.mode e.setsF
    pc := s.vectorBase + e.offset
    scratch := { s.scratch with flow := .exception (e.offset.extractLsb' 2 3) counted, dataBreak := false } }

/-- The undefined-instruction exception (R694): link = the following instruction. Unpredictable in Special Debug
State (R721). -/
def raiseUndef (s : State) : Out :=
  if s.dbg.sds then .fault .swiOrUndefInSds
  else .next (takeException .undef (s.pc + s.isize) false s)

/-- The software-interrupt exception (R695): link = the following instruction. In Supervisor mode it changes the pc without
a mode change, PMU event 0xD (12_state R145; log 37). -/
def raiseSwi (s : State) : Out :=
  if s.dbg.sds then .fault .swiOrUndefInSds
  else .next (takeException .swi (s.pc + s.isize) false (if s.mode == modeSvc then s.note 0x0D else s))

/-! ## Fault status (60_exceptions R711, R714) -/

/-- The faults of Tables 2-13 and 2-14. -/
inductive FaultCode where
  | alignment | extL1 | extL2 | xlatSection | xlatPage | domSection | domPage | permSection | permPage | lock
  | external | parity | instrMmu
  deriving DecidableEq, Repr

/-- `FS[10,3:0]`. The alignment fault's x bit is written 0, the spec's choice (U17, log 27). -/
def FaultCode.bits : FaultCode → BitVec 5
  | .alignment => 0b00001 | .extL1 => 0b01100 | .extL2 => 0b01110 | .xlatSection => 0b00101 | .xlatPage => 0b00111
  | .domSection => 0b01001 | .domPage => 0b01011 | .permSection => 0b01101 | .permPage => 0b01111 | .lock => 0b10100
  | .external => 0b10110 | .parity => 0b11000 | .instrMmu => 0b10000

/-- Is the domain field valid for the fault (R714). -/
def FaultCode.domainValid : FaultCode → Bool
  | .alignment => false | .extL1 => false | .extL2 => true | .xlatSection => false | .xlatPage => true
  | .domSection => true | .domPage => true | .permSection => true | .permPage => true | .lock => false
  | .external => false | .parity => false | .instrMmu => false

/-- Is the FAR valid for the fault (R714). -/
def FaultCode.farValid : FaultCode → Bool
  | .alignment => true | .extL1 => true | .extL2 => true | .xlatSection => true | .xlatPage => true
  | .domSection => true | .domPage => true | .permSection => true | .permPage => true | .lock => false
  | .external => false | .parity => false | .instrMmu => false

/-- A fault on a data access: what, at which MVA, in which domain; `ecc`: a multi-bit ECC error on a descriptor read is
the cause, so that it is a data abort for a fetch's walk too (62_platform R856). -/
structure DataFault where
  code : FaultCode
  mva : Word
  domain : BitVec 4
  ecc : Bool := false
  deriving DecidableEq, Repr

/-- Is this fault of a fetch a precise data abort: after a multi-bit ECC error on its table walk always (21_mmu R273, 62_platform
R856). After a bus abort of the walk R854 says so too, of every table walk, where R273 sends fetches to 60_exceptions R711, whose
codes are prefetch aborts: one of the two, by a free constant (DESIGN CHOICE, log 27). -/
def DataFault.fetchIsData (f : DataFault) : Bool :=
  f.ecc || ((f.code == .extL1 || f.code == .extL2) && Config.fetchWalkAbortIsData)

/-- The FSR from its fields: X, D, domain, status (11_state R91; bit 8 reads as zero). -/
def fsrWord (x d : Bool) (domain status : BitVec 4) : Word :=
  0#21 ++ BitVec.ofBool x ++ BitVec.ofBool d ++ 0#1 ++ domain ++ status

/-- Write FSR and FAR for a fault; a field the tables call invalid takes a free value (D20, log 27). -/
def State.recordFault (f : DataFault) (s : State) : State :=
  let dom := if f.code.domainValid then f.domain else s.fresh.extractLsb' 0 4
  let far := if f.code.farValid then f.mva else s.fresh2
  ({ s with cp15 := { s.cp15 with fsr := fsrWord (f.code.bits.getLsbD 4) false dom (f.code.bits.extractLsb' 0 4),
                                  far := far } } : State).draw 2

/-- A precise data abort (R712): FSR and FAR, then the entry with link = A + 8. -/
def takeDataAbort (f : DataFault) (counted : Bool) (s : State) : State :=
  takeException .data (s.pc + 8) counted (s.recordFault f)

/-- An imprecise data abort (R715): taken with `s.pc` the next instruction, link = next + 4. -/
def takeImprecise (k : AbortKind) (s : State) : State :=
  let code := match k with | .external => FaultCode.external | .parity => FaultCode.parity
  takeException .data (s.pc + 4) false
    (({ s with pendingAbort := none } : State).recordFault { code := code, mva := 0, domain := 0 })

/-- A prefetch abort (R710): link = A + 4. -/
def takePrefetchAbort (code : FaultCode) (s : State) : State :=
  takeException .prefetch (s.pc + 4) false (s.recordFault { code := code, mva := 0, domain := 0 })

/-! ## The debug unit's state -/

/-- DCSR.GE, debug enabled (12_state R150). -/
def State.ge (s : State) : Bool := s.dbg.dcsr.getLsbD 31
/-- DCSR.H, Halt mode. -/
def State.haltMode (s : State) : Bool := s.dbg.dcsr.getLsbD 30

/-- DCSR with SA set. -/
def State.setSticky (s : State) : State := { s with dbg := { s.dbg with dcsr := setBit s.dbg.dcsr 5 true } }

/-- What every debug exception does (61_debug R750): E <- 0, MOE, pending breaks cleared; no trace message. -/
def State.debugCommon (s : State) (moe : BitVec 3) : State :=
  { s with
    dbg := { s.dbg with
             dcsr := mergeMask s.dbg.dcsr 0x0000001D (moe.setWidth 32 <<< 2)
             extBreak := false
             tbFull := false }
    scratch := { s.scratch with flow := .debug, dataBreak := false } }

/-- `DebugEntryHalt` (61_debug R751). R13_dbg takes a free value (R32, R790; log 39). -/
def debugEntryHalt (moe : BitVec 3) (link : Word) (s : State) : State :=
  let s1 := s.debugCommon moe
  ({ s1 with
     regs := (s1.regs.set (bankIndex modeDbg 13) s1.fresh).set (bankIndex modeDbg 14) link
     spsrs := s1.spsrs.set 5 s1.cpsr
     cpsr := entryCpsr s1.cpsr modeDbg true
     pc := s1.vectorBase
     dbg := { s1.dbg with sds := true } } : State).draw 1

/-- `DebugEntryMonitor` (61_debug R753): the prefetch or data abort vector with FSR[9] set, the FSR's other fields
free (R91); FAR not written. After a data breakpoint too, as R753 and R758 say (43_arm R520's summary says otherwise; log 54). -/
def debugEntryMonitor (moe : BitVec 3) (e : Exc) (link : Word) (s : State) : State :=
  let s1 := s.debugCommon moe
  let fsr := fsrWord (s1.fresh.getLsbD 10) true (s1.fresh.extractLsb' 4 4) (s1.fresh.extractLsb' 0 4)
  let s2 := takeException e link false ({ s1 with cp15 := { s1.cp15 with fsr := fsr } } : State)
  ({ s2 with scratch := { s2.scratch with flow := .debug } } : State).draw 1

/-- A debug exception, in the mode DCSR.H selects (61_debug R741). -/
def debugException (moe : BitVec 3) (e : Exc) (link : Word) (s : State) : State :=
  if s.haltMode then debugEntryHalt moe link s else debugEntryMonitor moe e link s

/-! ## Mode changes and returns -/

/-- May the core switch to mode `m` by MSR (40_arm R401, D17, 61_debug R752). -/
def checkMode (m : BitVec 5) (s : State) : Option Fault :=
  if !modeLegal m then some .badMode
  else if m == modeDbg && !s.dbg.sds then some .debugModeWrite
  else if m == modeUsr && s.dbg.sds then some .userModeInSds
  else none

/-- The PSR an exception return restores, or why it may not (40_arm R399, 43_arm R510, 10_state R31). -/
def returnPsr (s : State) : Except Fault Word :=
  match s.spsr with
  | none => .error .noSpsr
  | some p =>
    if !modeLegal (modeBits p) then .error .badMode
    else if modeBits p == modeDbg then .error .debugModeWrite
    else .ok p

/-- THE RETURN FROM AN EXCEPTION: CPSR <- SPSR, Special Debug State ends (61_debug R752), and the pc takes the value
aligned for the restored state (40_arm R399). PMU event 0xD needs that the mode does not change (12_state R145). It is no event 0x5
either (DESIGN CHOICE, log 37). -/
def exceptionReturn (v : Word) (s : State) : Out :=
  match returnPsr s with
  | .error e => .fault e
  | .ok p =>
    let s1 : State := { s with cpsr := p &&& psrMask, dbg := { s.dbg with sds := false } }
    let t := if bitT p then v &&& 0xFFFFFFFE else v &&& 0xFFFFFFFC
    let ev := if modeBits p == s.mode then 0x0D :: s.scratch.events else s.scratch.events
    .next { s1 with pc := t, scratch := { s1.scratch with flow := .indirect t, events := ev } }

/-! ## Results that may abort -/

/-- The result of an operation that may raise a precise data abort or stop. -/
inductive Acc (α : Type) where
  | ok (v : α) (s : State)
  | abort (f : DataFault) (s : State)
  | fault (e : Fault)
  | refused (e : Refusal)

/-- Sequencing. -/
def Acc.bind {α β : Type} (x : Acc α) (k : α → State → Acc β) : Acc β :=
  match x with
  | .ok v s => k v s
  | .abort f s => .abort f s
  | .fault e => .fault e
  | .refused e => .refused e

/-- The same result, an abort reported at the MVA `m`. -/
def Acc.faultAt {α : Type} (m : Word) (x : Acc α) : Acc α :=
  match x with
  | .ok v s => .ok v s
  | .abort f s => .abort { f with mva := m } s
  | .fault e => .fault e
  | .refused e => .refused e

/-- End an instruction that accesses memory. On a precise abort the exception is taken from the state the access
left (nothing of the instruction is written), but in Special Debug State only FSR, FAR and DCSR.SA are, the base is
written back (61_debug R752, R815) and the next instruction follows. `wb` is that write-back. `counted`: is the aborting
instruction counted before the trace buffer's exception message; R815 says so of a load not to the PC, and no of one to the PC.
Of every other aborting access, stores, STM, STRD, swaps and coprocessor transfers, the model says yes (DESIGN CHOICE, log 38). -/
def Acc.finish {α : Type} (x : Acc α) (counted : Bool) (wb : State → State) (k : α → State → Out) : Out :=
  match x with
  | .ok v s => k v s
  | .abort f s =>
    if s.dbg.sds then .next ((wb (s.recordFault f).setSticky).advance s.isize)
    else .next (takeDataAbort f counted s)
  | .fault e => .fault e
  | .refused e => .refused e

/-- Run an ARM instruction under its condition (30_encoding R343): when it fails, only the pc advances. -/
def armCond (c : Cond) (s : State) (k : Out) : Out :=
  if condPassed c s.cpsr then k else .next (s.advance 4)

end Sys2Proof.Machine
end

