-- ==== Sys2Proof/Machine/Lines.lean ====
section
/-!
DEFINITION. Cache lines and caches as such (21_mmu R301 to R326): lookup, replacement, locking, invalidation, the bytes of a
line; and the model's record of code that was changed (20_memory R246).
-/

namespace Sys2Proof.Machine

/-! ## Lines (21_mmu R301, R311) -/

/-- Set index: MVA[9:5]. -/
def setOf (mva : Word) : BitVec 5 := mva.extractLsb' 5 5
/-- Tag: MVA[31:10]. -/
def tagOf (mva : Word) : BitVec 22 := mva.extractLsb' 10 22
/-- The byte within a line: MVA[4:0]. -/
def offsetOf (mva : Word) : Nat := mva.toNat % 32

/-- Does a line hold an MVA. -/
def CacheLine.hits (l : CacheLine) (mva : Word) : Bool := l.valid && l.set == setOf mva && l.tag == tagOf mva

/-- The line that holds an MVA. -/
def Cache.find (c : Cache) (mva : Word) : Option CacheLine := c.lines.find? fun l => l.hits mva

/-- The line at a set and way, if it was ever written. -/
def Cache.lineAt (c : Cache) (set way : BitVec 5) : Option CacheLine :=
  c.lines.find? fun l => l.set == set && l.way == way

/-- Replace the line at its set and way. -/
def Cache.put (c : Cache) (l : CacheLine) : Cache :=
  { c with lines := l :: c.lines.filter fun k => !(k.set == l.set && k.way == l.way) }

/-- Set a set's round-robin pointer. -/
def Cache.setRr (c : Cache) (set : BitVec 5) (p : BitVec 5) : Cache := { c with rr := c.rr.set set.toFin p }

/-- The number of locked ways of a set. -/
def Cache.lockedWays (c : Cache) (set : BitVec 5) : Nat := c.lines.countP fun l => l.locked && l.set == set

/-- Where the next line of a set goes, whether it is locked, and the set's next pointer (R304, R319, R324). `last` is
the last way: 31, or 1 in the two mini caches. -/
structure Victim where
  way : BitVec 5
  locked : Bool
  next : BitVec 5
  deriving DecidableEq, Repr

/-- Round-robin replacement (R304, R319). -/
def Cache.victimRr (c : Cache) (set last : BitVec 5) : Victim :=
  let w := c.rr[set.toFin]
  { way := w, locked := false, next := if w = last then BitVec.ofNat 5 (c.lockedWays set) else w + 1 }

/-- The placement of a line to be locked (R307, R324): way n of the set, at most 28. -/
def Cache.victimLock (c : Cache) (set : BitVec 5) : Victim :=
  let n := c.lockedWays set
  if n < 28 then { way := BitVec.ofNat 5 n, locked := true, next := 31 } else { way := 31, locked := false, next := 31 }

/-- Invalidate every unlocked line (R305, R320). -/
def Cache.invalidateUnlocked (c : Cache) : Cache :=
  { c with lines := c.lines.map fun l => if l.locked then l else { l with valid := false } }

/-- Invalidate the line that holds an MVA; a locked line stays locked (R306, R321). -/
def Cache.invalidateLine (c : Cache) (mva : Word) : Cache :=
  { c with lines := c.lines.map fun l => if l.hits mva then { l with valid := false } else l }

/-- Unlock every line; valid lines stay valid (R308, R325). -/
def Cache.unlock (c : Cache) : Cache := { c with lines := c.lines.map fun l => { l with locked := false } }

/-- 32 bytes as a line's data. -/
def lineOfBytes (bs : List Byte) : Vector Byte 32 := ⟨⟨(List.range 32).map fun i => bs.getD i 0⟩, by simp⟩

/-- `n` bytes of a line from an offset up. -/
def lineBytes (d : Vector Byte 32) (off n : Nat) : List Byte := (List.range n).map fun i => d.getD (off + i) 0

/-- Bytes stored into a line at an offset. -/
def lineStore (d : Vector Byte 32) (off : Nat) (bs : List Byte) : Vector Byte 32 :=
  ⟨⟨(List.range 32).map fun i => if off ≤ i ∧ i < off + bs.length then bs.getD (i - off) 0 else d.getD i 0⟩, by simp⟩

/-- The mask of `n` bytes at an offset of a line. -/
def byteMask (off n : Nat) : BitVec 32 := BitVec.ofNat 32 ((2 ^ n - 1) * 2 ^ off)

/-! ## Code that was changed (20_memory R246, U3; log 58) -/

/-- Does a line of a data cache hold a byte at this physical address that external memory has not. -/
def CacheLine.dirtyAt (l : CacheLine) (pa : Word) : Bool :=
  l.valid && l.pa == (pa &&& 0xFFFFFFE0) && (if pa.getLsbD 4 then l.dirtyHi else l.dirtyLo)

/-- The `n` bytes of one word that stand at a physical address: those of external memory, and those of each data cache line
that are not written back. -/
def State.standingBytes (s : State) (pa : Word) (n : Nat) : List (List Byte) :=
  s.bytesAt pa n
    :: ((s.dcache.lines ++ s.minid.lines).filter fun l => l.dirtyAt pa).map fun l => lineBytes l.data (offsetOf pa) n

/-- The numbers of the words that `n` bytes from `pa` touch. -/
def wordsOf (pa : Word) (n : Nat) : List Nat :=
  (List.range ((pa.toNat % 4 + n + 3) / 4)).map fun i => (pa.toNat / 4 + i) % 2 ^ 30

/-- Remember the words that stand where a write of `n` bytes at `pa` is about to change one: a store, a write back, another
master's write. -/
def State.noteOverwritten (s : State) (pa : Word) (n : Nat) : State :=
  { s with overwritten := ((wordsOf pa n).flatMap fun k =>
      (s.standingBytes (BitVec.ofNat 32 (4 * k)) 4).map fun bs => (k, bs)) ∪ s.overwritten }

end Sys2Proof.Machine
end

