-- ==== Sys2Proof/Machine/Bus.lean ====
section
/-!
DEFINITION. The bus controller (62_platform R850 to R862, R874, R875): every request the core makes of external memory, what
other masters write between them, bus aborts, ECC, and the error log. A request completes within its step (D10, log 19).
-/

namespace Sys2Proof.Machine

/-! ## ECC error states (62_platform R851) -/

/-- The error state of a block; a block that is not listed is good. -/
def eccGet : List (Nat × EccState) → Nat → EccState
  | [], _ => .good
  | (k, e) :: t, a => if k = a then e else eccGet t a

/-- Replace the error state of a block, keeping the list sorted and without `good`. -/
def eccSet : List (Nat × EccState) → Nat → EccState → List (Nat × EccState)
  | [], a, v => if v = .good then [] else [(a, v)]
  | (k, e) :: t, a, v =>
    if a < k then (if v = .good then (k, e) :: t else (a, v) :: (k, e) :: t)
    else if a = k then (if v = .good then t else (a, v) :: t)
    else (k, e) :: eccSet t a v

/-- The 8-byte block of an address. -/
def blockOf (pa : Word) : Nat := pa.toNat / 8

/-- The blocks that `n` bytes from `pa` touch, in order. -/
def blocksOf (pa : Word) (n : Nat) : List Nat :=
  (List.range ((pa.toNat % 8 + n + 7) / 8)).map fun i => (blockOf pa + i) % 2 ^ 29

/-- The error state of a block. -/
def State.eccAt (s : State) (b : Nat) : EccState := eccGet s.board.ecc b

/-- Set the error state of a block. -/
def State.setEcc (s : State) (b : Nat) (e : EccState) : State :=
  { s with board := { s.board with ecc := eccSet s.board.ecc b e } }

/-- Flip data bit `i` of a block in memory (bit 7:0 of the block are the byte at its lowest address, R871). -/
def State.flipBit (s : State) (b : Nat) (i : BitVec 6) : State :=
  let pa := BitVec.ofNat 32 (b * 8 + i.toNat / 8)
  s.setByteAt pa (s.byteAt pa ^^^ BitVec.twoPow 8 (i.toNat % 8))

/-- What a write leaves a block's check bits as: ECTST.mask inverts check bits, and the syndrome is the mask
(62_platform R851, R860). -/
def State.maskState (s : State) : EccState :=
  let m := s.bcu.ectst.extractLsb' 0 8
  if m = 0 then .good else if m &&& (m - 1) = 0 then .checkBit m else .multi m

/-- A write without ECC drives zeros on the check bits, the code of 64 bits of zero: a block whose data are then all zero
is good (62_platform R851, R853). Any other block keeps its error state (log 31). -/
def State.clearZeroBlocks : List Nat → State → State
  | [], s => s
  | b :: bs, s =>
    State.clearZeroBlocks bs
      (if (s.bytesAt (BitVec.ofNat 32 (b * 8)) 8).all (· == 0) then s.setEcc b .good else s)

/-! ## Other bus masters (62_platform R875, 20_memory R245) -/

/-- Another master writes a byte of memory. No cache of the core sees it (20_memory R246, R247). -/
def State.otherWrite (s : State) (pa : Word) (b : Byte) : State := (s.noteOverwritten pa 1).setByteAt pa b

/-- Does the lock of SWP's read protect an address: the naturally aligned 32-byte block of the read. -/
def BusLock.protects (l : BusLock) (pa : Word) : Bool :=
  match l with
  | .held block => pa.toNat / 32 == block
  | .free => false
  | .asked _ => false

/-- Writes that the lock keeps off wait for the request after the next one. -/
def postpone (held : List (Word × Byte)) (rest : List (List (Word × Byte))) : List (List (Word × Byte)) :=
  if held.isEmpty then rest else (held ++ rest.headD []) :: rest.tail

/-- What other masters write before the core's next request: between any two requests they may write any byte, but for the block
of a locked read, which the board is taken to protect as it should (DESIGN CHOICE, log 19). -/
def State.othersWrite (s : State) : State :=
  match s.board.between with
  | [] => s
  | ws :: rest =>
    let locked := ws.filter fun w => s.scratch.lock.protects w.1
    (ws.filter fun w => !s.scratch.lock.protects w.1).foldl (fun t w => t.otherWrite w.1 w.2)
      { s with board := { s.board with between := postpone locked rest } }

/-- A read request asserts Lock, if it is SWP's. -/
def State.assertLock (s : State) : State :=
  match s.scratch.lock with
  | .asked block => { s with scratch := { s.scratch with lock := .held block } }
  | .free => s
  | .held _ => s

/-- May other masters write a byte before some of the coming requests. -/
def State.othersMayWrite (s : State) (pa : Word) : Bool := s.board.between.any fun ws => ws.any fun w => w.1 == pa

/-! ## The error log (62_platform R855, 12_state R172 to R175) -/

/-- `LogError`: into ELOG0/ECAR0 if free, else ELOG1/ECAR1, else EV; event 0x14 for an ECC error without a log. -/
def State.logError (s : State) (write : Bool) (et : BitVec 2) (syn : BitVec 8) (pa : Word) : State :=
  let e := BitVec.ofBool write ++ et ++ 0#21 ++ syn
  if !s.bcu.bcuctl.getLsbD 28 then
    { s with bcu := { s.bcu with elog0 := e, ecar0 := pa, bcuctl := setBit s.bcu.bcuctl 28 true } }
  else if !s.bcu.bcuctl.getLsbD 29 then
    { s with bcu := { s.bcu with elog1 := e, ecar1 := pa, bcuctl := setBit s.bcu.bcuctl 29 true } }
  else
    let s1 : State := { s with bcu := { s.bcu with bcuctl := setBit s.bcu.bcuctl 30 true } }
    if et = 0b10 then s1 else s1.note 0x14

/-- Log an ECC error: ECAR bits 2:0 are zero (12_state R173). -/
def State.logEcc (s : State) (multi : Bool) (syn : BitVec 8) (req : Word) : State :=
  s.logError false (if multi then 0b01 else 0b00) syn (req &&& 0xFFFFFFF8)

/-- Log a bus abort: all address bits; the syndrome field is undefined, a free value (12_state R172). -/
def State.logAbort (s : State) (write : Bool) (req : Word) : State :=
  (s.logError write 0b10 (s.fresh.extractLsb' 0 8) req).draw 1

/-- An imprecise data abort becomes pending (60_exceptions R716); of two, the one of higher priority stays: an external
abort ranks above a parity error (R714, R717). -/
def State.pend (s : State) (k : AbortKind) : State :=
  { s with pendingAbort := some (if s.pendingAbort = some .external then .external else k) }

/-! ## Requests -/

/-- Does a region hold one of these `n` bytes. -/
def AbortRegion.meets (r : AbortRegion) (pa : Word) (n : Nat) : Bool :=
  decide (pa.toNat ≤ r.last.toNat) && decide (r.first.toNat < pa.toNat + n)

/-- Does the board abort a read (or a write) of these `n` bytes (62_platform R874). -/
def State.busAborts (s : State) (write : Bool) (pa : Word) (n : Nat) : Bool :=
  s.board.abortRegions.any fun r => (if write then r.writes else r.reads) && r.meets pa n

/-- How many of `n` bytes from `pa` up are read (or written) before the board aborts: those of the data cycles, a bus width
each, before the first one it aborts (62_platform R874). `fuel` bounds the data cycles still to come. -/
def State.takenBytes (s : State) (write : Bool) (pa : Word) (n : Nat) : Nat → Nat → Nat
  | 0, k => min k n
  | fuel + 1, k =>
    let w := if s.bus32 then 4 else 8
    if n ≤ k then n
    else if s.busAborts write (pa + BitVec.ofNat 32 k) (min w (n - k)) then k
    else State.takenBytes s write pa n fuel (k + w)

/-- Is ECC generated and checked for an access whose region has P = `p` (62_platform R851): for none while the MMU is
disabled (20_memory R232). -/
def State.eccOn (s : State) (p : Bool) : Bool := p && s.bcu.bcuctl.getLsbD 3 && s.mmuOn

/-- What a read request answers: its bytes, a bus abort, or a multi-bit ECC error. -/
inductive BusReply where
  | data (bs : List Byte) | aborted | multiBit
  deriving DecidableEq, Repr

/-- The bytes, if there are any. -/
def BusReply.bytes : BusReply → Option (List Byte)
  | .data bs => some bs
  | .aborted => none
  | .multiBit => none

/-- Check the blocks of a read: single-bit errors are logged and counted, a multi-bit error is logged and ends the
check (62_platform R856). True when no multi-bit error was met. -/
def eccCheck (req : Word) : List Nat → State → Bool × State
  | [], s => (true, s)
  | b :: bs, s =>
    match s.eccAt b with
    | .good => eccCheck req bs s
    | .dataBit _ y => eccCheck req bs ((s.logEcc false y req).note 0x15)
    | .checkBit y => eccCheck req bs ((s.logEcc false y req).note 0x15)
    | .multi y => (false, s.logEcc true y req)

/-- The byte a checked read delivers: corrected when BCUCTL.SC = 1 (62_platform R856, R859). -/
def State.eccByte (s : State) (pa : Word) : Byte :=
  match s.eccAt (blockOf pa) with
  | .dataBit i _ =>
    if s.bcu.bcuctl.getLsbD 2 && decide (i.toNat / 8 = pa.toNat % 8)
    then s.byteAt pa ^^^ BitVec.twoPow 8 (i.toNat % 8) else s.byteAt pa
  | .good => s.byteAt pa
  | .checkBit _ => s.byteAt pa
  | .multi _ => s.byteAt pa

/-- `n` bytes as a checked read delivers them. -/
def State.eccBytes (s : State) (pa : Word) : Nat → List Byte
  | 0 => []
  | n + 1 => s.eccByte pa :: State.eccBytes s (pa + 1) n

/-- `n` bytes as a read delivers them, checked or not. -/
def State.readBytes (s : State) (pa : Word) (n : Nat) (p : Bool) : List Byte :=
  if s.eccOn p then s.eccBytes pa n else s.bytesAt pa n

/-- Does the board drive CWF = 1 in a read burst of the line at this address (62_platform R872; log 50). -/
def State.cwfAt (s : State) (pa : Word) : Bool :=
  s.board.cwf.any fun r => decide (r.1.toNat ≤ pa.toNat) && decide (pa.toNat ≤ r.2.toNat)

/-- The offset of the data cycle that comes first in a read of `n` bytes at `pa` requested with `req`: in a burst of eight words
with CWF = 1 that of the pair of words requested, else 0 (62_platform R872). -/
def State.firstCycle (s : State) (pa req : Word) (n : Nat) : Nat :=
  if n = 32 && s.cwfAt pa then (req - pa).toNat / 8 * 8 % 32 else 0

/-- The blocks of a read in the order in which they arrive: rising from the first cycle's to the last, then from the lowest
(62_platform R872). -/
def State.readBlocks (s : State) (pa req : Word) (n : Nat) : List Nat :=
  (blocksOf pa n).rotateLeft (s.firstCycle pa req n / 8)

/-- How many bytes of a read arrive before the data cycle the board aborts (62_platform R872, R874): those from the first
cycle up, and once they have all come, those below it; all of them, if it aborts none. -/
def State.arrivedBytes (s : State) (pa req : Word) (n : Nat) : Nat :=
  let c := s.firstCycle pa req n
  let h := s.takenBytes false (pa + BitVec.ofNat 32 c) (n - c) n 0
  if h < n - c then h else h + s.takenBytes false pa c n 0

/-- The blocks of a read that arrive before the data cycle the board aborts. -/
def State.receivedBlocks (s : State) (pa req : Word) (n : Nat) : List Nat :=
  let k := s.arrivedBytes pa req n
  if k = 0 then [] else (s.readBlocks pa req n).take ((pa.toNat % 8 + k + 7) / 8)

/-- A read the board aborts: what arrived before is checked and its errors logged (62_platform R855); the abort is logged,
unless a multi-bit error came first, which is the final error of its burst (R856). -/
def abortedRead (pa req : Word) (n : Nat) (p : Bool) (s : State) : Acc BusReply :=
  let r := if s.eccOn p then eccCheck req (s.receivedBlocks pa req n) s else (true, s)
  if r.1 then .ok .aborted (r.2.logAbort false req) else .ok .multiBit r.2

/-- A read request of `n` bytes at `pa`, emitted with address `req`: a bus abort and a multi-bit ECC error deliver
nothing and are logged (62_platform R854, R856); the blocks are checked in the order they arrive (R855, R872). What other
masters write before the request is in memory by then (R875). -/
def busRead (pa req : Word) (n : Nat) (p : Bool) (s : State) : Acc BusReply :=
  let s0 := s.othersWrite.assertLock.note 0x10
  if s0.eccOn p && s0.bus32 then .fault .eccOnNarrowBus
  else if s0.busAborts false pa n then abortedRead pa req n p s0
  else if s0.eccOn p then
    let r := eccCheck req (s0.readBlocks pa req n) s0
    .ok (if r.1 then .data (r.2.readBytes pa n p) else .multiBit) r.2
  else .ok (.data (s0.readBytes pa n p)) s0

/-- The address a 32-byte line read is emitted with: the line's, or with BCUMOD.AF the critical word's
(12_state R171; never with A[2] = 1, 62_platform R872). -/
def State.lineRequest (s : State) (pa : Word) : Word :=
  if s.bcu.bcumod.getLsbD 0 then pa &&& 0xFFFFFFF8 else pa &&& 0xFFFFFFE0

/-- A 32-byte line read around `pa` (62_platform R870, R878). -/
def busReadLine (pa : Word) (p : Bool) (s : State) : Acc BusReply :=
  busRead (pa &&& 0xFFFFFFE0) (s.lineRequest pa) 32 p s

/-- Does a checked read deliver a block: with any error but one of several bits (62_platform R856). -/
def EccState.delivered : EccState → Bool
  | .good => true
  | .dataBit _ _ => true
  | .checkBit _ => true
  | .multi _ => false

/-- The words of the line at `pa` that a 32-byte line read delivers, a bit each: those that arrive before the data cycle the board
aborts and before a block with a multi-bit ECC error, after which the rest of the burst is ignored (62_platform R856, R872, R874). -/
def State.goodWords (s : State) (pa : Word) (p : Bool) : BitVec 8 :=
  let line := pa &&& 0xFFFFFFE0
  let req := s.lineRequest pa
  let k := s.arrivedBytes line req 32
  let g := if s.eccOn p then min k (8 * ((s.readBlocks line req 32).takeWhile fun b => (s.eccAt b).delivered).length) else k
  ((1#8 <<< (g / 4)) - 1).rotateLeft (s.firstCycle line req 32 / 4)

/-- After a checked write every block written has the check bits ECTST.mask leaves (62_platform R860). -/
def setEccBlocks (e : EccState) : List Nat → State → State
  | [], s => s
  | b :: bs, s => setEccBlocks e bs (s.setEcc b e)

/-- Log a bus abort of a data access that is no table walk: an imprecise abort becomes pending (62_platform R854). -/
def State.abortData (s : State) (write : Bool) (req : Word) : State := (s.logAbort write req).pend .external

/-- The read half of a read-modify-write of one block (62_platform R852, R854, R856): true when the merged data may be
written. A bus abort or a multi-bit error leaves an imprecise abort pending (D27). Memory does not change. -/
def rmwRead (blk : Nat) (s : State) : Bool × State :=
  let pa := BitVec.ofNat 32 (blk * 8)
  if s.busAborts false pa 8 then (false, s.abortData false pa)
  else
    match s.eccAt blk with
    | .good => (true, s)
    | .checkBit y => (true, (s.logEcc false y pa).note 0x15)
    | .dataBit _ y => (true, (s.logEcc false y pa).note 0x15)
    | .multi y => (false, (s.logEcc true y pa).pend .external)

/-- A block written back as its checked read delivers it: a single-bit error of the data is corrected when BCUCTL.SC = 1
(62_platform R856, R859). -/
def State.repairBlock (s : State) (b : Nat) : State :=
  match s.eccAt b with
  | .dataBit i _ => if s.bcu.bcuctl.getLsbD 2 then s.flipBit b i else s
  | .good => s
  | .checkBit _ => s
  | .multi _ => s

/-- A read-modify-write of one block (62_platform R852); PMU event 0x16. The unlocking write is emitted in every case
(R874), without byte enables when the read gave no good data (R856); an aborted one leaves memory and its check bits. -/
def rmwWrite (pa : Word) (bs : List Byte) (s : State) : State :=
  let blk := blockOf pa
  let r := rmwRead blk (s.note 0x16)
  if r.2.busAborts true (BitVec.ofNat 32 (blk * 8)) 8 then r.2.abortData true (BitVec.ofNat 32 (blk * 8))
  else if r.1 then ((r.2.repairBlock blk).setBytesAt pa bs).setEcc blk r.2.maskState
  else r.2

/-- The check bits after a plain write of `n` bytes at `pa`: with ECC those of the data, inverted as ECTST.mask says; with
ECTST.DWE, on a full width, those of the data; without ECC zeros (62_platform R852, R853, R860). -/
def State.writeCheckBits (s : State) (pa : Word) (n : Nat) (p : Bool) : State :=
  if s.eccOn p then
    (if s.bcu.ectst.getLsbD 31 then (if n < 8 then s else setEccBlocks .good (blocksOf pa n) s)
     else setEccBlocks s.maskState (blocksOf pa n) s)
  else State.clearZeroBlocks (blocksOf pa n) s

/-- The address a write of `n` bytes at `pa` is requested with and how many bytes the request spans: out of the write buffer
whole words go out, with byte enables for the bytes stored; other writes are of the exact size (62_platform R870, R873). -/
def writeSpan (buffered : Bool) (pa : Word) (n : Nat) : Word × Nat :=
  if buffered then (pa &&& 0xFFFFFFFC, (pa.toNat % 4 + n + 3) / 4 * 4) else (pa, n)

/-- A write request of the bytes at `pa` (62_platform R852, R854, R874). With ECC a write of less than the bus width is a
read-modify-write, which is locked as a whole (R875). The data cycles before an aborted one are written; the abort leaves an
imprecise data abort pending. What other masters write before the request is in memory by then. -/
def busWrite (buffered : Bool) (pa : Word) (bs : List Byte) (p : Bool) (s : State) : Acc Unit :=
  let s0 := s.othersWrite.note 0x10
  if s0.eccOn p && s0.bus32 then .fault .eccOnNarrowBus
  else if s0.eccOn p && !s0.bcu.ectst.getLsbD 31 && decide (bs.length < 8) then .ok () (rmwWrite pa bs s0)
  else
    let r := writeSpan buffered pa bs.length
    let t := s0.takenBytes true r.1 r.2 r.2 0
    let k := min bs.length (t - (pa.toNat - r.1.toNat))
    let s1 := if k = 0 then s0 else (s0.setBytesAt pa (bs.take k)).writeCheckBits pa k p
    .ok () (if t < r.2 then s1.abortData true r.1 else s1)

end Sys2Proof.Machine
end

