-- ==== Sys2Proof/Machine/Mmu.lean ====
section
/-!
DEFINITION. Address translation (21_mmu R260 to R298): the PID remap, the two TLBs, the table walk, the access check,
and the TLB functions of CP15 registers 8 and 10.
-/

namespace Sys2Proof.Machine

/-- `MVA(va)` (11_state R123): the PID replaces VA[31:25] when they are zero. -/
def State.mvaOf (s : State) (va : Word) : Word :=
  if va.extractLsb' 25 7 = 0 then s.cp15.pid.extractLsb' 25 7 ++ va.extractLsb' 0 25 else va

/-! ## TLBs (21_mmu R290 to R293) -/

/-- The address bits a region's base does not hold. -/
def RegionSize.offsetMask : RegionSize → Word
  | .sect => 0x000FFFFF | .large => 0x0000FFFF | .small => 0x00000FFF | .tiny => 0x000003FF

/-- Does a valid entry translate the MVA (R291). -/
def TlbEntry.hits (e : TlbEntry) (mva : Word) : Bool := e.valid && (mva &&& ~~~e.size.offsetMask) == e.mva

/-- The physical address of an MVA in the entry's region (R270). -/
def TlbEntry.physical (e : TlbEntry) (mva : Word) : Word := e.pa ||| (mva &&& e.size.offsetMask)

/-- Place an entry at its index. -/
def Tlb.put (t : Tlb) (e : TlbEntry) : Tlb :=
  { t with entries := e :: t.entries.filter fun x => !(x.index == e.index) }

/-- `TLBFill` (R292). -/
def Tlb.fill (t : Tlb) (e : TlbEntry) : Tlb :=
  { t.put { e with index := t.rr, valid := true, locked := false } with
    rr := if t.rr = 31 then t.lock else t.rr + 1 }

/-- The lock function's placement (R293, R295). -/
def Tlb.fillLocked (t : Tlb) (e : TlbEntry) : Tlb :=
  if t.lock = 31 then { t.put { e with index := 31, valid := true, locked := false } with rr := 31 }
  else { t.put { e with index := t.lock, valid := true, locked := true } with lock := t.lock + 1, rr := 31 }

/-- `InvalidateTLB` (R294): unlocked entries only; the pointers stay (D12). -/
def Tlb.invalidate (t : Tlb) : Tlb :=
  { t with entries := t.entries.map fun e => if e.locked then e else { e with valid := false } }

/-- `InvalidateTLBEntry` (R294): the locked flag is kept. -/
def Tlb.invalidateEntry (t : Tlb) (mva : Word) : Tlb :=
  { t with entries := t.entries.map fun e => if e.hits mva then { e with valid := false } else e }

/-- Unlock (R297): entries stay valid, the lock pointer returns to 0 (D12). -/
def Tlb.unlock (t : Tlb) : Tlb :=
  { t with entries := t.entries.map fun e => { e with locked := false }, lock := 0 }

/-- The instruction (true) or data TLB. -/
def State.tlb (s : State) (instr : Bool) : Tlb := if instr then s.itlb else s.dtlb

/-- Replace the instruction (true) or data TLB. -/
def State.setTlb (s : State) (instr : Bool) (t : Tlb) : State :=
  if instr then { s with itlb := t } else { s with dtlb := t }

/-! ## The table walk (21_mmu R262 to R273) -/

/-- A descriptor read: external memory, ECC as Auxiliary Control P says (R270); `code` is the fault of an external
abort on it, a multi-bit ECC error among them (R273). -/
def readDescriptor (pa : Word) (code : FaultCode) (mva : Word) (domain : BitVec 4) (s : State) : Acc Word :=
  (busRead pa pa 4 (s.cp15.auxControl.getLsbD 1) s).bind fun r s1 =>
    match r with
    | .aborted => .abort { code := code, mva := mva, domain := domain } s1
    | .multiBit => .abort { code := code, mva := mva, domain := domain, ecc := true } s1
    | .data bs => .ok (BitVec.ofNat 32 (assemble s1.bigEndian bs)) s1

/-- One AP field as the four sub-page fields (R267). -/
def apAll (ap : BitVec 2) : BitVec 8 := ap ++ ap ++ ap ++ ap

/-- The entry a section descriptor gives (R262, R270). -/
def sectionEntry (l1 mva : Word) : TlbEntry :=
  { index := 0, valid := true, locked := false, size := .sect,
    mva := mva &&& 0xFFF00000, pa := l1 &&& 0xFFF00000, domain := l1.extractLsb' 5 4, ap := apAll (l1.extractLsb' 10 2),
    x := l1.getLsbD 12, c := l1.getLsbD 3, b := l1.getLsbD 2, p := l1.getLsbD 9 }

/-- The entry a second-level descriptor gives, or none for a fault descriptor (R263 to R265, R270). `coarse` says
which table it stands in. -/
def pageEntry (coarse : Bool) (l1 l2 mva : Word) : Option TlbEntry :=
  let mk (size : RegionSize) (ap : BitVec 8) (x : Bool) : TlbEntry :=
    { index := 0, valid := true, locked := false, size := size,
      mva := mva &&& ~~~size.offsetMask, pa := l2 &&& ~~~size.offsetMask, domain := l1.extractLsb' 5 4, ap := ap,
      x := x, c := l2.getLsbD 3, b := l2.getLsbD 2, p := l1.getLsbD 9 }
  let t := l2.extractLsb' 0 2
  if t = 0b00 then none
  else if t = 0b01 then some (mk .large (l2.extractLsb' 4 8) (l2.getLsbD 12))
  else if t = 0b10 then some (mk .small (l2.extractLsb' 4 8) false)
  else if coarse then some (mk .small (apAll (l2.extractLsb' 4 2)) (l2.getLsbD 6))
  else some (mk .tiny (apAll (l2.extractLsb' 4 2)) (l2.getLsbD 6))

/-- `TranslationWalk` (R270). -/
def walk (mva : Word) (s : State) : Acc TlbEntry :=
  (readDescriptor (s.cp15.ttbr.extractLsb' 14 18 ++ mva.extractLsb' 20 12 ++ 0#2) .extL1 mva 0 s).bind fun l1 s1 =>
    let t := l1.extractLsb' 0 2
    if t = 0b00 then .abort { code := .xlatSection, mva := mva, domain := 0 } s1
    else if t = 0b10 then .ok (sectionEntry l1 mva) s1
    else
      let coarse := decide (t = 0b01)
      let l2addr : Word := if coarse then l1.extractLsb' 10 22 ++ mva.extractLsb' 12 8 ++ 0#2
                           else l1.extractLsb' 12 20 ++ mva.extractLsb' 10 10 ++ 0#2
      (readDescriptor l2addr .extL2 mva (l1.extractLsb' 5 4) s1).bind fun l2 s2 =>
        match pageEntry coarse l1 l2 mva with
        | none => .abort { code := .xlatPage, mva := mva, domain := l1.extractLsb' 5 4 } s2
        | some e => .ok e s2

/-! ## The access check (21_mmu R275 to R277) -/

/-- The AP field that governs an MVA: the quarter of a large or small page (R267). -/
def TlbEntry.apAt (e : TlbEntry) (mva : Word) : BitVec 2 :=
  let q : BitVec 2 := match e.size with
    | .large => mva.extractLsb' 14 2
    | .small => mva.extractLsb' 10 2
    | .sect => 0
    | .tiny => 0
  (e.ap >>> (2 * q.toNat)).extractLsb' 0 2

/-- `Permitted` (R277), S and R being Control bits 8 and 9; `none` for AP = 00 with S = R = 1. -/
def permitted (ap : BitVec 2) (s r write priv : Bool) : Option Bool :=
  if ap = 0b00 then
    (if s && r then none
     else if s then some (priv && !write)
     else if r then some (!write)
     else some false)
  else if ap = 0b01 then some priv
  else if ap = 0b10 then some (priv || !write)
  else some true

/-- `CheckAccess` (R275): domain, then permission. -/
def checkAccess (e : TlbEntry) (mva : Word) (write priv : Bool) (s : State) : Acc Unit :=
  let d := (s.cp15.dacr >>> (2 * e.domain.toNat)).extractLsb' 0 2
  let isSect := e.size == .sect
  if d = 0b11 then .ok () s
  else if d = 0b01 then
    match permitted (e.apAt mva) (s.cp15.control.getLsbD 8) (s.cp15.control.getLsbD 9) write priv with
    | none => .fault .reservedPermission
    | some true => .ok () s
    | some false =>
      .abort { code := if isSect then .permSection else .permPage, mva := mva, domain := e.domain } s
  else .abort { code := if isSect then .domSection else .domPage, mva := mva, domain := e.domain } s

/-! ## Translation -/

/-- A translation's result: the physical address and the region's attributes (20_memory R231). -/
structure Xlat where
  pa : Word
  x : Bool
  c : Bool
  b : Bool
  p : Bool
  deriving DecidableEq, Repr

/-- What an entry answers for an MVA. -/
def TlbEntry.xlat (e : TlbEntry) (mva : Word) : Xlat :=
  { pa := e.physical mva, x := e.x, c := e.c, b := e.b, p := e.p }

/-- Translation of an instruction (true) or data MVA. MMU off: PA = MVA, data X = C = B = 0, instructions cacheable,
no ECC (R282). MMU on: TLB, walk on a miss (PMU events 0x3, 0x4), then the access check. -/
def translate (instr : Bool) (mva : Word) (write priv : Bool) (s : State) : Acc Xlat :=
  if !s.mmuOn then .ok { pa := mva, x := false, c := instr, b := false, p := false } s
  else
    match (s.tlb instr).entries.filter fun e => e.hits mva with
    | [] =>
      (walk mva (s.note (if instr then 0x3 else 0x4))).bind fun e s1 =>
        (checkAccess e mva write priv (s1.setTlb instr ((s1.tlb instr).fill e))).bind fun _ s2 =>
          .ok (e.xlat mva) s2
    | [e] => (checkAccess e mva write priv s).bind fun _ s1 => .ok (e.xlat mva) s1
    | _ :: _ :: _ => .fault .tlbDoubleMatch

/-! ## TLB lock functions (21_mmu R295, R296) -/

/-- The same result, an abort reported as a Lock Abort (60_exceptions R713). -/
def Acc.lockAbort {α : Type} (x : Acc α) : Acc α :=
  match x with
  | .ok v s => .ok v s
  | .abort f s => .abort { f with code := .lock } s
  | .fault e => .fault e
  | .refused e => .refused e

/-- `TranslateAndLock`: an abort of the walk or of the access check, as a read (DESIGN CHOICE, log 55), is a Lock Abort, a
data abort, and no entry is made (60_exceptions R713). The lock of an MVA already resident is ignored, as R299 tells it
(DESIGN CHOICE, log 56). The walk counts as no TLB miss, PMU events 0x3 and 0x4: 12_state R145 and R295 are silent (DESIGN
CHOICE, log 37). -/
def translateAndLock (instr : Bool) (mva : Word) (s : State) : Acc Unit :=
  if !s.mmuOn then .fault .tlbLockMmuOff
  else if (s.tlb instr).entries.any fun e => e.hits mva then .ok () s
  else
    ((walk mva s).bind fun e s1 =>
      (checkAccess e mva false s.priv s1).bind fun _ s2 =>
        .ok () (s2.setTlb instr ((s2.tlb instr).fillLocked e))).lockAbort

end Sys2Proof.Machine
end

