-- ==== Sys2Proof/Machine/Cache.lean ====
section
/-!
DEFINITION. The data cache and the mini-data cache (21_mmu R310 to R328), data accesses with their alignment rule
(20_memory R221 to R226) and breakpoints (61_debug R758), and the cache functions of CP15 registers 7 and 9.
-/

namespace Sys2Proof.Machine

/-! ## The two data caches (21_mmu R311, R312) -/

/-- The mini-data cache (true) or the data cache. -/
def State.dataCache (s : State) (mini : Bool) : Cache := if mini then s.minid else s.dcache

/-- Replace it. -/
def State.setDataCache (s : State) (mini : Bool) (c : Cache) : State :=
  if mini then { s with minid := c } else { s with dcache := c }

/-- Control.C. -/
def State.dcacheOn (s : State) : Bool := s.cp15.control.getLsbD 2

/-- The line that holds an MVA, and whether it is the mini-data cache's: both are looked up (R312). -/
def State.findData (s : State) (mva : Word) : Option (Bool × CacheLine) :=
  match s.dcache.find mva with
  | some l => some (false, l)
  | none => (s.minid.find mva).map fun l => (true, l)

/-- X = 1, C = 1, B = 0: the mini-data cache (20_memory R235). -/
def Xlat.toMini (x : Xlat) : Bool := x.x && x.c && !x.b

/-- Does a store of the region that goes out to memory leave through the write buffer: in every region but the non-cacheable,
non-bufferable one (20_memory R234, R235; 62_platform R870, R873; log 50). -/
def Xlat.buffered (x : Xlat) : Bool := x.x || x.c || x.b

/-- Auxiliary Control MD (11_state R86). -/
def State.md (s : State) : BitVec 2 := s.cp15.auxControl.extractLsb' 4 2

/-- Is the write policy write-through (20_memory R234, 11_state R86). -/
def State.writeThrough (s : State) (x : Xlat) : Bool :=
  if x.toMini then s.md == 0b10 else !x.x && x.c && !x.b

/-- Does a store that misses allocate (20_memory R235, 11_state R86). -/
def State.writeAllocate (s : State) (x : Xlat) : Bool :=
  if x.toMini then s.md == 0b01 else x.x && x.c && x.b

/-- Cacheable: the MMU and the data cache enabled and C set (R312). -/
def State.cacheable (s : State) (x : Xlat) : Bool := s.mmuOn && s.dcacheOn && x.c

/-- Configurations and attributes the manual gives no behaviour for (20_memory R235, R237, 11_state R86). -/
def attributeFault (x : Xlat) (s : State) : Option Fault :=
  if !s.mmuOn && s.dcacheOn then some .dcacheWithoutMmu
  else if x.x && !x.c && !x.b then some .reservedAttributes
  else if x.toMini && s.md == 0b11 then some .reservedMiniAttributes
  else none

/-- Free bytes: from one free word each four. -/
def freeBytes (k n : Nat) : List Byte :=
  (List.range n).map fun i => (Config.freeWord (k + i / 4)).extractLsb' (8 * (i % 4)) 8

/-- A load that delivers free bytes (U14, R328). -/
def freeLoad (n : Nat) (s : State) : Acc (List Byte) := .ok (freeBytes s.freeCount n) (s.draw ((n + 3) / 4))

/-! ## Evictions and fills (21_mmu R313, R314, R319, R324) -/

/-- Write half a line back: a 16-byte burst; PMU event 0xC. A byte of wrong parity goes to memory with the value it had
before the upset (DESIGN CHOICE, log 46). -/
def evictHalf (l : CacheLine) (hi : Bool) (s : State) : Acc Unit :=
  let pa := if hi then l.pa + 16 else l.pa
  busWrite false pa (lineBytes l.data (if hi then 16 else 0) 16) l.ecc ((s.note 0x0C).noteOverwritten pa 16)

/-- Write a line's dirty halves back, of two the lower one first, where R313 and R314 name no order (DESIGN CHOICE, log 34). -/
def evict (l : CacheLine) (s : State) : Acc Unit :=
  (if l.dirtyLo then evictHalf l false s else .ok () s).bind fun _ s1 =>
    if l.dirtyHi then evictHalf l true s1 else .ok () s1

/-- Write back the line about to be replaced, if it is valid. -/
def evictVictim (l : Option CacheLine) (s : State) : Acc Unit :=
  match l with
  | some k => if k.valid then evict k s else .ok () s
  | none => .ok () s

/-- Allocate a line of the data or mini-data cache: the victim is written back and replaced. -/
def allocateLine (mini : Bool) (x : Xlat) (mva : Word) (data : Vector Byte 32) (s : State) : Acc CacheLine :=
  let set := setOf mva
  let v := if mini then s.minid.victimRr set 1
           else if s.cp15.dcacheLock then s.dcache.victimLock set else s.dcache.victimRr set 31
  (evictVictim ((s.dataCache mini).lineAt set v.way) s).bind fun _ s1 =>
    let l : CacheLine := { set := set, way := v.way, tag := tagOf mva, valid := true, locked := v.locked,
                           dirtyLo := false, dirtyHi := false, pa := x.pa &&& 0xFFFFFFE0, ecc := x.p, bad := 0,
                           data := data, downloaded := false }
    .ok l (s1.setDataCache mini (((s1.dataCache mini).put l).setRr set v.next))

/-- Fill a line from external memory. `none`: the read was aborted, nothing is allocated (log 34). -/
def fillLine (x : Xlat) (mva : Word) (s : State) : Acc (Option CacheLine) :=
  if x.toMini && s.cp15.dcacheLock then .fault .minidLock
  else
    (busReadLine x.pa x.p s).bind fun r s1 =>
      match r.bytes with
      | none => .ok none (s1.pend .external)
      | some bs => (allocateLine x.toMini x mva (lineOfBytes bs) s1).bind fun l s2 => .ok (some l) s2

/-! ## Data reads and writes -/

/-- PMU events of a data access: 0xA, and 0x12 for an I/O transaction (12_state R145). -/
def State.noteAccess (s : State) (x : Xlat) : State :=
  if !x.x && !x.c && !x.b then (s.note 0x0A).note 0x12 else s.note 0x0A

/-- Deliver `n` bytes of a line; a parity error makes an imprecise abort pending and the value free (R328). -/
def readLine (l : CacheLine) (mva : Word) (n : Nat) (s : State) : Acc (List Byte) :=
  if l.bad &&& byteMask (offsetOf mva) n = 0 then .ok (lineBytes l.data (offsetOf mva) n) s
  else freeLoad n (s.pend .parity)

/-- Read `n` bytes at an MVA that translates to `x` (R312, R313). -/
def dataRead (x : Xlat) (mva : Word) (n : Nat) (s : State) : Acc (List Byte) :=
  match attributeFault x s with
  | some e => .fault e
  | none =>
    let s0 := s.noteAccess x
    match s0.findData mva with
    | some (_, l) => readLine l mva n s0
    | none =>
      if s0.cacheable x then
        (fillLine x mva (s0.note 0x0B)).bind fun r s1 =>
          match r with
          | some l => readLine l mva n s1
          | none => freeLoad n s1
      else
        (busRead x.pa x.pa n x.p (s0.note 0x0B)).bind fun r s1 =>
          match r.bytes with
          | some bs => .ok bs s1
          | none => freeLoad n (s1.pend .external)

/-- A line with bytes stored; the half's dirty bit is set unless the policy is write-through (R311, R314). -/
def CacheLine.store (l : CacheLine) (mva : Word) (bs : List Byte) (dirty : Bool) : CacheLine :=
  let hi := decide (16 ≤ offsetOf mva)
  { l with data := lineStore l.data (offsetOf mva) bs
           bad := l.bad &&& ~~~(byteMask (offsetOf mva) bs.length)
           dirtyLo := l.dirtyLo || (dirty && !hi)
           dirtyHi := l.dirtyHi || (dirty && hi) }

/-- Write bytes at an MVA that translates to `x` (R312, R314); the instruction side does not see it (20_memory R246). -/
def dataWrite (x : Xlat) (mva : Word) (bs : List Byte) (s : State) : Acc Unit :=
  match attributeFault x s with
  | some e => .fault e
  | none =>
    let s0 := (s.noteAccess x).noteOverwritten x.pa bs.length
    match s0.findData mva with
    | some (mini, l) =>
      let wt := s0.writeThrough x
      let s1 := s0.setDataCache mini ((s0.dataCache mini).put (l.store mva bs !wt))
      if wt then busWrite x.buffered x.pa bs x.p s1 else .ok () s1
    | none =>
      if s0.cacheable x && s0.writeAllocate x then
        (fillLine x mva (s0.note 0x0B)).bind fun r s1 =>
          match r with
          | some l => .ok () (s1.setDataCache x.toMini ((s1.dataCache x.toMini).put (l.store mva bs true)))
          | none => .ok () s1
      else busWrite x.buffered x.pa bs x.p (s0.note 0x0B)

/-! ## Data breakpoints (61_debug R758) -/

/-- `TypeMatch`. -/
def typeMatch (e : BitVec 2) (store : Bool) : Bool :=
  (e == 0b01 && store) || e == 0b10 || (e == 0b11 && !store)

/-- `AddrMatch`. -/
def State.addrMatch (s : State) (ref mask a : Word) (n : Nat) : Bool :=
  (List.range n).any fun i => (s.mvaOf (a + BitVec.ofNat 32 i) &&& ~~~mask) == (ref &&& ~~~mask)

/-- `DataBreak`. -/
def State.dataBreakMatch (s : State) (a : Word) (n : Nat) (store : Bool) : Bool :=
  let m := s.cp15.dbcon.getLsbD 8
  (typeMatch (s.cp15.dbcon.extractLsb' 0 2) store
      && s.addrMatch s.cp15.dbr0 (if m then s.cp15.dbr1 else 0) a n)
    || (!m && typeMatch (s.cp15.dbcon.extractLsb' 2 2) store && s.addrMatch s.cp15.dbr1 0 a n)

/-- Remember that the access matches a data breakpoint: reported after the instruction, if debug is then enabled. -/
def State.noteBreak (s : State) (a : Word) (n : Nat) (store : Bool) : State :=
  if s.dataBreakMatch a n store then
    { s with scratch := { s.scratch with dataBreak := true } }
  else s

/-! ## Accesses by virtual address (20_memory R221 to R226) -/

/-- Control.A. -/
def State.alignCheckOn (s : State) : Bool := s.cp15.control.getLsbD 1

/-- The alignment fault of an access (R224). -/
def alignmentAbort (va : Word) (s : State) : Acc Word :=
  .abort { code := .alignment, mva := s.mvaOf va, domain := 0 } s

/-- The address an access of `n` = 1, 2 or 4 bytes uses, or its alignment fault (R224, R225). -/
def alignData (n : Nat) (va : Word) (s : State) : Acc Word :=
  if n = 2 then
    (if !va.getLsbD 0 then .ok va s
     else if s.alignCheckOn then alignmentAbort va s else .fault .unalignedHalfword)
  else if n = 4 then
    (if va &&& 3 = 0 then .ok va s
     else if s.alignCheckOn then alignmentAbort va s else .ok (va &&& 0xFFFFFFFC) s)
  else .ok va s

/-- The alignment of a doubleword access (R224, R226, D9). -/
def alignDouble (va : Word) (s : State) : Acc Word :=
  if va &&& 7 = 0 then .ok va s
  else if va &&& 7 = 4 then alignmentAbort va s
  else if s.alignCheckOn then alignmentAbort va s
  else .fault .unalignedDouble

/-- The translation of a data access at the aligned address `a`; an abort reports the MVA of the address `va` that the
instruction computed (60_exceptions R712). -/
def translateData (a va : Word) (write priv : Bool) (s : State) : Acc Xlat :=
  (translate false (s.mvaOf a) write priv s).faultAt (s.mvaOf va)

/-- `MemRead(va, n)` for n = 1, 2, 4. -/
def readMem (n : Nat) (va : Word) (priv : Bool) (s : State) : Acc Word :=
  (alignData n va s).bind fun a s1 =>
    (translateData a va false priv s1).bind fun x s2 =>
      (dataRead x (s2.mvaOf a) n (s2.noteBreak a n false)).bind fun bs s3 =>
        .ok (BitVec.ofNat 32 (assemble s3.bigEndian bs)) s3

/-- The checks of a store of `n` = 1, 2 or 4 bytes, alignment, translation and permission, before anything is stored
(R224; 21_mmu R275): the address it uses and where that translates to. -/
def checkStore (n : Nat) (va : Word) (priv : Bool) (s : State) : Acc (Word × Xlat) :=
  (alignData n va s).bind fun a s1 => (translateData a va true priv s1).bind fun x s2 => .ok (a, x) s2

/-- The store of `n` bytes of `v` where `checkStore` said. -/
def storeChecked (n : Nat) (v : Word) (p : Word × Xlat) (s : State) : Acc Unit :=
  dataWrite p.2 (s.mvaOf p.1) (disassemble s.bigEndian n v.toNat) (s.noteBreak p.1 n true)

/-- `MemWrite(va, n, v)` for n = 1, 2, 4. -/
def writeMem (n : Nat) (va : Word) (v : Word) (priv : Bool) (s : State) : Acc Unit :=
  (checkStore n va priv s).bind fun p s1 => storeChecked n v p s1

/-- The rotation of an unaligned word load with A = 0 (R225). -/
def rotateLoaded (va : Word) (v : Word) : Word := v.rotateRight (8 * (va.toNat % 4))

/-- A word load with the unaligned rule of LDR and SWP (R225). -/
def readWord (va : Word) (priv : Bool) (s : State) : Acc Word :=
  (readMem 4 va priv s).bind fun v s1 => .ok (rotateLoaded va v) s1

/-- The bus lock of the instruction. -/
def State.setLock (s : State) (l : BusLock) : State := { s with scratch := { s.scratch with lock := l } }

/-- SWP and SWPB: one translation, checked as a write; a read, then a write (20_memory R244); breakpoints as a store
(R758). The loaded value. The read, if it goes out on the bus, locks its 32-byte block until the write (R245; 62_platform R875). -/
def swapMem (n : Nat) (va : Word) (v : Word) (s : State) : Acc Word :=
  (alignData n va s).bind fun a s1 =>
    (translateData a va true s1.priv s1).bind fun x s2 =>
      (dataRead x (s2.mvaOf a) n ((s2.noteBreak a n true).setLock (.asked (x.pa.toNat / 32)))).bind fun bs s3 =>
        (dataWrite x (s3.mvaOf a) (disassemble s3.bigEndian n v.toNat) s3).bind fun _ s4 =>
          .ok (rotateLoaded (if n = 4 then va else 0) (BitVec.ofNat 32 (assemble s4.bigEndian bs))) (s4.setLock .free)

/-- PLD (43_arm R497; 60_exceptions R718): never faults; the line is brought in when the MVA's translation is in the
TLB, allows a read and is cacheable (DEDUCED, log 34). Any other case has no effect, a mini-data cache page in lock mode
among them, which U10 leaves unpredictable (DESIGN CHOICE, log 34). A miss in the data TLB, after which R271 ignores the PLD, counts
no PMU event 0x4 either, where R145 and R497 are silent (DESIGN CHOICE, log 37). -/
def preload (va : Word) (s : State) : Acc Unit :=
  let mva := s.mvaOf va
  if !s.mmuOn || !s.dcacheOn then .ok () s
  else
    match s.dtlb.entries.filter fun e => e.hits mva with
    | [e] =>
      match checkAccess e mva false s.priv s with
      | .ok _ _ =>
        let x := e.xlat mva
        match attributeFault x s, s.findData mva with
        | none, none =>
          if s.cacheable x && !(x.toMini && s.cp15.dcacheLock) then
            (fillLine x mva ((s.note 0x0A).note 0x0B)).bind fun _ s1 => .ok () s1
          else .ok () s
        | _, _ => .ok () s
      | _ => .ok () s
    | _ => .ok () s

/-! ## Cache functions (21_mmu R320 to R325) -/

/-- Invalidate D cache (R320): dirty data is discarded; locked lines of the data cache stay. -/
def State.invalidateDCache (s : State) : State :=
  { s with dcache := s.dcache.invalidateUnlocked, minid := s.minid.invalidateUnlocked }

/-- Invalidate D cache line (R321). -/
def State.invalidateDLine (s : State) (mva : Word) : State :=
  { s with dcache := s.dcache.invalidateLine mva, minid := s.minid.invalidateLine mva }

/-- Clean D cache line (R322): dirty halves written back, the line stays valid and becomes clean. The function reads the cache
and can give a parity fault (11_state R93), of which bytes the manual does not say: any byte of the line of wrong parity, in
a clean half or a clean line too, makes a parity abort pending (DESIGN CHOICE, log 46). Of an MVA that both data caches hold, which Allocate Line can bring about,
the data cache's line is cleaned and the mini-data cache's left (DESIGN CHOICE, log 34). -/
def cleanDLine (mva : Word) (s : State) : Acc Unit :=
  match s.findData mva with
  | none => .ok () s
  | some (mini, l) =>
    (evict l (if l.bad = 0 then s else s.pend .parity)).bind fun _ s1 =>
      .ok () (s1.setDataCache mini ((s1.dataCache mini).put { l with dirtyLo := false, dirtyHi := false }))

/-- Drain Write (& Fill) Buffer (R318): requests complete in their step (D10); PMU event 0x12. -/
def State.drain (s : State) : State := s.note 0x12

/-- A data translation without the access check (11_state R93). A walk counts as PMU event 0x4, a data TLB miss, where 12_state
R145 and R323 are silent (DESIGN CHOICE, log 37). -/
def translateUnchecked (mva : Word) (s : State) : Acc Xlat :=
  if !s.mmuOn then .ok { pa := mva, x := false, c := false, b := false, p := false } s
  else
    match s.dtlb.entries.filter fun e => e.hits mva with
    | [] =>
      (walk mva (s.note 0x4)).bind fun e s1 => .ok (e.xlat mva) (s1.setTlb false (s1.dtlb.fill e))
    | [e] => .ok (e.xlat mva) s
    | _ :: _ :: _ => .fault .tlbDoubleMatch

/-- Allocate Line in the Data Cache (R323), whether or not the cache is enabled (11_state R93): the data is free (U9). -/
def lineAllocate (rd : Word) (s : State) : Acc Unit :=
  let mva := rd &&& 0xFFFFFFE0
  (translateUnchecked mva s).bind fun x s1 =>
    match s1.dcache.find mva with
    | some _ => .ok () s1
    | none =>
      (allocateLine false x mva (lineOfBytes (freeBytes s1.freeCount 32)) (s1.draw 8)).bind fun _ s2 => .ok () s2

/-- Unlock Data Cache (R325). -/
def State.unlockDCache (s : State) : State := { s with dcache := s.dcache.unlock }

end Sys2Proof.Machine
end

