-- ==== Sys2Proof/Machine/Fetch.lean ====
section
/-!
DEFINITION. The instruction side (21_mmu R300 to R334, 61_debug R795, R796): fetching an instruction's bytes through
the instruction TLB, the mini instruction cache, the instruction cache and the fetch buffers; the instruction cache
functions of CP15 registers 7 and 9; the branch target buffer.
-/

namespace Sys2Proof.Machine

/-- Control.I. -/
def State.icacheOn (s : State) : Bool := s.cp15.control.getLsbD 12

/-! ## Fetch buffers (21_mmu R302, R303) -/

/-- Does a buffer hold the word of an address. -/
def FetchBuf.hits (b : FetchBuf) (a : Word) : Bool :=
  b.tag == a.extractLsb' 5 27 && b.valid.getLsbD (offsetOf a / 4)

/-- The buffer that holds the word of an address. -/
def FetchBufs.find (f : FetchBufs) (a : Word) : Option FetchBuf :=
  if f.buf0.hits a then some f.buf0 else if f.buf1.hits a then some f.buf1 else none

/-- Fill the next buffer with the words of a line that came (R303 step 3): those `valid` marks, none when the line went to the
cache (step 6). The buffers are used in turn (log 35). -/
def FetchBufs.fill (f : FetchBufs) (a : Word) (data : Vector Byte 32) (valid : BitVec 8) : FetchBufs :=
  let b : FetchBuf := { tag := a.extractLsb' 5 27, valid := valid, data := data }
  if f.next then { f with buf1 := b, next := false } else { f with buf0 := b, next := true }

/-! ## The fetch -/

/-- An instruction's value from a line's bytes (20_memory R221). -/
def State.instrOf (s : State) (d : Vector Byte 32) (a : Word) : Nat :=
  assemble s.bigEndian (lineBytes d (offsetOf a) s.isize.toNat)

/-- Is the word at an address of a line of wrong parity: one parity bit a word (R327). -/
def CacheLine.badWord (l : CacheLine) (a : Word) : Bool :=
  !(l.bad &&& byteMask (offsetOf a / 4 * 4) 4 == 0)

/-- The line of the mini instruction cache that a fetch of an address uses: the cache is looked up in Special Debug State or
with I = 1, else U46 leaves it open. -/
def State.findMini (s : State) (a : Word) : Option CacheLine :=
  match s.minic.find a with
  | some l => if s.dbg.sds || s.icacheOn || Config.miniLookupWhenDisabled then some l else none
  | none => none

/-- The line of the mini or the main instruction cache that holds an address. The main cache is looked up whether or
not it is enabled (R302). -/
def State.findInstr (s : State) (a : Word) : Option CacheLine :=
  match s.findMini a with
  | some l => some l
  | none => s.icache.find a

/-- A prefetch abort found by the fetch at `a` (60_exceptions R710). -/
def fetchAbort {α : Type} (code : FaultCode) (a : Word) (s : State) : Acc α :=
  .abort { code := code, mva := a, domain := 0 } s

/-- The end of a line read that an abort or a multi-bit error cut short (R303 steps 3 and 4): the words that came before are in the
fetch buffer, and the instruction at the pc is delivered if it is among them; else it aborts (60_exceptions R710). The line does
not go to the cache, as not all its words have returned (step 5). A later fetch of another word reads the line again (DESIGN
CHOICE, log 59). -/
def fetchPartly (x : Xlat) (a : Word) (s : State) : Acc Nat :=
  let valid := s.goodWords x.pa x.p
  let d := lineOfBytes (s.readBytes (x.pa &&& 0xFFFFFFE0) 32 x.p)
  let s1 : State := { s with fetchBufs := s.fetchBufs.fill a d valid }
  if valid.getLsbD (offsetOf a / 4) then .ok (s1.instrOf d a) s1 else fetchAbort .external a s1

/-- A fetch that misses (R303, R304): a line read; the line goes to the instruction cache when it is cacheable and the
cache enabled, else it stays in a fetch buffer. PMU event 0x0. -/
def fetchMiss (x : Xlat) (a : Word) (s : State) : Acc Nat :=
  (busReadLine x.pa x.p (s.note 0x00)).bind fun r s1 =>
    match r.bytes with
    | none => fetchPartly x a s1
    | some bs =>
      let d := lineOfBytes bs
      let toCache := x.c && s1.icacheOn
      let s2 : State := { s1 with fetchBufs := s1.fetchBufs.fill a d (if toCache then 0 else 0xFF) }
      if toCache then
        let set := setOf a
        let v := s2.icache.victimRr set 31
        let l : CacheLine := { set := set, way := v.way, tag := tagOf a, valid := true, locked := false,
                               dirtyLo := false, dirtyHi := false, pa := x.pa &&& 0xFFFFFFE0, ecc := x.p, bad := 0,
                               data := d, downloaded := false }
        .ok (s2.instrOf d a) { s2 with icache := (s2.icache.put l).setRr set v.next
                                       lockPhase := if s2.lockPhase = .locking then .spoiled else s2.lockPhase }
      else .ok (s2.instrOf d a) s2

/-- The word that the instruction caches, the fetch buffers or a line read give for a translated address. Only the line of
the pc is read: the manual says that the processor fetches ahead (R303) but not how far (DESIGN CHOICE, log 35). -/
def fetchHeld (x : Xlat) (a : Word) (s : State) : Acc Nat :=
  match s.findInstr a with
  | some l => if l.badWord a then fetchAbort .parity a s else .ok (s.instrOf l.data a) s
  | none =>
    match s.fetchBufs.find a with
    | some b => .ok (s.instrOf b.data a) s
    | none => fetchMiss x a s

/-! ## Code that was changed (20_memory R246, U3; log 58) -/

/-- `n` bytes as they were when the instruction cache was last invalidated. -/
def State.syncedBytes (s : State) (pa : Word) (n : Nat) : List Byte :=
  ({ s with mem := s.synced } : State).bytesAt pa n

/-- What stood in these `n` bytes of one word where a write came since then. -/
def State.overwrittenBytes (s : State) (pa : Word) (n : Nat) : List (List Byte) :=
  (s.overwritten.filter fun c => c.1 == pa.toNat / 4).map fun c => (c.2.drop (pa.toNat % 4)).take n

/-- All that stands or stood since then in these `n` bytes of one word, in external memory or in a data cache. -/
def State.codeBytes (s : State) (pa : Word) (n : Nat) : List (List Byte) := s.standingBytes pa n ++ s.overwrittenBytes pa n

/-- Were these bytes changed without the sequence that R246 requires: do or did other bytes stand there than when the instruction
cache was invalidated, also if that was undone. -/
def State.codeChanged (s : State) (pa : Word) (n : Nat) : Bool := (s.codeBytes pa n).any fun bs => !(bs == s.syncedBytes pa n)

/-- The words that a fetch of changed code at the physical address `pa` may deliver that found the word `w`: `w`, which a cache
or a buffer may have held, the words that stand there, in memory and in the data caches, and every word that stood there since
the sequence was last complete. -/
def State.codeChoices (s : State) (pa : Word) (w : Nat) : List Nat :=
  let n := s.isize.toNat
  w :: (s.syncedBytes pa n :: s.codeBytes pa n).map (assemble s.bigEndian)

/-- What a fetch delivers that found the word `w` at the physical address `pa`: where the code there was changed and the
sequence of R246 is not complete, the old or the new word, a choice of its own for each fetch. -/
def changedWord (pa : Word) (w : Nat) (s : State) : Acc Nat :=
  if s.codeChanged pa s.isize.toNat then
    let l := s.codeChoices pa w
    .ok (l.getD (s.fresh.toNat % l.length) w) (s.draw 1)
  else .ok w s

/-- Does a fetch of this address hit a line that LDIC downloaded, into the mini or the main instruction cache. -/
def State.hitsDownloaded (s : State) (a : Word) : Bool := (s.findMini a).isSome || (s.icache.find a).any (·.downloaded)

/-- The fetch of a translated address. A downloaded line has no memory behind it that could change: its word is delivered as it
is, whatever is stored at the physical address (61_debug R795, R799; DESIGN CHOICE, log 58). -/
def fetchAt (x : Xlat) (a : Word) (s : State) : Acc Nat :=
  if s.hitsDownloaded a then fetchHeld x a s else (fetchHeld x a s).bind (changedWord x.pa)

/-- The pc as a fetch address: bits 1:0 in ARM state, bit 0 in Thumb state, read as zero (10_state R34). -/
def State.fetchPc (s : State) : Word := if s.thumb then s.pc &&& 0xFFFFFFFE else s.pc &&& 0xFFFFFFFC

/-- The address the instruction caches see: the MVA, but in Special Debug State the address itself (61_debug R752). -/
def State.fetchAddress (s : State) : Word := if s.dbg.sds then s.fetchPc else s.mvaOf s.fetchPc

/-- Fetch the word at the pc. The instruction MMU's faults are instruction MMU aborts (60_exceptions R711); but a multi-bit ECC
error on the walk is a data abort (R273; 62_platform R856), and so may a bus abort of the walk be (R854; log 27). -/
def fetchWord (s : State) : Acc Nat :=
  let a := s.fetchAddress
  if s.dbg.sds then fetchAt { pa := a, x := false, c := true, b := false, p := false } a s
  else
    match translate true a false s.priv s with
    | .ok x s1 => fetchAt x a s1
    | .abort f s1 => if f.fetchIsData then .abort f s1 else fetchAbort .instrMmu a s1
    | .fault e => .fault e
    | .refused e => .refused e

/-- Where in memory the next fetch reads. -/
def State.fetchPa (s : State) : Word :=
  if s.dbg.sds then s.fetchAddress
  else
    match translate true s.fetchAddress false s.priv s with
    | .ok x _ => x.pa
    | .abort _ _ => s.fetchAddress
    | .fault _ => s.fetchAddress
    | .refused _ => s.fetchAddress

/-- Where the instruction at the pc is fetched. -/
def State.fetchPlace (s : State) : FetchPlace :=
  { thumb := s.thumb, big := s.bigEndian, sds := s.dbg.sds, downloaded := s.hitsDownloaded s.fetchAddress, pa := s.fetchPa }

/-! ## The branch target buffer (21_mmu R330 to R332) -/

/-- Control.Z. -/
def State.btbOn (s : State) : Bool := s.cp15.control.getLsbD 11

/-- Index: address[8:2]. -/
def btbIndex (a : Word) : BitVec 7 := a.extractLsb' 2 7
/-- Tag: address[31:9,1]. -/
def btbTag (a : Word) : BitVec 24 := a.extractLsb' 9 23 ++ a.extractLsb' 1 1

/-- The entry of a branch. -/
def State.btbFind (s : State) (a : Word) : Option BtbEntry :=
  s.btb.find? fun e => e.index == btbIndex a && e.tag == btbTag a

/-- One step towards strongly taken, or strongly not taken (R330). -/
def History.step (h : History) (taken : Bool) : History :=
  match h, taken with
  | .sn, true => .wn | .wn, true => .wt | .wt, true => .st | .st, true => .st
  | .sn, false => .sn | .wn, false => .sn | .wt, false => .wn | .st, false => .wt

/-- The predicted target, when the buffer predicts the branch taken. -/
def State.btbPredict (s : State) (a : Word) : Option Word :=
  if s.btbOn then
    match s.btbFind a with
    | some e =>
      (match e.history with
       | .wt => some (e.target ++ 0#1) | .st => some (e.target ++ 0#1) | .sn => none | .wn => none)
    | none => none
  else none

/-- Replace the entry at its index. -/
def btbPut (b : List BtbEntry) (e : BtbEntry) : List BtbEntry := e :: b.filter fun x => !(x.index == e.index)

/-- A B or BL of encoding `word` at the pc executed: PMU events 0x5 and, when the prediction was wrong, 0x6; with Z = 1 the
history is updated, or a new entry stored for a taken branch (R330; log 36). -/
def State.recordBranch (s : State) (word : Word) (taken : Bool) (target : Word) : State :=
  let right := match s.btbPredict s.pc with
    | some t => taken && t == target
    | none => !taken
  let s1 := s.note 0x05
  let s2 := if right then s1 else s1.note 0x06
  if s.btbOn then
    match s.btbFind s.pc with
    | some e => { s2 with btb := btbPut s2.btb { e with history := e.history.step taken } }
    | none =>
      if taken then
        { s2 with btb := btbPut s2.btb { index := btbIndex s.pc, tag := btbTag s.pc, target := target.extractLsb' 1 31,
                                         history := .wt, word := word, place := s.fetchPlace } }
      else s2
  else s2

/-- THE HAZARD OF A STALE ENTRY (20_memory R246, 42_arm R468, U3): where the buffer still holds the branch that stood at
the pc before the code there was rewritten, the fetch delivers the old word or the new one, a free choice. A word that differs
because it comes from another place (another mapping, the debug handler) is no rewrite: prediction then changes timing only
(R330). -/
def staleWord (w : Nat) (s : State) : Acc Nat :=
  if s.btbOn then
    match s.btbFind s.pc with
    | some e =>
      if e.place == s.fetchPlace && !(e.word == BitVec.ofNat 32 w) then
        .ok (if s.fresh.getLsbD 0 then e.word.toNat else w) (s.draw 1)
      else .ok w s
    | none => .ok w s
  else .ok w s

/-- Fetch the instruction at the pc. -/
def fetch (s : State) : Acc Nat := (fetchWord s).bind staleWord

/-- Invalidate Branch Target Buffer (R332). -/
def State.invalidateBtb (s : State) : State := { s with btb := [] }

/-! ## Instruction cache functions (21_mmu R305 to R308, 61_debug R796) -/

/-- Invalidate I cache & BTB (R305): locked lines and the mini instruction cache are not affected. What external memory
holds by now is the code that fetches see (20_memory R246; log 58). -/
def State.invalidateICache (s : State) : State :=
  { s with icache := s.icache.invalidateUnlocked, lockPhase := .fresh, fetchBufs := .empty, btb := [],
           synced := s.mem, overwritten := [] }

/-- Invalidate one line of the instruction cache and of the mini instruction cache (R306; 61_debug R796). A locked
line: U7. The fetch buffers are left (log 35). -/
def State.invalidateILine (s : State) (mva : Word) : State :=
  let locked := match s.icache.find mva with
    | some l => l.locked
    | none => false
  { s with icache := if locked && !Config.invalidateHitsLockedLine then s.icache else s.icache.invalidateLine mva
           minic := s.minic.invalidateLine mva }

/-- The requirements of the lock function that the machine can see (R307, R110, U8): the cache enabled, the MMU
enabled, the lock routine itself fetched from non-cacheable memory, and no cacheable code fetched between an earlier lock and
this one without an invalidation of the cache (log 52). -/
def State.icacheLockAllowed (s : State) : Bool :=
  s.icacheOn && s.mmuOn
    && (s.itlb.entries.any fun e => e.hits (s.mvaOf s.pc) && !e.c)
    && !(s.lockPhase == .spoiled)

/-- `FetchAndLockI` (R307). A fault of the fetch is a Lock Abort, a precise data abort (60_exceptions R713). A line that is
already in another way is placed all the same, and the new copy is the one found (DESIGN CHOICE, log 52). The line read counts
as PMU event 0x0, for such a line too (DESIGN CHOICE, log 37). It goes into the cache and leaves both fetch buffers as they are,
where R303 gives each external fetch request a buffer and R307 names none (DESIGN CHOICE, log 35). -/
def fetchAndLockI (rd : Word) (s : State) : Acc Unit :=
  let mva := rd &&& 0xFFFFFFE0
  if !s.icacheLockAllowed then .fault .icacheLockMisused
  else
    match translate true mva false s.priv s with
    | .ok x s1 =>
      if !x.c then .fault .icacheLockMisused
      else
        (busReadLine x.pa x.p (s1.note 0x00)).bind fun r s2 =>
          match r.bytes with
          | none => .abort { code := .lock, mva := mva, domain := 0 } s2
          | some bs =>
            let v := s2.icache.victimLock (setOf mva)
            let l : CacheLine := { set := setOf mva, way := v.way, tag := tagOf mva, valid := true, locked := v.locked,
                                   dirtyLo := false, dirtyHi := false, pa := x.pa &&& 0xFFFFFFE0, ecc := x.p, bad := 0,
                                   data := lineOfBytes bs, downloaded := false }
            .ok () { s2 with icache := (s2.icache.put l).setRr (setOf mva) v.next, lockPhase := .locking }
    | .abort f s1 => .abort { f with code := .lock } s1
    | .fault e => .fault e
    | .refused e => .refused e

/-- Unlock Instruction cache (R308). -/
def State.unlockICache (s : State) : State := { s with icache := s.icache.unlock }

end Sys2Proof.Machine
end

