-- ==== Sys2Proof/Machine/Units.lean ====
section
/-!
DEFINITION. The units beside the core: interrupt requests (60_exceptions R700), the performance monitor's counting
(62_platform R831), the trace buffer (61_debug R780 to R786), breakpoint and vector trap conditions (61_debug R755 to
R757).
-/

namespace Sys2Proof.Machine

/-! ## Interrupt requests -/

/-- `pmu_i` (62_platform R835). -/
def State.pmuRequest (s : State) : Bool :=
  let p := s.pmu.pmnc
  (p.getLsbD 10 && p.getLsbD 6) || (p.getLsbD 9 && p.getLsbD 5) || (p.getLsbD 8 && p.getLsbD 4)

/-- `bcu_i` (62_platform R858, D28). -/
def State.bcuRequest (s : State) : Bool :=
  let c := s.bcu.bcuctl
  c.getLsbD 0 && (c.getLsbD 30 || c.getLsbD 29 || c.getLsbD 28)

/-- `FIQ_internal` (60_exceptions R700). -/
def State.fiqInternal (s : State) : Bool :=
  let m := s.icu.intctl
  let t := s.icu.intstr
  (s.icu.fiqPin && m.getLsbD 0) || (s.bcuRequest && m.getLsbD 3 && t.getLsbD 1)
    || (s.pmuRequest && m.getLsbD 2 && t.getLsbD 0)

/-- `IRQ_internal` (60_exceptions R700). -/
def State.irqInternal (s : State) : Bool :=
  let m := s.icu.intctl
  let t := s.icu.intstr
  (s.icu.irqPin && m.getLsbD 1) || (s.bcuRequest && m.getLsbD 3 && !t.getLsbD 1)
    || (s.pmuRequest && m.getLsbD 2 && !t.getLsbD 0)

/-! ## The performance monitor (62_platform R831) -/

/-- A counter after `k` counts, and whether it rolled over. -/
def bump (c : Word) (k : Nat) : Word × Bool := (BitVec.ofNat 32 (c.toNat + k), decide (2 ^ 32 ≤ c.toNat + k))

/-- The events counted exactly: those the model meets (12_state R145). -/
def eventExact (ev : BitVec 8) : Bool :=
  ev == 0x00 || ev == 0x03 || ev == 0x04 || ev == 0x05 || ev == 0x06 || ev == 0x0A || ev == 0x0B || ev == 0x0C
    || ev == 0x0D || ev == 0x10 || ev == 0x12 || ev == 0x14 || ev == 0x15 || ev == 0x16

/-- How often an event happened in the step: exact where the model meets it, 0x7 once for an instruction executed, else
(duration events, reserved numbers: U54) the free value given. -/
def State.eventCount (s : State) (ev : BitVec 8) (executed : Bool) (free : Word) : Nat :=
  if ev = 0x07 then executed.toNat
  else if eventExact ev then s.scratch.events.count ev
  else free.toNat

/-- PMNC.E. -/
def State.pmuOn (s : State) : Bool := s.pmu.pmnc.getLsbD 0

/-- Count the step. CCNT advances by a free positive number of clocks, divided by 64 when PMNC.D = 1 (R831; log 37). -/
def State.pmuCount (s : State) (executed : Bool) : State :=
  let p := s.pmu
  let clocks := (Config.freeWord s.freeCount).toNat + 1
  let div := p.pmnc.getLsbD 3
  let k := if div then (p.prescale.toNat + clocks) / 64 else clocks
  let c := bump p.ccnt k
  let n0 := bump p.pmn0 (s.eventCount (p.pmnc.extractLsb' 12 8) executed (Config.freeWord (s.freeCount + 1)))
  let n1 := bump p.pmn1 (s.eventCount (p.pmnc.extractLsb' 20 8) executed (Config.freeWord (s.freeCount + 2)))
  let f := p.pmnc ||| (if c.2 then 0x400 else 0) ||| (if n1.2 then 0x200 else 0) ||| (if n0.2 then 0x100 else 0)
  ({ s with pmu := { pmnc := f, ccnt := c.1, pmn0 := n0.1, pmn1 := n1.1,
                     prescale := if div then BitVec.ofNat 6 (p.prescale.toNat + clocks) else p.prescale } }
    : State).draw 3

/-! ## The power mode at the pins (62_platform R881, R884) -/

/-- PWRSTATUS[1:0] in a power mode. -/
def PowerMode.status : PowerMode → BitVec 2
  | .active => 0b00 | .idle => 0b01 | .sleep => 0b11

/-- The output PWRSTATUS[1:0]. -/
def State.pwrstatus (s : State) : BitVec 2 := s.power.mode.status

/-- RESETOUT#, the output pin: asserted with RESET# and deasserted when the reset is complete, before execution starts and
whether or not hold_rst then holds the core (70_reset R900). The internal timer, some two thousand CLK cycles for the PLL, takes
no step of its own (log 49). -/
def State.resetout (s : State) : Bool := s.resetPin

/-! ## The trace buffer (61_debug R780 to R786) -/

/-- Is the trace buffer enabled (R742, R780). -/
def State.traceOn (s : State) : Bool := s.dbg.dcsr.getLsbD 0 && s.ge

/-- `TbPush`. -/
def Trace.push (t : Trace) (b : Byte) : Trace :=
  { t with bytes := t.bytes.drop 1 ++ [b], written := t.written + 1, sinceChk := t.sinceChk.map (· + 1) }

/-- A message byte: its high bits and the instruction count. -/
def Trace.message (t : Trace) (high : BitVec 4) : Byte := high ++ t.count

/-- An instruction without a control flow change (R785). -/
def Trace.plain (t : Trace) : Trace :=
  if t.count = 15 then { t.push 0xFF with count := 0 } else { t with count := t.count + 1 }

/-- An exception message (R781). -/
def Trace.exceptionMsg (t : Trace) (vvv : BitVec 3) : Trace :=
  { t.push (t.message (0#1 ++ vvv)) with count := 0 }

/-- A checkpointed message's registers: CHKPT1 <- CHKPT0, CHKPT0 <- the target (R783). -/
def Trace.checkpoint (t : Trace) (target : Word) : Trace :=
  { t with chkpt1 := t.chkpt0, chkpt0 := target, sinceChk := some 0 }

/-- A direct branch message (R782, R783). -/
def Trace.direct (t : Trace) (target : Word) : Trace :=
  if Config.checkpointNow t.written t.sinceChk
  then { (t.push (t.message 0b1100)).checkpoint target with count := 0 }
  else { t.push (t.message 0b1000) with count := 0 }

/-- An indirect branch message: the target's four bytes, the most significant first, then the message byte
(R782, R783). -/
def Trace.indirect (t : Trace) (target : Word) : Trace :=
  let u := (((t.push (target.extractLsb' 24 8)).push (target.extractLsb' 16 8)).push (target.extractLsb' 8 8)).push
    (target.extractLsb' 0 8)
  if Config.checkpointNow t.written t.sinceChk
  then { (u.push (t.message 0b1101)).checkpoint target with count := 0 }
  else { u.push (t.message 0b1001) with count := 0 }

/-- What a step writes to the trace buffer. An aborting access that `counted` marks is counted first (R815). -/
def Trace.record (t : Trace) (f : Flow) : Trace :=
  match f with
  | .seq => t.plain
  | .direct a => t.direct a
  | .indirect a => t.indirect a
  | .exception vvv counted => if counted then t.plain.exceptionMsg vvv else t.exceptionMsg vvv
  | .debug => t

/-- Record the step's control flow; in fill-once mode ask for the full break when the buffer is full (R786). -/
def State.traceStep (s : State) : State :=
  let t := s.trace.record s.scratch.flow
  { s with trace := t
           dbg := { s.dbg with tbFull := s.dbg.tbFull
             || (s.dbg.dcsr.getLsbD 1 && decide (Config.traceFullThreshold ≤ t.written)) } }

/-! ## Debug conditions (61_debug R755 to R757) -/

/-- `MayTakeAsyncBreak` (R756). All events are disabled in Special Debug State (R752; 60_exceptions R721), so also where the
debugger has cleared H there, a case R756's pseudocode leaves to the mode alone (DESIGN CHOICE, log 29). -/
def State.mayTakeBreak (s : State) : Bool :=
  s.ge && !s.dbg.sds && (s.haltMode || !(s.mode == modeAbt))

/-- `IBMatch`. -/
def State.ibMatch (s : State) (r : Word) : Bool :=
  let m := s.mvaOf s.pc
  r.getLsbD 0 && (if s.thumb then r.extractLsb' 1 31 == m.extractLsb' 1 31
                  else r.extractLsb' 2 30 == m.extractLsb' 2 30)

/-- Does an instruction breakpoint fire at the pc (R757). -/
def State.instrBreak (s : State) : Bool :=
  s.ge && !s.dbg.sds && (s.ibMatch s.cp15.ibcr0 || s.ibMatch s.cp15.ibcr1)

/-- The trap bits of DCSR and their vector offsets, reset apart (R755). -/
def trapTable : List (Nat × Word) := [(17, 0x04), (18, 0x08), (19, 0x0C), (20, 0x10), (22, 0x18), (23, 0x1C)]

/-- The method of entry of a vector trap armed at the pc (R755). -/
def State.vectorTrap (s : State) : Option (BitVec 3) :=
  if !s.haltMode || s.dbg.sds then none
  else if s.pc = s.vectorBase && s.dbg.dcsr.getLsbD 16 then some Config.resetTrapMoe
  else if s.ge && trapTable.any fun e => s.dbg.dcsr.getLsbD e.1 && s.pc == s.vectorBase + e.2 then some 0b101
  else none

end Sys2Proof.Machine
end

