-- ==== Sys2Proof/Machine/Cp.lean ====
section
/-!
DEFINITION. The registers of coprocessors 15, 14 and 13 (11_state_cp15, 12_state_cp14_cp13) as MRC, MCR, LDC and STC
read and write them (44_coprocessor R530 to R541). Reserved bits: a write to them is ignored; a bit the manual calls
'read unpredictable' reads as a free value (U18, log 33).
-/

namespace Sys2Proof.Machine

/-- A register read whose bits in `mask` are free. -/
def freeBits (v mask : Word) (s : State) : Acc Word := .ok (v ||| (s.fresh &&& mask)) (s.draw 1)

/-! ## Access checks (44_coprocessor R530, R531) -/

/-- Why a coprocessor may not be used now: in User mode 14 and 15, without its CPAR bit 0 and 13. -/
def State.cpDenied (s : State) (cp : BitVec 4) : Bool :=
  if cp = 15 ∨ cp = 14 then !s.priv
  else if cp = 13 then !s.cp15.cpar.getLsbD 13
  else if cp = 0 then !s.cp15.cpar.getLsbD 0
  else true

/-- Halt mode outside Special Debug State: software cannot access DCSR and the breakpoint registers (11_state R129,
U40). -/
def State.debugLocked (s : State) : Bool := s.haltMode && !s.dbg.sds

/-- Is the register DCSR or a breakpoint register. -/
def isDebugRegister (cp crn : BitVec 4) : Bool := (cp == 14 && crn == 10) || (cp == 15 && crn == 14)

/-- Does the access take the undefined-instruction exception by U40. -/
def State.debugAccessTraps (s : State) (cp crn : BitVec 4) : Bool :=
  isDebugRegister cp crn && s.debugLocked && Config.haltDebugAccessTraps

/-! ## CP15 (11_state_cp15) -/

/-- The ID register (R82). -/
def idRegister : Word := 0x69052000 + (Config.stepping.revision).setWidth 32

/-- The Cache Type register (R83). -/
def cacheTypeRegister : Word := 0x0B1AA1AA

/-- Control: the writable bits V I Z R S B C A M (R84). -/
def controlMask : Word := 0x00003B87

/-- Write Control: bits 6:3 are always one (R84). -/
def State.writeControl (s : State) (v : Word) : State :=
  { s with cp15 := { s.cp15 with control := (v &&& controlMask) ||| 0x78 } }

/-- Write Auxiliary Control (R86); MD may not change while the mini-data cache holds valid lines (R87). -/
def writeAuxControl (v : Word) (s : State) : Acc Unit :=
  let w := v &&& 0x33
  if (w.extractLsb' 4 2 != s.md) && s.minid.lines.any (fun l => l.valid) then .fault .mdChanged
  else .ok () { s with cp15 := { s.cp15 with auxControl := w } }

/-- Write the PID: the BTB is invalidated (R122, R124). -/
def State.writePid (s : State) (v : Word) : State :=
  { s with cp15 := { s.cp15 with pid := v &&& 0xFE000000 }, btb := [] }

/-- Write CPAR; bits 12:1 have an undefined effect when set (R130). -/
def writeCpar (v : Word) (s : State) : Acc Unit :=
  if !(v &&& 0x1FFE == 0) then .fault .cparReserved
  else .ok () { s with cp15 := { s.cp15 with cpar := v &&& 0x2001 } }

/-- A cache function of register 7 (R94). -/
def cacheFunction (crm : BitVec 4) (op2 : BitVec 3) (v : Word) (s : State) : Acc Unit :=
  if crm = 7 ∧ op2 = 0 then .ok () s.invalidateICache.invalidateDCache
  else if crm = 5 ∧ op2 = 0 then .ok () s.invalidateICache
  else if crm = 5 ∧ op2 = 1 then .ok () (s.invalidateILine v)
  else if crm = 6 ∧ op2 = 0 then .ok () s.invalidateDCache
  else if crm = 6 ∧ op2 = 1 then .ok () (s.invalidateDLine v)
  else if crm = 10 ∧ op2 = 1 then cleanDLine v s
  else if crm = 10 ∧ op2 = 4 then .ok () s.drain
  else if crm = 5 ∧ op2 = 6 then .ok () s.invalidateBtb
  else if crm = 2 ∧ op2 = 5 then lineAllocate v s
  else .refused .noSuchRegister

/-- A TLB function of register 8 (R96). -/
def tlbFunction (crm : BitVec 4) (op2 : BitVec 3) (v : Word) (s : State) : Acc Unit :=
  if crm = 7 ∧ op2 = 0 then .ok () { s with itlb := s.itlb.invalidate, dtlb := s.dtlb.invalidate }
  else if crm = 5 ∧ op2 = 0 then .ok () { s with itlb := s.itlb.invalidate }
  else if crm = 5 ∧ op2 = 1 then .ok () { s with itlb := s.itlb.invalidateEntry v }
  else if crm = 6 ∧ op2 = 0 then .ok () { s with dtlb := s.dtlb.invalidate }
  else if crm = 6 ∧ op2 = 1 then .ok () { s with dtlb := s.dtlb.invalidateEntry v }
  else .refused .noSuchRegister

/-- A cache lock-down function of register 9 (R111, R114). Locking and unlocking a disabled cache is undefined (R110); a
write of L with the data cache disabled locks nothing yet and is done (DESIGN CHOICE, log 48). -/
def cacheLockFunction (crm : BitVec 4) (op2 : BitVec 3) (v : Word) (s : State) : Acc Unit :=
  if crm = 1 ∧ op2 = 0 then fetchAndLockI v s
  else if crm = 1 ∧ op2 = 1 then
    (if s.icacheOn then .ok () s.unlockICache else .fault .icacheLockMisused)
  else if crm = 2 ∧ op2 = 0 then .ok () { s with cp15 := { s.cp15 with dcacheLock := v.getLsbD 0 } }
  else if crm = 2 ∧ op2 = 1 then
    (if s.dcacheOn then .ok () s.unlockDCache else .fault .dcacheLockDisabled)
  else .refused .noSuchRegister

/-- A TLB lock-down function of register 10 (R117). -/
def tlbLockFunction (crm : BitVec 4) (op2 : BitVec 3) (v : Word) (s : State) : Acc Unit :=
  if crm = 4 ∧ op2 = 0 then translateAndLock true v s
  else if crm = 8 ∧ op2 = 0 then translateAndLock false v s
  else if crm = 4 ∧ op2 = 1 then
    (if s.mmuOn then .ok () { s with itlb := s.itlb.unlock } else .fault .tlbLockMmuOff)
  else if crm = 8 ∧ op2 = 1 then
    (if s.mmuOn then .ok () { s with dtlb := s.dtlb.unlock } else .fault .tlbLockMmuOff)
  else .refused .noSuchRegister

/-- Write an instruction breakpoint register (R126); enabling it with DCSR.GE = 0 is unpredictable (61_debug R742). -/
def writeIbcr (second : Bool) (v : Word) (s : State) : Acc Unit :=
  if v.getLsbD 0 && !s.ge then .fault .breakpointWhileDisabled
  else if second then .ok () { s with cp15 := { s.cp15 with ibcr1 := v } }
  else .ok () { s with cp15 := { s.cp15 with ibcr0 := v } }

/-- Write a breakpoint register (R125 to R129). In Halt mode outside Special Debug State the write is ignored (U40). -/
def writeBreakpoint (crm : BitVec 4) (v : Word) (s : State) : Acc Unit :=
  if crm = 8 ∨ crm = 9 ∨ crm = 0 ∨ crm = 3 ∨ crm = 4 then
    (if s.debugLocked then .ok () s
     else if crm = 8 then writeIbcr false v s
     else if crm = 9 then writeIbcr true v s
     else if crm = 0 then .ok () { s with cp15 := { s.cp15 with dbr0 := v } }
     else if crm = 3 then .ok () { s with cp15 := { s.cp15 with dbr1 := v } }
     else .ok () { s with cp15 := { s.cp15 with dbcon := v &&& 0x10F } })
  else .refused .noSuchRegister

/-- Write CP15 (R81). -/
def writeCp15 (crn crm : BitVec 4) (op2 : BitVec 3) (v : Word) (s : State) : Acc Unit :=
  let plain := crm = 0 ∧ op2 = 0
  if crn = 0 ∧ crm = 0 ∧ (op2 = 0 ∨ op2 = 1) then .ok () s
  else if crn = 1 ∧ plain then .ok () (s.writeControl v)
  else if crn = 1 ∧ crm = 0 ∧ op2 = 1 then writeAuxControl v s
  else if crn = 2 ∧ plain then .ok () { s with cp15 := { s.cp15 with ttbr := v &&& 0xFFFFC000 } }
  else if crn = 3 ∧ plain then .ok () { s with cp15 := { s.cp15 with dacr := v } }
  else if crn = 5 ∧ plain then .ok () { s with cp15 := { s.cp15 with fsr := v &&& 0x6FF } }
  else if crn = 6 ∧ plain then .ok () { s with cp15 := { s.cp15 with far := v } }
  else if crn = 7 then cacheFunction crm op2 v s
  else if crn = 8 then tlbFunction crm op2 v s
  else if crn = 9 then cacheLockFunction crm op2 v s
  else if crn = 10 then tlbLockFunction crm op2 v s
  else if crn = 13 ∧ plain then .ok () (s.writePid v)
  else if crn = 14 then writeBreakpoint crm v s
  else if crn = 15 ∧ crm = 1 ∧ op2 = 0 then writeCpar v s
  else .refused .noSuchRegister

/-- Read a breakpoint register (R125 to R128). -/
def readBreakpoint (crm : BitVec 4) (s : State) : Acc Word :=
  if crm = 8 then .ok s.cp15.ibcr0 s
  else if crm = 9 then .ok s.cp15.ibcr1 s
  else if crm = 0 then .ok s.cp15.dbr0 s
  else if crm = 3 then .ok s.cp15.dbr1 s
  else if crm = 4 then .ok s.cp15.dbcon s
  else .refused .noSuchRegister

/-- Read CP15 (R81); the function registers are write only, but for the data cache lock register (R112). -/
def readCp15 (crn crm : BitVec 4) (op2 : BitVec 3) (s : State) : Acc Word :=
  let plain := crm = 0 ∧ op2 = 0
  if crn = 0 ∧ plain then .ok idRegister s
  else if crn = 0 ∧ crm = 0 ∧ op2 = 1 then .ok cacheTypeRegister s
  else if crn = 1 ∧ plain then freeBits s.cp15.control 0xFFFFC000 s
  else if crn = 1 ∧ crm = 0 ∧ op2 = 1 then freeBits s.cp15.auxControl 0xFFFFFFCC s
  else if crn = 2 ∧ plain then freeBits s.cp15.ttbr 0x00003FFF s
  else if crn = 3 ∧ plain then .ok s.cp15.dacr s
  else if crn = 5 ∧ plain then freeBits s.cp15.fsr 0xFFFFF800 s
  else if crn = 6 ∧ plain then .ok s.cp15.far s
  else if crn = 9 ∧ crm = 2 ∧ op2 = 0 then freeBits (if s.cp15.dcacheLock then 1 else 0) 0xFFFFFFFE s
  else if crn = 13 ∧ plain then .ok s.cp15.pid s
  else if crn = 14 then readBreakpoint crm s
  else if crn = 15 ∧ crm = 1 ∧ op2 = 0 then freeBits s.cp15.cpar 0xFFFF0000 s
  else .refused .noSuchRegister

/-! ## CP14 (12_state R140 to R157) -/

/-- PMNC's stored bits (R142): evtCount1, evtCount0, the flags, the enables, D, E. -/
def pmncMask : Word := 0x0FFFF779

/-- Write PMNC (62_platform R832). The reset of CCNT by C also clears the phase of its division by 64, and a change of D or
a write of CCNT keeps the phase: the manual says neither (DESIGN CHOICE, log 5). -/
def State.writePmnc (s : State) (v : Word) : State :=
  let flags := s.pmu.pmnc &&& 0x700 &&& ~~~v
  { s with pmu := { pmnc := (v &&& 0x0FFFF079) ||| flags
                    ccnt := if v.getLsbD 2 then 0 else s.pmu.ccnt
                    pmn0 := if v.getLsbD 1 then 0 else s.pmu.pmn0
                    pmn1 := if v.getLsbD 1 then 0 else s.pmu.pmn1
                    prescale := if v.getLsbD 2 then 0 else s.pmu.prescale } }

/-- Write CCLKCFG (R147; 62_platform R886). -/
def writeCclkcfg (v : Word) (s : State) : Acc Unit :=
  let f := v.extractLsb' 0 4
  if f = 0 ∨ 10 ≤ f.toNat then .fault .clockReserved
  else .ok () { s with power := { s.power with cclkcfg := f } }

/-- Write PWRMODE (R148; 62_platform R882, R883). -/
def writePwrmode (v : Word) (s : State) : Acc Unit :=
  let m := v.extractLsb' 0 2
  if m = 0 then .ok () s
  else if m = 1 then .ok () { s with power := { s.power with mode := .idle } }
  else if m = 2 then .fault .powerModeReserved
  else .ok () { s with power := { s.power with mode := .sleep } }

/-- TXRXCTRL bits (R154). -/
def State.rr (s : State) : Bool := s.dbg.txrxctrl.getLsbD 31
/-- TX register ready (R154). -/
def State.tr (s : State) : Bool := s.dbg.txrxctrl.getLsbD 28

/-- Write TX (61_debug R766, D26): dropped while TR = 1, and on the A-step while RR = 1 (R816); TR is set. -/
def State.writeTx (s : State) (v : Word) : State :=
  if s.tr || (Config.stepping.isA && s.rr) then s
  else { s with dbg := { s.dbg with tx := v, txrxctrl := setBit s.dbg.txrxctrl 28 true } }

/-- DCSR bits that software writes: GE, SA, MOE, M, E (R150). -/
def dcsrSoftMask : Word := 0x8000003F

/-- DCSR: the reserved bits 29:24, 21 and 15:6, undefined when read (12_state R150). -/
def dcsrReserved : Word := 0x3F20FFC0

/-- Write DCSR by software (R150); enabling the trace buffer starts its counts anew (log 38). In Halt mode outside
Special Debug State the write is ignored (U40). -/
def State.writeDcsr (s : State) (v : Word) : State :=
  if s.debugLocked then s
  else
    let s1 : State := { s with dbg := { s.dbg with dcsr := mergeMask s.dbg.dcsr dcsrSoftMask v } }
    if s1.traceOn && !s.traceOn then
      { s1 with trace := { s1.trace with count := 0, written := 0, sinceChk := none } }
    else s1

/-- Write CP14 (R141). -/
def writeCp14 (crn : BitVec 4) (v : Word) (s : State) : Acc Unit :=
  if crn = 0 then .ok () (s.writePmnc v)
  else if crn = 1 then .ok () { s with pmu := { s.pmu with ccnt := v } }
  else if crn = 2 then .ok () { s with pmu := { s.pmu with pmn0 := v } }
  else if crn = 3 then .ok () { s with pmu := { s.pmu with pmn1 := v } }
  else if crn = 6 then writeCclkcfg v s
  else if crn = 7 then writePwrmode v s
  else if crn = 8 then .ok () (s.writeTx v)
  else if crn = 9 then .ok () s
  else if crn = 10 then .ok () (s.writeDcsr v)
  else if crn = 11 then .refused .tbregWrite
  else if crn = 12 then
    (if s.traceOn then .fault .traceBusy else .ok () { s with trace := { s.trace with chkpt0 := v } })
  else if crn = 13 then
    (if s.traceOn then .fault .traceBusy else .ok () { s with trace := { s.trace with chkpt1 := v } })
  else if crn = 14 then
    .ok () { s with dbg := { s.dbg with txrxctrl := mergeMask s.dbg.txrxctrl 0x40000000 v } }
  else .refused .noSuchRegister

/-- Read TBREG (R155; 61_debug R784): the oldest byte, removed; a zero byte enters at the other end. -/
def readTbreg (s : State) : Acc Word :=
  if s.traceOn then .fault .traceBusy
  else .ok ((s.trace.bytes.headD 0).setWidth 32)
    { s with trace := { s.trace with bytes := s.trace.bytes.drop 1 ++ [0] } }

/-- Read CP14 (R141). -/
def readCp14 (crn : BitVec 4) (s : State) : Acc Word :=
  if crn = 0 then freeBits s.pmu.pmnc 0xF0000886 s
  else if crn = 1 then .ok s.pmu.ccnt s
  else if crn = 2 then .ok s.pmu.pmn0 s
  else if crn = 3 then .ok s.pmu.pmn1 s
  else if crn = 6 then freeBits (s.power.cclkcfg.setWidth 32) 0xFFFFFFF0 s
  else if crn = 7 then freeBits 0 0xFFFFFFFC s
  else if crn = 8 then .ok s.dbg.tx s
  else if crn = 9 then .ok s.dbg.rx { s with dbg := { s.dbg with txrxctrl := setBit s.dbg.txrxctrl 31 false } }
  else if crn = 10 then freeBits s.dbg.dcsr dcsrReserved s
  else if crn = 11 then readTbreg s
  else if crn = 12 then (if s.traceOn then .fault .traceBusy else .ok s.trace.chkpt0 s)
  else if crn = 13 then (if s.traceOn then .fault .traceBusy else .ok s.trace.chkpt1 s)
  else if crn = 14 then .ok s.dbg.txrxctrl s
  else .refused .noSuchRegister

/-! ## CP13 (12_state R158 to R175) -/

/-- INTSRC: the live sources (R161). -/
def State.intsrc (s : State) : Word :=
  (BitVec.ofBool s.icu.fiqPin ++ BitVec.ofBool s.icu.irqPin ++ BitVec.ofBool s.bcuRequest
    ++ BitVec.ofBool s.pmuRequest) ++ 0#28

/-- Write BCUCTL (R170): a 1 clears EV, E1, E0; EE, SC, SR take the value. SC and SR change only while EE = 0. -/
def writeBcuctl (v : Word) (s : State) : Acc Unit :=
  let c := s.bcu.bcuctl
  if c.getLsbD 3 && !((v ^^^ c) &&& 0x5 == 0) then .fault .bcuMisprogrammed
  else .ok () { s with bcu := { s.bcu with bcuctl := (c &&& 0x70000000 &&& ~~~v) ||| (v &&& 0xD) } }

/-- Write ECTST (R174): DWE exists from C-0 on and changes at most once, while EE = 0. -/
def writeEctst (v : Word) (s : State) : Acc Unit :=
  let dwe := s.bcu.ectst.getLsbD 31
  let set := { s with bcu := { s.bcu with ectst := mergeMask s.bcu.ectst 0xFF v } }
  if !Config.stepping.hasDwe || v.getLsbD 31 == dwe then .ok () set
  else if s.bcu.bcuctl.getLsbD 3 || s.bcu.dweWritten then .fault .bcuMisprogrammed
  else .ok () { set with bcu := { set.bcu with ectst := setBit set.bcu.ectst 31 (v.getLsbD 31), dweWritten := true } }

/-- Write CP13 (R159). -/
def writeCp13 (crn crm : BitVec 4) (v : Word) (s : State) : Acc Unit :=
  if crm = 0 then
    (if crn = 0 then .ok () { s with icu := { s.icu with intctl := v &&& 0xF } }
     else if crn = 4 then .ok () s
     else if crn = 8 then .ok () { s with icu := { s.icu with intstr := v &&& 0x3 } }
     else .refused .noSuchRegister)
  else if crm = 1 then
    (if crn = 0 then writeBcuctl v s
     else if crn = 1 then .ok () { s with bcu := { s.bcu with bcumod := v &&& 0x1 } }
     else if crn = 4 ∨ crn = 5 ∨ crn = 6 ∨ crn = 7 then .ok () s
     else if crn = 8 then writeEctst v s
     else .refused .noSuchRegister)
  else .refused .noSuchRegister

/-- Read CP13 (R159). BCUCTL.TP reads 0: requests complete in their step (62_platform R850). -/
def readCp13 (crn crm : BitVec 4) (s : State) : Acc Word :=
  if crm = 0 then
    (if crn = 0 then freeBits s.icu.intctl 0xFFFFFFF0 s
     else if crn = 4 then freeBits s.intsrc 0x0FFFFFFF s
     else if crn = 8 then freeBits s.icu.intstr 0xFFFFFFFC s
     else .refused .noSuchRegister)
  else if crm = 1 then
    (if crn = 0 then freeBits s.bcu.bcuctl 0x0FFFFFF2 s
     else if crn = 1 then freeBits s.bcu.bcumod 0xFFFFFFFE s
     else if crn = 4 then freeBits s.bcu.elog0 0x1FFFFF00 s
     else if crn = 5 then freeBits s.bcu.elog1 0x1FFFFF00 s
     else if crn = 6 then .ok s.bcu.ecar0 s
     else if crn = 7 then .ok s.bcu.ecar1 s
     else if crn = 8 then freeBits (s.bcu.ectst &&& 0xFF) 0xFFFFFF00 s
     else .refused .noSuchRegister)
  else .refused .noSuchRegister

/-! ## All coprocessors (44_coprocessor R532, R533) -/

/-- `CoprocessorWrite` for coprocessors 15, 14 and 13. -/
def cpWrite (cp crn crm : BitVec 4) (op2 : BitVec 3) (v : Word) (s : State) : Acc Unit :=
  if cp = 15 then writeCp15 crn crm op2 v s
  else if cp = 14 then writeCp14 crn v s
  else writeCp13 crn crm v s

/-- `CoprocessorRead` for coprocessors 15, 14 and 13. -/
def cpRead (cp crn crm : BitVec 4) (op2 : BitVec 3) (s : State) : Acc Word :=
  if cp = 15 then readCp15 crn crm op2 s
  else if cp = 14 then readCp14 crn s
  else readCp13 crn crm s

end Sys2Proof.Machine
end

