-- ==== Sys2Proof/Machine/Operands.lean ====
section
/-!
DEFINITION. The operand forms: the shifter operand (40_arm R381), the addressing modes 2, 3, 4 and 5 (43_arm R481,
R482, R500; 44_coprocessor R540) and their unpredictable register combinations.
-/

namespace Sys2Proof.Machine

/-! ## The shifter operand (40_arm R381) -/

/-- `(shifter_operand, shifter_carry_out)`. -/
structure Shifted where
  value : Word
  carry : Bool
  deriving DecidableEq, Repr

/-- A value shifted by an immediate amount; `c` is CPSR.C. LSR #0 and ASR #0 mean 32, ROR #0 is RRX. -/
def shiftByImm (k : ShiftKind) (n : Nat) (m : Word) (c : Bool) : Shifted :=
  match k with
  | .lsl => if n = 0 then ⟨m, c⟩ else ⟨m <<< n, m.getLsbD (32 - n)⟩
  | .lsr => if n = 0 then ⟨0, m.getLsbD 31⟩ else ⟨m >>> n, m.getLsbD (n - 1)⟩
  | .asr => if n = 0 then ⟨m.sshiftRight 31, m.getLsbD 31⟩ else ⟨m.sshiftRight n, m.getLsbD (n - 1)⟩
  | .ror => if n = 0 then ⟨BitVec.ofBool c ++ m.extractLsb' 1 31, m.getLsbD 0⟩
            else ⟨m.rotateRight n, m.getLsbD (n - 1)⟩

/-- A value shifted by a register's low byte `n`. -/
def shiftByReg (k : ShiftKind) (n : Nat) (m : Word) (c : Bool) : Shifted :=
  if n = 0 then ⟨m, c⟩
  else
    match k with
    | .lsl => if n < 32 then ⟨m <<< n, m.getLsbD (32 - n)⟩
              else if n = 32 then ⟨0, m.getLsbD 0⟩ else ⟨0, false⟩
    | .lsr => if n < 32 then ⟨m >>> n, m.getLsbD (n - 1)⟩
              else if n = 32 then ⟨0, m.getLsbD 31⟩ else ⟨0, false⟩
    | .asr => if n < 32 then ⟨m.sshiftRight n, m.getLsbD (n - 1)⟩ else ⟨m.sshiftRight 31, m.getLsbD 31⟩
    | .ror => if n % 32 = 0 then ⟨m, m.getLsbD 31⟩
              else ⟨m.rotateRight (n % 32), m.getLsbD (n % 32 - 1)⟩

/-- A register shifted by an immediate, as an operand. -/
def State.immShift (s : State) (sh : ImmShift) : Shifted :=
  shiftByImm sh.kind sh.amount.toNat (s.reg sh.rm) (flagC s.cpsr)

/-- A register shifted by a register, as an operand. -/
def State.regShift (s : State) (sh : RegShift) : Shifted :=
  shiftByReg sh.kind ((s.reg sh.rs).toNat % 256) (s.reg sh.rm) (flagC s.cpsr)

/-- The value of a rotated immediate. -/
def rotImmValue (op : RotImm) : Word := (op.imm8.setWidth 32).rotateRight (2 * op.rot.toNat)

/-- A rotated immediate, as an operand. -/
def State.rotImm (s : State) (op : RotImm) : Shifted :=
  ⟨rotImmValue op, if op.rot = 0 then flagC s.cpsr else (rotImmValue op).getLsbD 31⟩

/-- Is one of the registers R15. -/
def anyR15 (rs : List Reg) : Bool := rs.any fun r => r == 15

/-- Run `k` unless a register is R15 where the instruction forbids it (U13). -/
def noR15 (rs : List Reg) (k : Out) : Out := if anyR15 rs then .refused .r15Operand else k

/-! ## Addressing modes 2 and 3 (43_arm R481, R482) -/

/-- `base` plus or minus `offset`. -/
def offsetBy (u : Bool) (base offset : Word) : Word := if u then base + offset else base - offset

/-- An address and what the base register becomes when the access succeeds. -/
structure Addr where
  addr : Word
  wb : Option Word
  deriving DecidableEq, Repr

/-- Write the base register back. -/
def Addr.apply (a : Addr) (rn : Reg) (s : State) : State :=
  match a.wb with
  | some w => s.setReg rn w
  | none => s

/-- Addressing mode 2 with its offset. -/
def State.mode2 (s : State) (a : Mode2) (offset : Word) : Addr :=
  let base := s.reg a.rn
  let indexed := offsetBy a.u base offset
  match a.index with
  | .offset => ⟨indexed, none⟩
  | .pre => ⟨indexed, some indexed⟩
  | .post => ⟨base, some indexed⟩

/-- Addressing mode 3 with its offset. P = 0 W = 1 is refused before (`mode3Refusal`). -/
def State.mode3 (s : State) (a : Mode3) (offset : Word) : Addr :=
  let base := s.reg a.rn
  let indexed := offsetBy a.u base offset
  if a.p then (if a.w then ⟨indexed, some indexed⟩ else ⟨indexed, none⟩) else ⟨base, some indexed⟩

/-- The register combinations with writeback that R481 calls UNPREDICTABLE. `rd`: the transferred registers. -/
def wbRefusal (wb post : Bool) (rn : Reg) (rd : List Reg) (rm : Option Reg) : Option Refusal :=
  if rm = some 15 then some .r15Operand
  else if wb && rn == 15 then some .r15Operand
  else if wb && rd.any (fun r => r == rn) then some .registerClash
  else if post && rm == some rn then some .registerClash
  else none

/-- The unpredictable combinations of mode 2. -/
def mode2Refusal (a : Mode2) (rd : Reg) (rm : Option Reg) : Option Refusal :=
  wbRefusal (a.index != .offset) (a.index == .post) a.rn [rd] rm

/-- The unpredictable combinations of mode 3. -/
def mode3Refusal (a : Mode3) (rd : List Reg) (rm : Option Reg) : Option Refusal :=
  if !a.p && a.w then some .indexingReserved else wbRefusal (!a.p || a.w) (!a.p) a.rn rd rm

/-- Run `k` unless the form is refused. -/
def unlessRefused (r : Option Refusal) (k : Out) : Out :=
  match r with
  | some e => .refused e
  | none => k

/-! ## Addressing mode 4 (43_arm R500) -/

/-- The registers of a list, lowest first. -/
def regList (list : BitVec 16) : List Reg :=
  ((List.range 16).filter fun i => list.getLsbD i).map fun i => BitVec.ofNat 4 i

/-- The lowest address of the transfer and the value written back, for `n` registers. -/
def mode4 (p u : Bool) (base : Word) (n : Nat) : Word × Word :=
  let sz : Word := BitVec.ofNat 32 (4 * n)
  match p, u with
  | false, true => (base, base + sz)
  | true, true => (base + 4, base + sz)
  | false, false => (base - sz + 4, base - sz)
  | true, false => (base - sz, base - sz)

/-! ## Addressing mode 5 (44_coprocessor R540) -/

/-- Addressing mode 5; the offset counts words. -/
def State.mode5 (s : State) (a : Mode5) (off : BitVec 8) : Addr :=
  let base := s.reg a.rn
  let indexed := offsetBy a.u base (off.setWidth 32 <<< 2)
  match a.p, a.w with
  | true, false => ⟨indexed, none⟩
  | true, true => ⟨indexed, some indexed⟩
  | false, true => ⟨base, some indexed⟩
  | false, false => ⟨base, none⟩

/-- The reserved forms of LDC and STC (30_encoding R356, U15) and writeback to R15. -/
def mode5Refusal (a : Mode5) : Option Refusal :=
  if a.n then some .ldcFormReserved
  else if !a.p && !a.w && !a.u then some .ldcFormReserved
  else if a.w && a.rn == 15 then some .r15Operand
  else none

end Sys2Proof.Machine
end

