-- ==== Sys2Proof/Machine/Branch.lean ====
section
/-!
DEFINITION. The meanings of the ARM branches, SWI and BKPT (42_arm R461 to R468), and what their Thumb namesakes share
with them (46_thumb R655 to R659).
-/

namespace Sys2Proof.Machine

/-- The target of an ARM branch (R461). -/
def armTarget (pc : Word) (imm : BitVec 24) : Word := pc + 8 + (imm.signExtend 32 <<< 2)

/-- A branch of the kind the BTB predicts (ARM B and BL, Thumb B), encoded as `word`: taken or not, the BTB and the PMU see it (R468, R470). -/
def predictedBranch (word : Word) (taken : Bool) (target : Word) (s : State) : Out :=
  let s1 := s.recordBranch word taken target
  if taken then .next (s1.jump target (.direct target)) else .next (s1.advance s1.isize)

/-- PMU event 0x5: a branch instruction executed, taken or not (R470). -/
def State.noteBranch (s : State) : State := s.note 0x05

/-- BKPT (R467, R659): nothing when DCSR.GE = 0 (or in Special Debug State, 61_debug R752); else a debug exception with
link = address + 4 in either state. -/
def breakpoint (s : State) : Out :=
  if !s.ge || s.dbg.sds then .next (s.advance s.isize)
  else .next (debugException 0b011 .prefetch (s.pc + 4) s)

/-- B (R461). -/
def execB (c : Cond) (imm : BitVec 24) (s : State) : Out :=
  predictedBranch (encodeArm (.b c imm)) (condPassed c s.cpsr) (armTarget s.pc imm) s

/-- BL (R462). -/
def execBl (c : Cond) (imm : BitVec 24) (s : State) : Out :=
  let word := encodeArm (.bl c imm)
  if condPassed c s.cpsr then predictedBranch word true (armTarget s.pc imm) (s.setReg 14 (s.pc + 4))
  else predictedBranch word false (armTarget s.pc imm) s

/-- BLX(1) (R464). -/
def execBlx1 (h : Bool) (imm : BitVec 24) (s : State) : Out :=
  let t := armTarget s.pc imm + (if h then 2 else 0)
  let s1 := (s.noteBranch).setReg 14 (s.pc + 4)
  .next (({ s1 with cpsr := withT s1.cpsr true } : State).jump t (.indirect t))

/-- BX (R463). -/
def execBx (c : Cond) (rm : Reg) (s : State) : Out :=
  armCond c s.noteBranch (branchExchange (s.reg rm) s.noteBranch)

/-- BLX(2) (R465): the target is read before R14 is written. -/
def execBlx2 (c : Cond) (rm : Reg) (s : State) : Out :=
  armCond c s.noteBranch (noR15 [rm] (branchExchange (s.reg rm) (s.noteBranch.setReg 14 (s.pc + 4))))

/-- SWI (R466). -/
def execSwi (c : Cond) (_imm : BitVec 24) (s : State) : Out := armCond c s (raiseSwi s)

/-- BKPT (R467). A condition that fails makes it a no-operation (30_encoding R361, R378); one that passes and is not AL is
unpredictable (R348). -/
def execBkpt (c : Cond) (_imm : BitVec 16) (s : State) : Out :=
  armCond c s (if c = .al then breakpoint s else .refused .bkptConditional)

end Sys2Proof.Machine
end

