-- ==== Sys2Proof/Machine/Alu.lean ====
section
/-!
DEFINITION. The data-processing operations and the status-register transfers, shared by the ARM and the Thumb
instructions (40_arm R382 to R401, 46_thumb R592).
-/

namespace Sys2Proof.Machine

/-- An operation's result and the CPSR it leaves when it sets flags. -/
structure AluResult where
  value : Word
  psr : Word
  deriving DecidableEq, Repr

/-- A logical result: N, Z from it, C from the shifter, V kept (R382). -/
def logicResult (p r : Word) (c : Bool) : AluResult := ⟨r, withLogic p r c⟩

/-- An arithmetic result with its carry and overflow (R382). -/
def arithResult (p : Word) (a : AddResult) : AluResult := ⟨a.value, withArith p a.value a.carry a.ovf⟩

/-- R383, R391. -/
def aluAnd (p x : Word) (so : Shifted) : AluResult := logicResult p (x &&& so.value) so.carry
/-- R384, R392. -/
def aluEor (p x : Word) (so : Shifted) : AluResult := logicResult p (x ^^^ so.value) so.carry
/-- R385, R393. -/
def aluSub (p x : Word) (so : Shifted) : AluResult := arithResult p (addWithCarry x (~~~so.value) true)
/-- R386. -/
def aluRsb (p x : Word) (so : Shifted) : AluResult := arithResult p (addWithCarry so.value (~~~x) true)
/-- R387, R394. -/
def aluAdd (p x : Word) (so : Shifted) : AluResult := arithResult p (addWithCarry x so.value false)
/-- R388. -/
def aluAdc (p x : Word) (so : Shifted) : AluResult := arithResult p (addWithCarry x so.value (flagC p))
/-- R389. -/
def aluSbc (p x : Word) (so : Shifted) : AluResult := arithResult p (addWithCarry x (~~~so.value) (flagC p))
/-- R390. -/
def aluRsc (p x : Word) (so : Shifted) : AluResult := arithResult p (addWithCarry so.value (~~~x) (flagC p))
/-- R395. -/
def aluOrr (p x : Word) (so : Shifted) : AluResult := logicResult p (x ||| so.value) so.carry
/-- R396. -/
def aluMov (p : Word) (so : Shifted) : AluResult := logicResult p so.value so.carry
/-- R397. -/
def aluBic (p x : Word) (so : Shifted) : AluResult := logicResult p (x &&& ~~~so.value) so.carry
/-- R398. -/
def aluMvn (p : Word) (so : Shifted) : AluResult := logicResult p (~~~so.value) so.carry

/-- Write a data-processing result. Rd = 15 is a branch: with S the return from an exception, without it a jump that
keeps T (R399). -/
def writeAlu (sb : Bool) (rd : Reg) (r : AluResult) (s : State) : Out :=
  if rd = 15 then (if sb then exceptionReturn r.value s else .next (s.jumpKeepState r.value))
  else
    let s1 := s.setReg rd r.value
    .next (({ s1 with cpsr := if sb then r.psr else s1.cpsr } : State).advance s.isize)

/-- Only the flags of a result (TST, TEQ, CMP, CMN). -/
def writeFlags (r : AluResult) (s : State) : Out := .next (({ s with cpsr := r.psr } : State).advance s.isize)

/-- Write a register that is not R15 and go on. -/
def writeReg (rd : Reg) (v : Word) (s : State) : Out := .next ((s.setReg rd v).advance s.isize)

/-! ## Status registers (40_arm R400, R401) -/

/-- The bytes an MSR field mask selects. -/
def msrByteMask (m : BitVec 4) : Word :=
  (if m.getLsbD 0 then 0x000000FF else 0) ||| (if m.getLsbD 1 then 0x0000FF00 else 0)
    ||| (if m.getLsbD 2 then 0x00FF0000 else 0) ||| (if m.getLsbD 3 then 0xFF000000 else 0)

/-- MSR to CPSR. In User mode only the flags change. The flags field takes Q with N, Z, C and V, as R401's pseudocode and
95_test_vectors V6 have it, also from an operand whose bit 27 is 0, where R401's last example says that `MSR
CPSR_f,#0xF0000000` leaves Q (DESIGN CHOICE, log 60). -/
def msrCpsr (mask : BitVec 4) (v : Word) (s : State) : Out :=
  let bm := msrByteMask mask
  if s.priv then
    if v &&& 0x20 &&& bm ≠ 0 then .fault .msrSetsThumb
    else
      let p := mergeMask s.cpsr (bm &&& 0xF80000DF) v
      match checkMode (modeBits p) s with
      | some e => .fault e
      | none => .next ((s.setCpsr p).advance s.isize)
  else .next ((s.setCpsr (mergeMask s.cpsr (bm &&& 0xF8000000) v)).advance s.isize)

/-- MSR to the SPSR of the current mode. -/
def msrSpsr (mask : BitVec 4) (v : Word) (s : State) : Out :=
  match spsrIndex s.mode with
  | none => .fault .noSpsr
  | some i => .next ((s.setSpsr i (mergeMask s.spsrs[i] (msrByteMask mask &&& 0xF80000FF) v)).advance s.isize)

/-- MSR (R401). -/
def msr (r : Bool) (mask : BitVec 4) (v : Word) (s : State) : Out :=
  if r then msrSpsr mask v s else msrCpsr mask v s

end Sys2Proof.Machine
end

