-- ==== Sys2Proof/Machine/Transfer.lean ====
section
/-!
DEFINITION. The transfers that the ARM and the Thumb loads and stores share: one register, two registers, many
registers, swap (43_arm R480 to R516, R520; 46_thumb R630 to R654).
-/

namespace Sys2Proof.Machine

/-- The instructions that should not run in DEBUG mode: unpredictable there (61_debug R790, U45). -/
def notInDebug (s : State) (k : Out) : Out := if s.mode == modeDbg then .fault .notInDebugMode else k

/-- A load to the PC: T from bit 0, the pc aligned for the new state (10_state R34, R37; log 51); PMU event 0xD only (log 37). -/
def loadPc (v : Word) (s : State) : Out :=
  .next (({ s with cpsr := withT s.cpsr (v.getLsbD 0) } : State).jumpKeepState v)

/-- Write a loaded value: a register, or the PC. -/
def writeLoaded (rd : Reg) (v : Word) (s : State) : Out := if rd = 15 then loadPc v s else writeReg rd v s

/-- LDR (R483). -/
def loadWord (priv : Bool) (a : Addr) (rn rd : Reg) (s : State) : Out :=
  (readWord a.addr priv s).finish (rd != 15) (a.apply rn) fun v s1 => writeLoaded rd v (a.apply rn s1)

/-- A byte or halfword load, zero- or sign-extended (R484, R491 to R493); `n` = 1 or 2 bytes. R15 reaches it from LDRSB
only, as a load to the PC (DESIGN CHOICE, log 53). -/
def loadSmall (n : Nat) (signed priv : Bool) (a : Addr) (rn rd : Reg) (s : State) : Out :=
  (readMem n a.addr priv s).finish (rd != 15) (a.apply rn) fun v s1 =>
    let w := if signed then (v.setWidth (8 * n)).signExtend 32 else (v.setWidth (8 * n)).setWidth 32
    writeLoaded rd w (a.apply rn s1)

/-- A store of the lowest `n` bytes of a value (R485, R486, R494). -/
def store (n : Nat) (v : Word) (priv : Bool) (a : Addr) (rn : Reg) (s : State) : Out :=
  (writeMem n a.addr v priv s).finish true (a.apply rn) fun _ s1 => .next ((a.apply rn s1).advance s1.isize)

/-- What storing register `r` stores: R15 as the address of the instruction + STORE_PC_OFFSET (10_state R36, D3). -/
def State.storedReg (s : State) (m : BitVec 5) (r : Reg) : Word :=
  if r = 15 then s.pc + (if Config.storePcIs12 then 12 else 8) else s.bankReg m r

/-- LDRD (R495): both words are read before a register is written. They are two accesses of 4 bytes, as the rule's own
transfer and R13's primitive say, each with its own bus request, errors and logs; R495 also speaks of one 64-bit access and
of one 8-byte request when uncached (DESIGN CHOICE, log 57). -/
def loadDouble (a : Addr) (rn rd : Reg) (s : State) : Out :=
  ((alignDouble a.addr s).bind fun va s1 =>
    (readMem 4 va s.priv s1).bind fun lo s2 =>
      (readMem 4 (va + 4) s.priv s2).bind fun hi s3 => .ok (lo, hi) s3).finish true (a.apply rn) fun v s1 =>
        .next (((((a.apply rn s1).setReg rd v.1).setReg (rd + 1) v.2)).advance s1.isize)

/-- STRD (R496), as two stores of 4 bytes (log 57). -/
def storeDouble (a : Addr) (rn rd : Reg) (s : State) : Out :=
  ((alignDouble a.addr s).bind fun va s1 =>
    (writeMem 4 va (s.reg rd) s.priv s1).bind fun _ s2 =>
      writeMem 4 (va + 4) (s.reg (rd + 1)) s.priv s2).finish true (a.apply rn) fun _ s1 =>
        .next ((a.apply rn s1).advance s1.isize)

/-- The register constraints of LDRD and STRD (R498; D18): an odd `rd` is undefined. -/
def doubleRegs (rd : Reg) (s : State) (k : Out) : Out :=
  if rd.getLsbD 0 then raiseUndef s else if rd = 14 then .refused .r15Operand else k

/-! ## Load and store multiple -/

/-- What is kept on an abort may be changed. -/
def Acc.onAbort {α : Type} (x : Acc α) (g : State → State) : Acc α :=
  match x with
  | .ok v s => .ok v s
  | .abort f s => .abort f (g s)
  | .fault e => .fault e
  | .refused e => .refused e

/-- Load registers of mode `m`'s bank from ascending words. -/
def loadRegs (m : BitVec 5) (priv : Bool) : List Reg → Word → State → Acc Unit
  | [], _, s => .ok () s
  | r :: rs, a, s =>
    (readMem 4 a priv s).bind fun v s1 => loadRegs m priv rs (a + 4) (s1.setBankReg m r v)

/-- Store values to ascending words. -/
def storeWords (priv : Bool) : List Word → Word → State → Acc Unit
  | [], _, s => .ok () s
  | v :: vs, a, s => (writeMem 4 a v priv s).bind fun _ s1 => storeWords priv vs (a + 4) s1

/-- After an abort of a load multiple the base is as before; the other registers already loaded hold what was loaded
(60_exceptions R712). -/
def keepBase (s0 : State) (rn : Reg) (s : State) : State := s.setReg rn (s0.reg rn)

/-- A load multiple into mode `m`'s bank: the registers, then the word for the PC if `pc`, at `start`. -/
def loadList (m : BitVec 5) (rs : List Reg) (pc : Bool) (start : Word) (rn : Reg) (s : State) : Acc Word :=
  ((loadRegs m s.priv rs start s).bind fun _ s1 =>
    if pc then readMem 4 (start + BitVec.ofNat 32 (4 * rs.length)) s.priv s1 else .ok 0 s1).onAbort (keepBase s rn)

/-- A mode 4 transfer's start address and write-back. -/
def State.mode4 (s : State) (a : Mode4) (n : Nat) : Addr :=
  let r := Machine.mode4 a.p a.u (s.reg a.rn) n
  ⟨r.1, if a.w then some r.2 else none⟩

/-- The unpredictable forms of mode 4 (R500, R505): base R15, empty list. -/
def mode4Refusal (a : Mode4) (list : BitVec 16) : Option Refusal :=
  if a.rn = 15 then some .r15Operand else if list = 0 then some .emptyList else none

/-- Is the base in the list. -/
def inList (list : BitVec 16) (rn : Reg) : Bool := list.getLsbD rn.toNat

/-- The registers of a list but for R15. -/
def lowList (list : BitVec 16) : List Reg := regList (list &&& 0x7FFF)

/-- LDM (1) (R505) from its addressing; `wb` false keeps the loaded value in a base that is in the list (R654). -/
def loadMultiple (a : Addr) (rn : Reg) (list : BitVec 16) (s : State) : Out :=
  (loadList s.mode (lowList list) (list.getLsbD 15) a.addr rn s).finish (!list.getLsbD 15) (a.apply rn) fun v s1 =>
    let s2 := a.apply rn s1
    if list.getLsbD 15 then loadPc v s2 else .next (s2.advance s2.isize)

/-- The values a store multiple of mode `m`'s bank stores. With write-back, a base that is not the lowest register of
the list stores an unpredictable value (R506): a free one (log 44). -/
def State.stmValues (s : State) (m : BitVec 5) (list : BitVec 16) (rn : Reg) (wb : Bool) : List Word :=
  (regList list).map fun r =>
    if wb && r == rn && (regList list).head? != some rn then s.fresh else s.storedReg m r

/-- STM (1) and (2) (R506, R511) from their addressing. -/
def storeMultiple (m : BitVec 5) (a : Addr) (rn : Reg) (list : BitVec 16) (s : State) : Out :=
  (storeWords s.priv (s.stmValues m list rn a.wb.isSome) a.addr (s.draw 1)).finish true (a.apply rn) fun _ s1 =>
    .next ((a.apply rn s1).advance s1.isize)

/-! ## Swap (R515, R516) -/

/-- SWP (`n` = 4) and SWPB (`n` = 1). -/
def swap (n : Nat) (rn rd rm : Reg) (s : State) : Out :=
  (swapMem n (s.reg rn) (s.reg rm) s).finish true id fun v s1 => writeReg rd v s1

/-- The unpredictable register combinations of SWP: R15, or the base used twice (U13). -/
def swapRefusal (rn rd rm : Reg) : Option Refusal :=
  if anyR15 [rn, rd, rm] then some .r15Operand
  else if rn = rm ∨ rn = rd then some .registerClash else none

end Sys2Proof.Machine
end

