-- ==== Sys2Proof/Machine/Coproc.lean ====
section
/-!
DEFINITION. The meanings of the coprocessor instructions (44_coprocessor R530 to R543), in the order of checks of R531.
-/

namespace Sys2Proof.Machine

/-- R531 for an instruction kind that `accepted` coprocessors take: the undefined-instruction exception when the
coprocessor does not accept it, may not be used in this mode, or is locked in Halt mode (U40). -/
def cpChecked (accepted : Bool) (cp crn : BitVec 4) (s : State) (k : Out) : Out :=
  if !accepted then raiseUndef s
  else if s.cpDenied cp then raiseUndef s
  else if s.debugAccessTraps cp crn then raiseUndef s
  else k

/-- MCR and MRC are for coprocessors 15, 14 and 13, and to 0 as the MIA family (R530). -/
def mcrAccepted (cp : BitVec 4) (op1 : BitVec 3) : Bool :=
  cp == 15 || cp == 14 || cp == 13 || (cp == 0 && op1 == 1)

/-- MRC is for coprocessors 15, 14 and 13 (R533). -/
def mrcAccepted (cp : BitVec 4) : Bool := cp == 15 || cp == 14 || cp == 13

/-- LDC and STC are for coprocessors 14 and 13 (R540). -/
def ldcAccepted (cp : BitVec 4) : Bool := cp == 14 || cp == 13

/-- MCR's transfer (R532). The MIA words of coprocessor 0 are rows of their own; its other opcode_3 values are
unpredictable (U12). -/
def moveToCp (crn : BitVec 4) (rd : Reg) (cp : BitVec 4) (op2 : BitVec 3) (crm : BitVec 4) (s : State) : Out :=
  if cp = 0 then .refused .accumulatorReserved
  else (cpWrite cp crn crm op2 (s.reg rd) s).finish true id fun _ s1 => .next (s1.advance s1.isize)

/-- MRC's destination: a register, or for R15 the flags from bits 31:28 (R533). -/
def writeFromCp (rd : Reg) (v : Word) (s : State) : Out :=
  if rd = 15 then
    .next (({ s with cpsr := withNZCV s.cpsr (v.getLsbD 31) (v.getLsbD 30) (v.getLsbD 29) (v.getLsbD 28) } : State).advance
      s.isize)
  else writeReg rd v s

/-- MRC's transfer (R533). -/
def moveFromCp (crn : BitVec 4) (rd : Reg) (cp : BitVec 4) (op2 : BitVec 3) (crm : BitVec 4) (s : State) : Out :=
  (cpRead cp crn crm op2 s).finish true id fun v s1 => writeFromCp rd v s1

/-- LDC's transfer (R540): opcode_2 and CRm are zero. -/
def loadToCp (a : Addr) (rn : Reg) (crd cp : BitVec 4) (s : State) : Out :=
  ((readMem 4 a.addr s.priv s).bind fun v s1 => cpWrite cp crd 0 0 v s1).finish true (a.apply rn) fun _ s1 =>
    .next ((a.apply rn s1).advance s1.isize)

/-- STC's transfer (R541): the register is read, with its side effects, only when the store has passed its checks
(D19). -/
def storeFromCp (a : Addr) (rn : Reg) (crd cp : BitVec 4) (s : State) : Out :=
  ((checkStore 4 a.addr s.priv s).bind fun p s1 =>
    (cpRead cp crd 0 0 s1).bind fun v s2 => storeChecked 4 v p s2).finish true (a.apply rn) fun _ s1 =>
      .next ((a.apply rn s1).advance s1.isize)

/-- MCR (R532). -/
def execMcr (c : Cond) (op1 : BitVec 3) (crn : BitVec 4) (rd : Reg) (cp : BitVec 4) (op2 : BitVec 3) (crm : BitVec 4)
    (s : State) : Out :=
  armCond c s (cpChecked (mcrAccepted cp op1) cp crn s (moveToCp crn rd cp op2 crm s))

/-- MRC (R533). -/
def execMrc (c : Cond) (_op1 : BitVec 3) (crn : BitVec 4) (rd : Reg) (cp : BitVec 4) (op2 : BitVec 3)
    (crm : BitVec 4) (s : State) : Out :=
  armCond c s (cpChecked (mrcAccepted cp) cp crn s (moveFromCp crn rd cp op2 crm s))

/-- LDC (R540). -/
def execLdc (c : Cond) (a : Mode5) (crd cp : BitVec 4) (off : BitVec 8) (s : State) : Out :=
  armCond c s (cpChecked (ldcAccepted cp) cp crd s (unlessRefused (mode5Refusal a)
    (notInDebug s (loadToCp (s.mode5 a off) a.rn crd cp s))))

/-- STC (R541). -/
def execStc (c : Cond) (a : Mode5) (crd cp : BitVec 4) (off : BitVec 8) (s : State) : Out :=
  armCond c s (cpChecked (ldcAccepted cp) cp crd s (unlessRefused (mode5Refusal a)
    (notInDebug s (storeFromCp (s.mode5 a off) a.rn crd cp s))))

/-- CDP (R542): no coprocessor accepts it. -/
def execCdp (c : Cond) (_op1 _crn _crd _cp : BitVec 4) (_op2 : BitVec 3) (_crm : BitVec 4) (s : State) : Out :=
  armCond c s (raiseUndef s)

/-- MCRR to a coprocessor other than 0 (R543). -/
def execMcrr (c : Cond) (_rn _rd : Reg) (_cp _op _crm : BitVec 4) (s : State) : Out := armCond c s (raiseUndef s)

/-- MRRC to a coprocessor other than 0 (R543). -/
def execMrrc (c : Cond) (_rn _rd : Reg) (_cp _op _crm : BitVec 4) (s : State) : Out := armCond c s (raiseUndef s)

end Sys2Proof.Machine
end

