-- ==== Sys2Proof/Machine/DataProc.lean ====
section
/-!
DEFINITION. The meanings of the ARM data-processing instructions (40_arm R383 to R398), of MRS and MSR (R400, R401),
CLZ (R402) and of the undefined encodings (30_encoding R344, R360, R361; 60_exceptions R694).
-/

namespace Sys2Proof.Machine

/-- AND, register shifted by an immediate (R383). -/
def execAndShift (c : Cond) (sb : Bool) (rn rd : Reg) (sh : ImmShift) (s : State) : Out :=
  armCond c s (writeAlu sb rd (aluAnd s.cpsr (s.reg rn) (s.immShift sh)) s)

/-- AND, register shifted by a register (R383). -/
def execAndRegShift (c : Cond) (sb : Bool) (rn rd : Reg) (sh : RegShift) (s : State) : Out :=
  armCond c s (noR15 [rd, rn, sh.rm, sh.rs] (writeAlu sb rd (aluAnd s.cpsr (s.reg rn) (s.regShift sh)) s))

/-- AND, immediate (R383). -/
def execAndImm (c : Cond) (sb : Bool) (rn rd : Reg) (op : RotImm) (s : State) : Out :=
  armCond c s (writeAlu sb rd (aluAnd s.cpsr (s.reg rn) (s.rotImm op)) s)

/-- EOR, register shifted by an immediate (R384). -/
def execEorShift (c : Cond) (sb : Bool) (rn rd : Reg) (sh : ImmShift) (s : State) : Out :=
  armCond c s (writeAlu sb rd (aluEor s.cpsr (s.reg rn) (s.immShift sh)) s)

/-- EOR, register shifted by a register (R384). -/
def execEorRegShift (c : Cond) (sb : Bool) (rn rd : Reg) (sh : RegShift) (s : State) : Out :=
  armCond c s (noR15 [rd, rn, sh.rm, sh.rs] (writeAlu sb rd (aluEor s.cpsr (s.reg rn) (s.regShift sh)) s))

/-- EOR, immediate (R384). -/
def execEorImm (c : Cond) (sb : Bool) (rn rd : Reg) (op : RotImm) (s : State) : Out :=
  armCond c s (writeAlu sb rd (aluEor s.cpsr (s.reg rn) (s.rotImm op)) s)

/-- SUB, register shifted by an immediate (R385). -/
def execSubShift (c : Cond) (sb : Bool) (rn rd : Reg) (sh : ImmShift) (s : State) : Out :=
  armCond c s (writeAlu sb rd (aluSub s.cpsr (s.reg rn) (s.immShift sh)) s)

/-- SUB, register shifted by a register (R385). -/
def execSubRegShift (c : Cond) (sb : Bool) (rn rd : Reg) (sh : RegShift) (s : State) : Out :=
  armCond c s (noR15 [rd, rn, sh.rm, sh.rs] (writeAlu sb rd (aluSub s.cpsr (s.reg rn) (s.regShift sh)) s))

/-- SUB, immediate (R385). -/
def execSubImm (c : Cond) (sb : Bool) (rn rd : Reg) (op : RotImm) (s : State) : Out :=
  armCond c s (writeAlu sb rd (aluSub s.cpsr (s.reg rn) (s.rotImm op)) s)

/-- RSB, register shifted by an immediate (R386). -/
def execRsbShift (c : Cond) (sb : Bool) (rn rd : Reg) (sh : ImmShift) (s : State) : Out :=
  armCond c s (writeAlu sb rd (aluRsb s.cpsr (s.reg rn) (s.immShift sh)) s)

/-- RSB, register shifted by a register (R386). -/
def execRsbRegShift (c : Cond) (sb : Bool) (rn rd : Reg) (sh : RegShift) (s : State) : Out :=
  armCond c s (noR15 [rd, rn, sh.rm, sh.rs] (writeAlu sb rd (aluRsb s.cpsr (s.reg rn) (s.regShift sh)) s))

/-- RSB, immediate (R386). -/
def execRsbImm (c : Cond) (sb : Bool) (rn rd : Reg) (op : RotImm) (s : State) : Out :=
  armCond c s (writeAlu sb rd (aluRsb s.cpsr (s.reg rn) (s.rotImm op)) s)

/-- ADD, register shifted by an immediate (R387). -/
def execAddShift (c : Cond) (sb : Bool) (rn rd : Reg) (sh : ImmShift) (s : State) : Out :=
  armCond c s (writeAlu sb rd (aluAdd s.cpsr (s.reg rn) (s.immShift sh)) s)

/-- ADD, register shifted by a register (R387). -/
def execAddRegShift (c : Cond) (sb : Bool) (rn rd : Reg) (sh : RegShift) (s : State) : Out :=
  armCond c s (noR15 [rd, rn, sh.rm, sh.rs] (writeAlu sb rd (aluAdd s.cpsr (s.reg rn) (s.regShift sh)) s))

/-- ADD, immediate (R387). -/
def execAddImm (c : Cond) (sb : Bool) (rn rd : Reg) (op : RotImm) (s : State) : Out :=
  armCond c s (writeAlu sb rd (aluAdd s.cpsr (s.reg rn) (s.rotImm op)) s)

/-- ADC, register shifted by an immediate (R388). -/
def execAdcShift (c : Cond) (sb : Bool) (rn rd : Reg) (sh : ImmShift) (s : State) : Out :=
  armCond c s (writeAlu sb rd (aluAdc s.cpsr (s.reg rn) (s.immShift sh)) s)

/-- ADC, register shifted by a register (R388). -/
def execAdcRegShift (c : Cond) (sb : Bool) (rn rd : Reg) (sh : RegShift) (s : State) : Out :=
  armCond c s (noR15 [rd, rn, sh.rm, sh.rs] (writeAlu sb rd (aluAdc s.cpsr (s.reg rn) (s.regShift sh)) s))

/-- ADC, immediate (R388). -/
def execAdcImm (c : Cond) (sb : Bool) (rn rd : Reg) (op : RotImm) (s : State) : Out :=
  armCond c s (writeAlu sb rd (aluAdc s.cpsr (s.reg rn) (s.rotImm op)) s)

/-- SBC, register shifted by an immediate (R389). -/
def execSbcShift (c : Cond) (sb : Bool) (rn rd : Reg) (sh : ImmShift) (s : State) : Out :=
  armCond c s (writeAlu sb rd (aluSbc s.cpsr (s.reg rn) (s.immShift sh)) s)

/-- SBC, register shifted by a register (R389). -/
def execSbcRegShift (c : Cond) (sb : Bool) (rn rd : Reg) (sh : RegShift) (s : State) : Out :=
  armCond c s (noR15 [rd, rn, sh.rm, sh.rs] (writeAlu sb rd (aluSbc s.cpsr (s.reg rn) (s.regShift sh)) s))

/-- SBC, immediate (R389). -/
def execSbcImm (c : Cond) (sb : Bool) (rn rd : Reg) (op : RotImm) (s : State) : Out :=
  armCond c s (writeAlu sb rd (aluSbc s.cpsr (s.reg rn) (s.rotImm op)) s)

/-- RSC, register shifted by an immediate (R390). -/
def execRscShift (c : Cond) (sb : Bool) (rn rd : Reg) (sh : ImmShift) (s : State) : Out :=
  armCond c s (writeAlu sb rd (aluRsc s.cpsr (s.reg rn) (s.immShift sh)) s)

/-- RSC, register shifted by a register (R390). -/
def execRscRegShift (c : Cond) (sb : Bool) (rn rd : Reg) (sh : RegShift) (s : State) : Out :=
  armCond c s (noR15 [rd, rn, sh.rm, sh.rs] (writeAlu sb rd (aluRsc s.cpsr (s.reg rn) (s.regShift sh)) s))

/-- RSC, immediate (R390). -/
def execRscImm (c : Cond) (sb : Bool) (rn rd : Reg) (op : RotImm) (s : State) : Out :=
  armCond c s (writeAlu sb rd (aluRsc s.cpsr (s.reg rn) (s.rotImm op)) s)

/-- TST, register shifted by an immediate (R391). -/
def execTstShift (c : Cond) (rn : Reg) (sh : ImmShift) (s : State) : Out :=
  armCond c s (writeFlags (aluAnd s.cpsr (s.reg rn) (s.immShift sh)) s)

/-- TST, register shifted by a register (R391). -/
def execTstRegShift (c : Cond) (rn : Reg) (sh : RegShift) (s : State) : Out :=
  armCond c s (noR15 [rn, sh.rm, sh.rs] (writeFlags (aluAnd s.cpsr (s.reg rn) (s.regShift sh)) s))

/-- TST, immediate (R391). -/
def execTstImm (c : Cond) (rn : Reg) (op : RotImm) (s : State) : Out :=
  armCond c s (writeFlags (aluAnd s.cpsr (s.reg rn) (s.rotImm op)) s)

/-- TEQ, register shifted by an immediate (R392). -/
def execTeqShift (c : Cond) (rn : Reg) (sh : ImmShift) (s : State) : Out :=
  armCond c s (writeFlags (aluEor s.cpsr (s.reg rn) (s.immShift sh)) s)

/-- TEQ, register shifted by a register (R392). -/
def execTeqRegShift (c : Cond) (rn : Reg) (sh : RegShift) (s : State) : Out :=
  armCond c s (noR15 [rn, sh.rm, sh.rs] (writeFlags (aluEor s.cpsr (s.reg rn) (s.regShift sh)) s))

/-- TEQ, immediate (R392). -/
def execTeqImm (c : Cond) (rn : Reg) (op : RotImm) (s : State) : Out :=
  armCond c s (writeFlags (aluEor s.cpsr (s.reg rn) (s.rotImm op)) s)

/-- CMP, register shifted by an immediate (R393). -/
def execCmpShift (c : Cond) (rn : Reg) (sh : ImmShift) (s : State) : Out :=
  armCond c s (writeFlags (aluSub s.cpsr (s.reg rn) (s.immShift sh)) s)

/-- CMP, register shifted by a register (R393). -/
def execCmpRegShift (c : Cond) (rn : Reg) (sh : RegShift) (s : State) : Out :=
  armCond c s (noR15 [rn, sh.rm, sh.rs] (writeFlags (aluSub s.cpsr (s.reg rn) (s.regShift sh)) s))

/-- CMP, immediate (R393). -/
def execCmpImm (c : Cond) (rn : Reg) (op : RotImm) (s : State) : Out :=
  armCond c s (writeFlags (aluSub s.cpsr (s.reg rn) (s.rotImm op)) s)

/-- CMN, register shifted by an immediate (R394). -/
def execCmnShift (c : Cond) (rn : Reg) (sh : ImmShift) (s : State) : Out :=
  armCond c s (writeFlags (aluAdd s.cpsr (s.reg rn) (s.immShift sh)) s)

/-- CMN, register shifted by a register (R394). -/
def execCmnRegShift (c : Cond) (rn : Reg) (sh : RegShift) (s : State) : Out :=
  armCond c s (noR15 [rn, sh.rm, sh.rs] (writeFlags (aluAdd s.cpsr (s.reg rn) (s.regShift sh)) s))

/-- CMN, immediate (R394). -/
def execCmnImm (c : Cond) (rn : Reg) (op : RotImm) (s : State) : Out :=
  armCond c s (writeFlags (aluAdd s.cpsr (s.reg rn) (s.rotImm op)) s)

/-- ORR, register shifted by an immediate (R395). -/
def execOrrShift (c : Cond) (sb : Bool) (rn rd : Reg) (sh : ImmShift) (s : State) : Out :=
  armCond c s (writeAlu sb rd (aluOrr s.cpsr (s.reg rn) (s.immShift sh)) s)

/-- ORR, register shifted by a register (R395). -/
def execOrrRegShift (c : Cond) (sb : Bool) (rn rd : Reg) (sh : RegShift) (s : State) : Out :=
  armCond c s (noR15 [rd, rn, sh.rm, sh.rs] (writeAlu sb rd (aluOrr s.cpsr (s.reg rn) (s.regShift sh)) s))

/-- ORR, immediate (R395). -/
def execOrrImm (c : Cond) (sb : Bool) (rn rd : Reg) (op : RotImm) (s : State) : Out :=
  armCond c s (writeAlu sb rd (aluOrr s.cpsr (s.reg rn) (s.rotImm op)) s)

/-- MOV, register shifted by an immediate (R396). -/
def execMovShift (c : Cond) (sb : Bool) (rd : Reg) (sh : ImmShift) (s : State) : Out :=
  armCond c s (writeAlu sb rd (aluMov s.cpsr (s.immShift sh)) s)

/-- MOV, register shifted by a register (R396). -/
def execMovRegShift (c : Cond) (sb : Bool) (rd : Reg) (sh : RegShift) (s : State) : Out :=
  armCond c s (noR15 [rd, sh.rm, sh.rs] (writeAlu sb rd (aluMov s.cpsr (s.regShift sh)) s))

/-- MOV, immediate (R396). -/
def execMovImm (c : Cond) (sb : Bool) (rd : Reg) (op : RotImm) (s : State) : Out :=
  armCond c s (writeAlu sb rd (aluMov s.cpsr (s.rotImm op)) s)

/-- BIC, register shifted by an immediate (R397). -/
def execBicShift (c : Cond) (sb : Bool) (rn rd : Reg) (sh : ImmShift) (s : State) : Out :=
  armCond c s (writeAlu sb rd (aluBic s.cpsr (s.reg rn) (s.immShift sh)) s)

/-- BIC, register shifted by a register (R397). -/
def execBicRegShift (c : Cond) (sb : Bool) (rn rd : Reg) (sh : RegShift) (s : State) : Out :=
  armCond c s (noR15 [rd, rn, sh.rm, sh.rs] (writeAlu sb rd (aluBic s.cpsr (s.reg rn) (s.regShift sh)) s))

/-- BIC, immediate (R397). -/
def execBicImm (c : Cond) (sb : Bool) (rn rd : Reg) (op : RotImm) (s : State) : Out :=
  armCond c s (writeAlu sb rd (aluBic s.cpsr (s.reg rn) (s.rotImm op)) s)

/-- MVN, register shifted by an immediate (R398). -/
def execMvnShift (c : Cond) (sb : Bool) (rd : Reg) (sh : ImmShift) (s : State) : Out :=
  armCond c s (writeAlu sb rd (aluMvn s.cpsr (s.immShift sh)) s)

/-- MVN, register shifted by a register (R398). -/
def execMvnRegShift (c : Cond) (sb : Bool) (rd : Reg) (sh : RegShift) (s : State) : Out :=
  armCond c s (noR15 [rd, sh.rm, sh.rs] (writeAlu sb rd (aluMvn s.cpsr (s.regShift sh)) s))

/-- MVN, immediate (R398). -/
def execMvnImm (c : Cond) (sb : Bool) (rd : Reg) (op : RotImm) (s : State) : Out :=
  armCond c s (writeAlu sb rd (aluMvn s.cpsr (s.rotImm op)) s)

/-- MRS (R400). -/
def execMrs (c : Cond) (r : Bool) (rd : Reg) (s : State) : Out :=
  armCond c s (noR15 [rd]
    (if r then
      match s.spsr with
      | none => .fault .noSpsr
      | some p => writeReg rd p s
    else writeReg rd s.cpsr s))

/-- MSR of a register (R401). -/
def execMsrReg (c : Cond) (r : Bool) (mask : BitVec 4) (rm : Reg) (s : State) : Out :=
  armCond c s (noR15 [rm] (msr r mask (s.reg rm) s))

/-- MSR of an immediate (R401). -/
def execMsrImm (c : Cond) (r : Bool) (mask : BitVec 4) (op : RotImm) (s : State) : Out :=
  armCond c s (msr r mask (rotImmValue op) s)

/-- CLZ (R402). -/
def execClz (c : Cond) (rd rm : Reg) (s : State) : Out :=
  armCond c s (noR15 [rd, rm] (writeReg rd (BitVec.ofNat 32 (leadingZeros (s.reg rm) 32)) s))

/-- The undefined words with cond = 1111 (30_encoding R360): unconditional. -/
def execUndefUncond (_rest : BitVec 28) (s : State) : Out := raiseUndef s

/-- The undefined words of the multiply space (30_encoding R361). -/
def execUndefMul (c : Cond) (_rest : BitVec 17) (_low : BitVec 4) (s : State) : Out := armCond c s (raiseUndef s)

/-- The undefined words of the miscellaneous space (30_encoding R361). -/
def execUndefMisc (c : Cond) (_op : BitVec 2) (_rest : BitVec 12) (_low : BitVec 7) (s : State) : Out :=
  armCond c s (raiseUndef s)

/-- The undefined neighbours of MSR immediate (30_encoding R361). -/
def execUndefMsr (c : Cond) (_x : Bool) (_rest : BitVec 20) (s : State) : Out := armCond c s (raiseUndef s)

/-- The architecturally undefined space (30_encoding R361). -/
def execUndefMedia (c : Cond) (_rest : BitVec 20) (_low : BitVec 4) (s : State) : Out := armCond c s (raiseUndef s)

end Sys2Proof.Machine
end

