-- ==== Sys2Proof/Machine/Environment.lean ====
section
/-!
DEFINITION. What the outside world does between two steps (log 13): the interrupt pins (60_exceptions R703), reset
(70_reset R901), the JTAG host (61_debug R760 to R802, R805), injected hardware faults (60_exceptions R716,
21_mmu R327, R328), other bus masters and the board (62_platform R851, R874, R875).
-/

namespace Sys2Proof.Machine

/-! ## Reset (70_reset R901, 61_debug R797) -/

/-- JTAG instruction codes (61_debug R760, R806). -/
def irLdic : BitVec 5 := 0b00111
def irSeldcsr : BitVec 5 := 0b01001
def irDbgtx : BitVec 5 := 0b10000
def irDbgrx : BitVec 5 := 0b00010
def irExtest : BitVec 5 := 0b00000
def irSample : BitVec 5 := 0b00001
def irClamp : BitVec 5 := 0b00100
def irHighz : BitVec 5 := 0b01000
def irIdcode : BitVec 5 := 0b11110
def irBypass : BitVec 5 := 0b11111

/-- Every line of a cache invalid and unlocked, its pointers at the last way. -/
def Cache.flush (c : Cache) (last : BitVec 5) : Cache :=
  { lines := c.lines.map fun l => { l with valid := false, locked := false }, rr := Vector.replicate 32 last }

/-- The instruction caches while internal reset is asserted (61_debug R797): the main cache is invalidated unless the
IR holds LDIC, the mini cache unless it does or the processor is in Halt mode. A mini cache that is spared keeps its
round-robin pointers, for which no rule gives a value then (DESIGN CHOICE, log 21). That the main cache is spared while the IR
holds LDIC is R797 against 10_state R49, 21_mmu R309 and 70_reset R901, which invalidate it at every reset (DESIGN CHOICE, log 61).
-/
def State.resetInstrCaches (s : State) : State :=
  if s.jtag.ir = irLdic then s
  else { s with icache := s.icache.flush 31
                minic := if s.haltMode then s.minic else s.minic.flush 1
                synced := s.mem
                overwritten := [] }

/-- The effect of TRST# (61_debug R761, R805; 12_state R150): IR <- IDCODE, DCSR.H and the trap bits, hold_rst and
DBG_REG[0], [1], [34] cleared; DBG_REG[33:2] is unpredictable, a free value. -/
def State.trst (s : State) : State :=
  ({ s with
     dbg := { s.dbg with dcsr := s.dbg.dcsr &&& 0x8000003F }
     jtag := { s.jtag with ir := irIdcode, holdRst := false, valid := false, data := s.fresh, reg1 := false,
                           reg0 := false, ldicFn := none } } : State).draw 1

/-- Nothing that the processor holds survives sleep (62_platform R883): what a reset out of sleep finds is the state of
power-on; external memory, the board and the pins stay. -/
def State.afterSleep (s : State) : State :=
  { State.reset with
    mem := s.mem
    icu := { State.reset.icu with fiqPin := s.icu.fiqPin, irqPin := s.icu.irqPin }
    board := s.board
    freeCount := s.freeCount
    hostEvents := s.hostEvents }

/-- The pins that are sampled when RESET# rises: PLLCFG, DBusWidth, and the signal of highz (70_reset R900; 62_platform
R876, R880; 61_debug R806). -/
def State.samplePins (s : State) : State :=
  { s with
    power := { s.power with cclkcfg := if s.board.pllcfg then 4 else 1 }
    bus32 := s.board.bus32
    jtag := { s.jtag with pinsFloat := s.jtag.ir == irHighz } }

/-- RESET# goes low (70_reset R901): every register takes its reset value; external memory, the board, the pins, the
trace buffer's contents (61_debug R787), the checkpoint registers (DESIGN CHOICE, log 6) and the JTAG logic stay, but
DBG_REG[33:2] becomes a free value (61_debug R761); DCSR keeps H and the trap bits (12_state R150). Out of sleep nothing is
kept. TX and RX, whose reset value is unpredictable, are 0 again (DESIGN CHOICE, log 6). -/
def State.assertReset (trst : Bool) (s : State) : State :=
  let r := State.reset
  let s0 := if s.power.mode = .sleep then s.afterSleep else s
  let s1 := if trst then s0.trst else s0
  let s2 : State :=
    { r with
      mem := s1.mem
      synced := s1.synced
      overwritten := s1.overwritten
      icache := { s1.icache.unlock with rr := Vector.replicate 32 31 }
      minic := s1.minic
      power := { cclkcfg := if s1.board.pllcfg then 4 else 1, mode := .active }
      dbg := { r.dbg with dcsr := s1.dbg.dcsr &&& 0x40DF0000 }
      trace := { s1.trace with count := 0, written := 0, sinceChk := none }
      icu := { s1.icu with intctl := 0, intstr := 0 }
      jtag := { s1.jtag with data := s1.fresh }
      resetPin := true
      inReset := true
      bus32 := s1.bus32
      board := s1.board
      freeCount := s1.freeCount + 1
      hostEvents := s1.hostEvents }
  s2.resetInstrCaches

/-- RESET# goes high (70_reset R900, R901): the pins are sampled; internal reset ends, and the reset exception is taken
(60_exceptions R686), unless hold_rst keeps the core in reset (61_debug R764). A pin that is high already stays so. -/
def State.releaseReset (s : State) : State :=
  if s.resetPin then
    let s1 := s.samplePins
    { s1 with resetPin := false, inReset := s1.jtag.holdRst }
  else s

/-- `Reset(trst)` (70_reset R901): RESET# low for long enough, then high again. -/
def State.applyReset (trst : Bool) (s : State) : State := (s.assertReset trst).releaseReset

/-! ## The JTAG host (61_debug section 3, section 6) -/

/-- The JTAG ID register (61_debug R806). -/
def idcode : Word := Config.stepping.revision ++ 0x9263013#28

/-- The trap bits and H from a scanned DCSR image: bit k of DCSR is bit k + 3 of the scan (R762). -/
def dcsrJtagMask : Word := 0x40DF0000

/-- Update-DR: DBG_SR[35:1] goes to the latch DBG_REG[34:0], whichever of the three instructions is selected (R760); `out`
is what was shifted out. -/
def State.latchDr (s : State) (din out : BitVec 36) : State :=
  { s with jtag := { s.jtag with valid := din.getLsbD 35, data := din.extractLsb' 3 32, reg1 := din.getLsbD 2,
                                 reg0 := din.getLsbD 1, out := out } }

/-- A scan with SELDCSR (R762 to R764, D24, D25). The reserved bits of DCSR are captured as free values (log 33). Internal reset lasts while RESET# or hold_rst is asserted; the modes that
spare the instruction caches are sampled as long as it lasts (R797, R800). -/
def State.scanSeldcsr (s : State) (din : BitVec 36) : State :=
  let free := s.fresh
  let out : BitVec 36 :=
    free.extractLsb' 0 1 ++ (s.dbg.dcsr ||| (s.fresh2 &&& dcsrReserved)) ++ 0#1 ++ 1#1 ++ free.extractLsb' 1 1
  let hold := din.getLsbD 1
  let s1 := s.latchDr din out
  let s2 : State :=
    { s1 with
      dbg := { s1.dbg with dcsr := mergeMask s.dbg.dcsr dcsrJtagMask (din.extractLsb' 3 32)
                           extBreak := s.dbg.extBreak || (din.getLsbD 2 && s.ge) }
      jtag := { s1.jtag with holdRst := hold }
      inReset := s.inReset && (s.resetPin || hold) }
  (if s.inReset then s2.resetInstrCaches else s2).draw 2

/-- A scan with DBGTX (R765): TX out; TR is cleared. -/
def State.scanDbgtx (s : State) (din : BitVec 36) : State :=
  let free := s.fresh
  let out : BitVec 36 := free.extractLsb' 0 1 ++ s.dbg.tx ++ free.extractLsb' 1 2 ++ BitVec.ofBool s.tr
  let s1 := s.latchDr din out
  ({ s1 with dbg := { s1.dbg with txrxctrl := setBit s.dbg.txrxctrl 28 false } } : State).draw 1

/-- A scan with DBGRX (R767, R768, D30): D, then flush, then the valid write with its overflow flag; the write logic clears
DBG_REG[34] again. -/
def State.scanDbgrx (s : State) (din : BitVec 36) : State :=
  let free := s.fresh
  let out : BitVec 36 := free.extractLsb' 0 3 ++ s.fresh2 ++ BitVec.ofBool s.rr
  let c1 := setBit s.dbg.txrxctrl 29 (din.getLsbD 2)
  let c2 := if din.getLsbD 1 then setBit c1 31 false else c1
  let d : Dbg :=
    if din.getLsbD 35 then
      { s.dbg with rx := din.extractLsb' 3 32
                   txrxctrl := setBit (if c2.getLsbD 31 then setBit c2 30 true else c2) 31 true }
    else { s.dbg with txrxctrl := c2 }
  let s1 := s.latchDr din out
  ({ s1 with dbg := d, jtag := { s1.jtag with valid := false } } : State).draw 2

/-- The public codes (61_debug R806); the others are 'private' or 'not used' (U49). -/
def irPublic (c : BitVec 5) : Bool :=
  c == irExtest || c == irSample || c == irDbgrx || c == irClamp || c == irLdic || c == irHighz || c == irSeldcsr
    || c == irDbgtx || c == irIdcode || c == irBypass

/-- An IR scan (61_debug R802, R805, R806): 00001 is shifted out, the code becomes the instruction. -/
def loadIr (code : BitVec 5) (s : State) : Out :=
  if !irPublic code then .refused .jtagPrivate
  else if s.jtag.ldicFn.isSome then .refused .ldicMisused
  else
    let s1 : State := { s with jtag := { s.jtag with ir := code, out := 0b00001 } }
    .next (if s1.inReset then s1.resetInstrCaches else s1)

/-- What is shifted out of a register whose contents the model does not hold: free values. -/
def State.freeOut (s : State) : State :=
  ({ s with jtag := { s.jtag with out := s.fresh.extractLsb' 0 4 ++ s.fresh2 } } : State).draw 2

/-- A scan of the data register the IR selects (61_debug R760, R806, R807), 36 bits long. The boundary-scan register that
extest, sample, clamp and highz concern is outside the model (R806; 00_scope R8): free bits come out of it (log 43). -/
def scanDr (din : BitVec 36) (s : State) : Out :=
  let ir := s.jtag.ir
  if ir = irSeldcsr then .next (s.scanSeldcsr din)
  else if ir = irDbgtx then .next (s.scanDbgtx din)
  else if ir = irDbgrx then .next (s.scanDbgrx din)
  else if ir = irIdcode then .next { s with jtag := { s.jtag with out := din.extractLsb' 0 4 ++ idcode } }
  else if ir = irBypass then .next { s with jtag := { s.jtag with out := din <<< 1 } }
  else if ir = irLdic then .refused .ldicMisused
  else .next s.freeOut

/-- A downloaded line's bytes: word k at offset 4k, in the byte order a fetch reads (61_debug R799; log 17). -/
def ldicBytes (big : Bool) (ws : List (Word × Bool)) : List Byte :=
  ws.flatMap fun w => disassemble big 4 w.1.toNat

/-- A downloaded line's wrong-parity marks, a word at a time. -/
def ldicBad : Nat → List (Word × Bool) → BitVec 32
  | _, [] => 0
  | k, w :: ws => (if w.2 then 0 else byteMask (4 * k) 4) ||| ldicBad (k + 1) ws

/-- Write a downloaded line into the main or mini instruction cache, at the set's round-robin pointer (61_debug R799).
-/
def State.ldicStore (s : State) (f : LdicLoad) : State :=
  let a : Word := f.addr ++ 0#5
  let set := setOf a
  let c := if f.mini then s.minic else s.icache
  let v := c.victimRr set (if f.mini then 1 else 31)
  let l : CacheLine := { set := set, way := v.way, tag := tagOf a, valid := true, locked := false,
                         dirtyLo := false, dirtyHi := false, pa := a, ecc := false, bad := ldicBad 0 f.words,
                         data := lineOfBytes (ldicBytes s.bigEndian f.words), downloaded := true }
  let c1 := (c.put l).setRr set v.next
  let s1 : State := if f.mini then { s with minic := c1 } else { s with icache := c1 }
  { s1 with jtag := { s1.jtag with ldicFn := none } }

/-- Does an instruction cache hold the line of an address, to which nothing may then be downloaded (61_debug R800, U48). -/
def State.ldicOccupied (s : State) (a : Word) : Bool := (s.icache.find a).isSome || (s.minic.find a).isSome

/-- What one LDIC packet does to the caches and the load in progress (61_debug R799, R800). That the target line is not valid is
asked at the first packet, and again when the line is written: code fetched in between, which R802 asks the handler to avoid, may
have brought it in (DESIGN CHOICE, log 43). -/
def ldicFunction (p : BitVec 33) (parityOk : Bool) (s : State) : Out :=
  match s.jtag.ldicFn with
  | some f =>
    let g := { f with words := f.words ++ [(p.extractLsb' 0 32, parityOk)] }
    if g.words.length < 8 then .next { s with jtag := { s.jtag with ldicFn := some g } }
    else if s.ldicOccupied (f.addr ++ 0#5) then .refused .ldicMisused
    else .next (s.ldicStore g)
  | none =>
    let fn := p.extractLsb' 0 3
    let addr := p.extractLsb' 6 27
    let a : Word := addr ++ 0#5
    if fn = 0 then .next { s with icache := s.icache.invalidateLine a, minic := s.minic.invalidateLine a }
    else if fn = 1 then
      .next { s with minic := { s.minic with lines := s.minic.lines.map fun l => { l with valid := false } } }
    else if fn = 2 ∨ fn = 3 then
      (if s.ldicOccupied a then .refused .ldicMisused
       else .next { s with jtag := { s.jtag with ldicFn := some { mini := fn == 3, addr := addr, words := [] } } })
    else .refused .ldicMisused

/-- One LDIC packet; what LDIC_SR1 captured, and shifts out, is unpredictable: free bits (61_debug R798). -/
def ldicPacket (p : BitVec 33) (parityOk : Bool) (s : State) : Out :=
  if s.jtag.ir ≠ irLdic then .refused .ldicMisused else ldicFunction p parityOk s.freeOut

/-! ## The other inputs -/

/-- Would withdrawing a pin break R703: its interrupt enabled, not masked and not yet taken. -/
def State.pinWithdrawn (s : State) (pin mask cpsrBit : Bool) : Bool :=
  pin && mask && !cpsrBit && !s.dbg.sds && !s.inReset

/-- Mark bytes of a line as of wrong parity, if the line is there. -/
def Cache.upset (c : Cache) (set way : BitVec 5) (bad : BitVec 32) : Cache :=
  { c with lines := c.lines.map fun l =>
      if l.set == set && l.way == way then { l with bad := l.bad ||| bad } else l }

/-- One input from outside (`tick` is the step's own and does not come here). -/
def applyEvent (e : HostEvent) (s : State) : Out :=
  match e with
  | .tick => .next s
  | .fiq on =>
    if !on && s.pinWithdrawn s.icu.fiqPin (s.icu.intctl.getLsbD 0) (bitF s.cpsr) then .refused .interruptWithdrawn
    else .next { s with icu := { s.icu with fiqPin := on } }
  | .irq on =>
    if !on && s.pinWithdrawn s.icu.irqPin (s.icu.intctl.getLsbD 1) (bitI s.cpsr) then .refused .interruptWithdrawn
    else .next { s with icu := { s.icu with irqPin := on } }
  | .reset trst => .next (s.applyReset trst)
  | .resetAssert trst => .next (s.assertReset trst)
  | .resetRelease => .next s.releaseReset
  | .shortReset => .refused .resetTooShort
  | .trst =>
    let s1 : State := { s.trst with inReset := s.resetPin }
    .next (if s.inReset then s1.resetInstrCaches else s1)
  | .jtagIr code => loadIr code s
  | .scanDr din => scanDr din s
  | .ldic p ok => ldicPacket p ok s
  | .imprecise k => .next (s.pend k)
  | .upsetI mini set way bad =>
    .next (if mini then { s with minic := s.minic.upset set way bad } else { s with icache := s.icache.upset set way bad })
  | .upsetD mini set way bad =>
    .next (if mini then { s with minid := s.minid.upset set way bad } else { s with dcache := s.dcache.upset set way bad })
  | .busWrite pa b =>
    let s1 := s.otherWrite pa b
    .next (if s.inReset then s1.resetInstrCaches else s1)
  | .abortRegions rs => .next { s with board := { s.board with abortRegions := rs } }
  | .between ws => .next { s with board := { s.board with between := ws } }
  | .cwf rs => .next { s with board := { s.board with cwf := rs } }
  | .eccError block e => .next (s.setEcc block.toNat e)
  | .pins bus32 pllcfg => .next { s with board := { s.board with bus32 := bus32, pllcfg := pllcfg } }

end Sys2Proof.Machine
end

