-- ==== Sys2Proof/Machine/LoadStore.lean ====
section
/-!
DEFINITION. The meanings of the ARM loads, stores, PLD, load and store multiple and swap (43_arm R483 to R516).
-/

namespace Sys2Proof.Machine

/-! ## PLD (R497) -/

/-- PLD ends: no register changes. -/
def preloadAt (va : Word) (s : State) : Out := (preload va s).finish true id fun _ s1 => .next (s1.advance s1.isize)

/-- PLD, immediate offset (R497). -/
def execPldImm (u : Bool) (rn : Reg) (off : BitVec 12) (s : State) : Out :=
  preloadAt (offsetBy u (s.reg rn) (off.setWidth 32)) s

/-- PLD, register offset (R497). -/
def execPldReg (u : Bool) (rn : Reg) (sh : ImmShift) (s : State) : Out :=
  noR15 [sh.rm] (preloadAt (offsetBy u (s.reg rn) (s.immShift sh).value) s)

/-! ## The T forms (R487 to R490): post-indexed, checked as User accesses -/

/-- LDRT, immediate offset (R487). -/
def execLdrtImm (c : Cond) (u : Bool) (rn rd : Reg) (off : BitVec 12) (s : State) : Out :=
  armCond c s (noR15 [rd] (unlessRefused (mode2Refusal ⟨.post, u, rn⟩ rd none)
    (loadWord false (s.mode2 ⟨.post, u, rn⟩ (off.setWidth 32)) rn rd s)))

/-- LDRT, register offset (R487). -/
def execLdrtReg (c : Cond) (u : Bool) (rn rd : Reg) (sh : ImmShift) (s : State) : Out :=
  armCond c s (noR15 [rd] (unlessRefused (mode2Refusal ⟨.post, u, rn⟩ rd (some sh.rm))
    (loadWord false (s.mode2 ⟨.post, u, rn⟩ (s.immShift sh).value) rn rd s)))

/-- LDRBT, immediate offset (R488). -/
def execLdrbtImm (c : Cond) (u : Bool) (rn rd : Reg) (off : BitVec 12) (s : State) : Out :=
  armCond c s (noR15 [rd] (unlessRefused (mode2Refusal ⟨.post, u, rn⟩ rd none)
    (loadSmall 1 false false (s.mode2 ⟨.post, u, rn⟩ (off.setWidth 32)) rn rd s)))

/-- LDRBT, register offset (R488). -/
def execLdrbtReg (c : Cond) (u : Bool) (rn rd : Reg) (sh : ImmShift) (s : State) : Out :=
  armCond c s (noR15 [rd] (unlessRefused (mode2Refusal ⟨.post, u, rn⟩ rd (some sh.rm))
    (loadSmall 1 false false (s.mode2 ⟨.post, u, rn⟩ (s.immShift sh).value) rn rd s)))

/-- STRT, immediate offset (R489); R15 stores as STR does (R485). -/
def execStrtImm (c : Cond) (u : Bool) (rn rd : Reg) (off : BitVec 12) (s : State) : Out :=
  armCond c s (unlessRefused (mode2Refusal ⟨.post, u, rn⟩ rd none)
    (store 4 (s.storedReg s.mode rd) false (s.mode2 ⟨.post, u, rn⟩ (off.setWidth 32)) rn s))

/-- STRT, register offset (R489); R15 stores as STR does (R485). -/
def execStrtReg (c : Cond) (u : Bool) (rn rd : Reg) (sh : ImmShift) (s : State) : Out :=
  armCond c s (unlessRefused (mode2Refusal ⟨.post, u, rn⟩ rd (some sh.rm))
    (store 4 (s.storedReg s.mode rd) false (s.mode2 ⟨.post, u, rn⟩ (s.immShift sh).value) rn s))

/-- STRBT, immediate offset (R490). -/
def execStrbtImm (c : Cond) (u : Bool) (rn rd : Reg) (off : BitVec 12) (s : State) : Out :=
  armCond c s (noR15 [rd] (unlessRefused (mode2Refusal ⟨.post, u, rn⟩ rd none)
    (store 1 (s.reg rd) false (s.mode2 ⟨.post, u, rn⟩ (off.setWidth 32)) rn s)))

/-- STRBT, register offset (R490). -/
def execStrbtReg (c : Cond) (u : Bool) (rn rd : Reg) (sh : ImmShift) (s : State) : Out :=
  armCond c s (noR15 [rd] (unlessRefused (mode2Refusal ⟨.post, u, rn⟩ rd (some sh.rm))
    (store 1 (s.reg rd) false (s.mode2 ⟨.post, u, rn⟩ (s.immShift sh).value) rn s)))

/-! ## Words and bytes (R483 to R486) -/

/-- LDR with an RRX offset should not run in DEBUG mode (61_debug R790). -/
def isRrx (sh : ImmShift) : Bool := sh.kind == .ror && sh.amount == 0

/-- LDR, immediate offset (R483). -/
def execLdrImm (c : Cond) (a : Mode2) (rd : Reg) (off : BitVec 12) (s : State) : Out :=
  armCond c s (unlessRefused (mode2Refusal a rd none)
    (if rd = 15 then notInDebug s (loadWord s.priv (s.mode2 a (off.setWidth 32)) a.rn rd s)
     else loadWord s.priv (s.mode2 a (off.setWidth 32)) a.rn rd s))

/-- LDR, register offset (R483). -/
def execLdrReg (c : Cond) (a : Mode2) (rd : Reg) (sh : ImmShift) (s : State) : Out :=
  armCond c s (unlessRefused (mode2Refusal a rd (some sh.rm))
    (if rd = 15 ∨ isRrx sh then notInDebug s (loadWord s.priv (s.mode2 a (s.immShift sh).value) a.rn rd s)
     else loadWord s.priv (s.mode2 a (s.immShift sh).value) a.rn rd s))

/-- LDRB, immediate offset (R484). -/
def execLdrbImm (c : Cond) (a : Mode2) (rd : Reg) (off : BitVec 12) (s : State) : Out :=
  armCond c s (noR15 [rd] (unlessRefused (mode2Refusal a rd none)
    (loadSmall 1 false s.priv (s.mode2 a (off.setWidth 32)) a.rn rd s)))

/-- LDRB, register offset (R484). -/
def execLdrbReg (c : Cond) (a : Mode2) (rd : Reg) (sh : ImmShift) (s : State) : Out :=
  armCond c s (noR15 [rd] (unlessRefused (mode2Refusal a rd (some sh.rm))
    (loadSmall 1 false s.priv (s.mode2 a (s.immShift sh).value) a.rn rd s)))

/-- STR, immediate offset (R485). -/
def execStrImm (c : Cond) (a : Mode2) (rd : Reg) (off : BitVec 12) (s : State) : Out :=
  armCond c s (unlessRefused (mode2Refusal a rd none)
    (store 4 (s.storedReg s.mode rd) s.priv (s.mode2 a (off.setWidth 32)) a.rn s))

/-- STR, register offset (R485). -/
def execStrReg (c : Cond) (a : Mode2) (rd : Reg) (sh : ImmShift) (s : State) : Out :=
  armCond c s (unlessRefused (mode2Refusal a rd (some sh.rm))
    (store 4 (s.storedReg s.mode rd) s.priv (s.mode2 a (s.immShift sh).value) a.rn s))

/-- STRB, immediate offset (R486). -/
def execStrbImm (c : Cond) (a : Mode2) (rd : Reg) (off : BitVec 12) (s : State) : Out :=
  armCond c s (noR15 [rd] (unlessRefused (mode2Refusal a rd none)
    (store 1 (s.reg rd) s.priv (s.mode2 a (off.setWidth 32)) a.rn s)))

/-- STRB, register offset (R486). -/
def execStrbReg (c : Cond) (a : Mode2) (rd : Reg) (sh : ImmShift) (s : State) : Out :=
  armCond c s (noR15 [rd] (unlessRefused (mode2Refusal a rd (some sh.rm))
    (store 1 (s.reg rd) s.priv (s.mode2 a (s.immShift sh).value) a.rn s)))

/-! ## Halfwords and signed bytes (R491 to R494) -/

/-- LDRH, immediate offset (R491). -/
def execLdrhImm (c : Cond) (a : Mode3) (rd : Reg) (off : BitVec 8) (s : State) : Out :=
  armCond c s (noR15 [rd] (unlessRefused (mode3Refusal a [rd] none)
    (loadSmall 2 false s.priv (s.mode3 a (off.setWidth 32)) a.rn rd s)))

/-- LDRH, register offset (R491). -/
def execLdrhReg (c : Cond) (a : Mode3) (rd rm : Reg) (s : State) : Out :=
  armCond c s (noR15 [rd] (unlessRefused (mode3Refusal a [rd] (some rm))
    (loadSmall 2 false s.priv (s.mode3 a (s.reg rm)) a.rn rd s)))

/-- LDRSH, immediate offset (R492). -/
def execLdrshImm (c : Cond) (a : Mode3) (rd : Reg) (off : BitVec 8) (s : State) : Out :=
  armCond c s (noR15 [rd] (unlessRefused (mode3Refusal a [rd] none)
    (loadSmall 2 true s.priv (s.mode3 a (off.setWidth 32)) a.rn rd s)))

/-- LDRSH, register offset (R492). -/
def execLdrshReg (c : Cond) (a : Mode3) (rd rm : Reg) (s : State) : Out :=
  armCond c s (noR15 [rd] (unlessRefused (mode3Refusal a [rd] (some rm))
    (loadSmall 2 true s.priv (s.mode3 a (s.reg rm)) a.rn rd s)))

/-- LDRSB, immediate offset (R493); R15 is not forbidden (log 53). -/
def execLdrsbImm (c : Cond) (a : Mode3) (rd : Reg) (off : BitVec 8) (s : State) : Out :=
  armCond c s (unlessRefused (mode3Refusal a [rd] none)
    (loadSmall 1 true s.priv (s.mode3 a (off.setWidth 32)) a.rn rd s))

/-- LDRSB, register offset (R493); R15 is not forbidden (log 53). -/
def execLdrsbReg (c : Cond) (a : Mode3) (rd rm : Reg) (s : State) : Out :=
  armCond c s (unlessRefused (mode3Refusal a [rd] (some rm))
    (loadSmall 1 true s.priv (s.mode3 a (s.reg rm)) a.rn rd s))

/-- STRH, immediate offset (R494). -/
def execStrhImm (c : Cond) (a : Mode3) (rd : Reg) (off : BitVec 8) (s : State) : Out :=
  armCond c s (noR15 [rd] (unlessRefused (mode3Refusal a [rd] none)
    (store 2 (s.reg rd) s.priv (s.mode3 a (off.setWidth 32)) a.rn s)))

/-- STRH, register offset (R494). -/
def execStrhReg (c : Cond) (a : Mode3) (rd rm : Reg) (s : State) : Out :=
  armCond c s (noR15 [rd] (unlessRefused (mode3Refusal a [rd] (some rm))
    (store 2 (s.reg rd) s.priv (s.mode3 a (s.reg rm)) a.rn s)))

/-! ## Doublewords (R495, R496, R498) -/

/-- LDRD, immediate offset (R495). -/
def execLdrdImm (c : Cond) (a : Mode3) (rd : Reg) (off : BitVec 8) (s : State) : Out :=
  armCond c s (doubleRegs rd s (unlessRefused (mode3Refusal a [rd, rd + 1] none)
    (loadDouble (s.mode3 a (off.setWidth 32)) a.rn rd s)))

/-- LDRD, register offset (R495); the offset register may not be a destination (R498). -/
def execLdrdReg (c : Cond) (a : Mode3) (rd rm : Reg) (s : State) : Out :=
  armCond c s (doubleRegs rd s (unlessRefused (mode3Refusal a [rd, rd + 1] (some rm))
    (if rm = rd ∨ rm = rd + 1 then .refused .registerClash else loadDouble (s.mode3 a (s.reg rm)) a.rn rd s)))

/-- STRD, immediate offset (R496). -/
def execStrdImm (c : Cond) (a : Mode3) (rd : Reg) (off : BitVec 8) (s : State) : Out :=
  armCond c s (doubleRegs rd s (unlessRefused (mode3Refusal a [rd, rd + 1] none)
    (storeDouble (s.mode3 a (off.setWidth 32)) a.rn rd s)))

/-- STRD, register offset (R496). -/
def execStrdReg (c : Cond) (a : Mode3) (rd rm : Reg) (s : State) : Out :=
  armCond c s (doubleRegs rd s (unlessRefused (mode3Refusal a [rd, rd + 1] (some rm))
    (storeDouble (s.mode3 a (s.reg rm)) a.rn rd s)))

/-! ## Load and store multiple (R500 to R511) -/

/-- LDM (1) (R505). -/
def execLdm1 (c : Cond) (a : Mode4) (list : BitVec 16) (s : State) : Out :=
  armCond c s (unlessRefused (mode4Refusal a list)
    (if a.w && inList list a.rn then .refused .registerClash
     else notInDebug s (loadMultiple (s.mode4 a (regList list).length) a.rn list s)))

/-- May the user-bank forms run: W = 0, and a mode that has banked registers of its own (R509, R511). -/
def userBank (a : Mode4) (s : State) (k : Out) : Out :=
  if a.w then .refused .userBankWriteback else if (spsrIndex s.mode).isNone then .fault .noSpsr else k

/-- LDM (2) (R509): into the User-mode bank. -/
def execLdm2 (c : Cond) (a : Mode4) (list : BitVec 15) (s : State) : Out :=
  armCond c s (unlessRefused (mode4Refusal a (list.setWidth 16)) (userBank a s (notInDebug s
    ((loadList modeUsr (lowList (list.setWidth 16)) false
        (s.mode4 a (regList (list.setWidth 16)).length).addr a.rn s).finish true id
      fun _ s1 => .next (s1.advance s1.isize)))))

/-- LDM (3) (R510): the registers, then the return from the exception. -/
def execLdm3 (c : Cond) (a : Mode4) (list : BitVec 15) (s : State) : Out :=
  armCond c s (unlessRefused (mode4Refusal a (1#1 ++ list))
    (if a.w && inList (1#1 ++ list) a.rn then .refused .registerClash
     else notInDebug s
      (let m := s.mode4 a (regList (1#1 ++ list)).length
       (loadList s.mode (lowList (1#1 ++ list)) true m.addr a.rn s).finish false (m.apply a.rn)
         fun v s1 => exceptionReturn v (m.apply a.rn s1))))

/-- STM (1) (R506). -/
def execStm1 (c : Cond) (a : Mode4) (list : BitVec 16) (s : State) : Out :=
  armCond c s (unlessRefused (mode4Refusal a list)
    (storeMultiple s.mode (s.mode4 a (regList list).length) a.rn list s))

/-- STM (2) (R511): from the User-mode bank. -/
def execStm2 (c : Cond) (a : Mode4) (list : BitVec 16) (s : State) : Out :=
  armCond c s (unlessRefused (mode4Refusal a list) (userBank a s
    (storeMultiple modeUsr (s.mode4 a (regList list).length) a.rn list s)))

/-! ## Swap (R515, R516) -/

/-- SWP (R515). -/
def execSwp (c : Cond) (rn rd rm : Reg) (s : State) : Out :=
  armCond c s (unlessRefused (swapRefusal rn rd rm) (notInDebug s (swap 4 rn rd rm s)))

/-- SWPB (R516). -/
def execSwpb (c : Cond) (rn rd rm : Reg) (s : State) : Out :=
  armCond c s (unlessRefused (swapRefusal rn rd rm) (notInDebug s (swap 1 rn rd rm s)))

end Sys2Proof.Machine
end

