-- ==== Sys2Proof/Machine/Multiply.lean ====
section
/-!
DEFINITION. The meanings of the ARM multiplies, the DSP multiplies and the saturating arithmetic (41_arm R421 to R436),
and of the accumulator instructions of coprocessor 0 (45_cp0 R571 to R576).
-/

namespace Sys2Proof.Machine

/-! ## Shared -/

/-- A 32-bit product written with its flags: N, Z when S (R421). -/
def writeProduct (sb : Bool) (rd : Reg) (v : Word) (s : State) : Out :=
  let s1 := s.setReg rd v
  .next (({ s1 with cpsr := if sb then withNZ s1.cpsr (v.getLsbD 31) (v == 0) else s1.cpsr } : State).advance s.isize)

/-- A 64-bit value written to RdHi and RdLo. -/
def State.setLong (s : State) (rdHi rdLo : Reg) (v : BitVec 64) : State :=
  (s.setReg rdHi (v.extractLsb' 32 32)).setReg rdLo (v.extractLsb' 0 32)

/-- A 64-bit product written with its flags: N, Z when S (R423). -/
def writeLong (sb : Bool) (rdHi rdLo : Reg) (v : BitVec 64) (s : State) : Out :=
  let s1 := s.setLong rdHi rdLo v
  .next (({ s1 with cpsr := if sb then withNZ s1.cpsr (v.getLsbD 63) (v == 0) else s1.cpsr } : State).advance s.isize)

/-- The 64-bit value of RdHi:RdLo. -/
def State.long (s : State) (rdHi rdLo : Reg) : BitVec 64 := s.reg rdHi ++ s.reg rdLo

/-- A long multiply needs two destinations (R423). -/
def twoDests (rdHi rdLo : Reg) (k : Out) : Out := if rdHi = rdLo then .refused .registerClash else k

/-- A 32-bit result that may set Q (R428, R433). -/
def writeSticky (rd : Reg) (v : Word) (q : Bool) (s : State) : Out :=
  let s1 := s.setReg rd v
  .next (({ s1 with cpsr := withQ s1.cpsr q } : State).advance s.isize)

/-- Bits 47:16 of a signed 48-bit product (R429). -/
def productTop (p : Int) : Int := p / 65536

/-! ## Multiplies (41_arm R421 to R426) -/

/-- MUL (R421). -/
def execMul (c : Cond) (sb : Bool) (rd rs rm : Reg) (s : State) : Out :=
  armCond c s (noR15 [rd, rs, rm] (writeProduct sb rd (s.reg rm * s.reg rs) s))

/-- MLA (R422). -/
def execMla (c : Cond) (sb : Bool) (rd rn rs rm : Reg) (s : State) : Out :=
  armCond c s (noR15 [rd, rn, rs, rm] (writeProduct sb rd (s.reg rm * s.reg rs + s.reg rn) s))

/-- UMULL (R423). -/
def execUmull (c : Cond) (sb : Bool) (rdHi rdLo rs rm : Reg) (s : State) : Out :=
  armCond c s (noR15 [rdHi, rdLo, rs, rm] (twoDests rdHi rdLo
    (writeLong sb rdHi rdLo (BitVec.ofNat 64 ((s.reg rm).toNat * (s.reg rs).toNat)) s)))

/-- UMLAL (R424). -/
def execUmlal (c : Cond) (sb : Bool) (rdHi rdLo rs rm : Reg) (s : State) : Out :=
  armCond c s (noR15 [rdHi, rdLo, rs, rm] (twoDests rdHi rdLo
    (writeLong sb rdHi rdLo
      (BitVec.ofNat 64 ((s.reg rm).toNat * (s.reg rs).toNat + (s.long rdHi rdLo).toNat)) s)))

/-- SMULL (R425). -/
def execSmull (c : Cond) (sb : Bool) (rdHi rdLo rs rm : Reg) (s : State) : Out :=
  armCond c s (noR15 [rdHi, rdLo, rs, rm] (twoDests rdHi rdLo
    (writeLong sb rdHi rdLo (BitVec.ofInt 64 ((s.reg rm).toInt * (s.reg rs).toInt)) s)))

/-- SMLAL (R426). -/
def execSmlal (c : Cond) (sb : Bool) (rdHi rdLo rs rm : Reg) (s : State) : Out :=
  armCond c s (noR15 [rdHi, rdLo, rs, rm] (twoDests rdHi rdLo
    (writeLong sb rdHi rdLo
      (BitVec.ofInt 64 ((s.reg rm).toInt * (s.reg rs).toInt + (s.long rdHi rdLo).toInt)) s)))

/-! ## DSP multiplies (41_arm R427 to R431) -/

/-- SMULxy (R427). -/
def execSmulxy (c : Cond) (rd rs : Reg) (y x : Bool) (rm : Reg) (s : State) : Out :=
  armCond c s (noR15 [rd, rs, rm]
    (writeReg rd (BitVec.ofInt 32 (signedHalf (s.reg rm) x * signedHalf (s.reg rs) y)) s))

/-- SMLAxy (R428). -/
def execSmlaxy (c : Cond) (rd rn rs : Reg) (y x : Bool) (rm : Reg) (s : State) : Out :=
  armCond c s (noR15 [rd, rn, rs, rm]
    (let t := signedHalf (s.reg rm) x * signedHalf (s.reg rs) y + (s.reg rn).toInt
     writeSticky rd (BitVec.ofInt 32 t) (signedOverflows t) s))

/-- SMULWy (R429). -/
def execSmulwy (c : Cond) (rd rs : Reg) (y : Bool) (rm : Reg) (s : State) : Out :=
  armCond c s (noR15 [rd, rs, rm]
    (writeReg rd (BitVec.ofInt 32 (productTop ((s.reg rm).toInt * signedHalf (s.reg rs) y))) s))

/-- SMLAWy (R430). -/
def execSmlawy (c : Cond) (rd rn rs : Reg) (y : Bool) (rm : Reg) (s : State) : Out :=
  armCond c s (noR15 [rd, rn, rs, rm]
    (let t := productTop ((s.reg rm).toInt * signedHalf (s.reg rs) y) + (s.reg rn).toInt
     writeSticky rd (BitVec.ofInt 32 t) (signedOverflows t) s))

/-- SMLALxy (R431): no flags. -/
def execSmlalxy (c : Cond) (rdHi rdLo rs : Reg) (y x : Bool) (rm : Reg) (s : State) : Out :=
  armCond c s (noR15 [rdHi, rdLo, rs, rm] (twoDests rdHi rdLo
    (writeLong false rdHi rdLo
      (BitVec.ofInt 64 ((s.long rdHi rdLo).toInt + signedHalf (s.reg rm) x * signedHalf (s.reg rs) y)) s)))

/-! ## Saturating arithmetic (41_arm R432 to R436) -/

/-- QADD (R433). -/
def execQadd (c : Cond) (rn rd rm : Reg) (s : State) : Out :=
  armCond c s (noR15 [rn, rd, rm]
    (let r := signedSat ((s.reg rm).toInt + (s.reg rn).toInt)
     writeSticky rd r.1 r.2 s))

/-- QSUB (R434). -/
def execQsub (c : Cond) (rn rd rm : Reg) (s : State) : Out :=
  armCond c s (noR15 [rn, rd, rm]
    (let r := signedSat ((s.reg rm).toInt - (s.reg rn).toInt)
     writeSticky rd r.1 r.2 s))

/-- QDADD (R435). -/
def execQdadd (c : Cond) (rn rd rm : Reg) (s : State) : Out :=
  armCond c s (noR15 [rn, rd, rm]
    (let d := signedSat (2 * (s.reg rn).toInt)
     let r := signedSat ((s.reg rm).toInt + d.1.toInt)
     writeSticky rd r.1 (d.2 || r.2) s))

/-- QDSUB (R436). -/
def execQdsub (c : Cond) (rn rd rm : Reg) (s : State) : Out :=
  armCond c s (noR15 [rn, rd, rm]
    (let d := signedSat (2 * (s.reg rn).toInt)
     let r := signedSat ((s.reg rm).toInt - d.1.toInt)
     writeSticky rd r.1 (d.2 || r.2) s))

/-! ## The accumulator (45_cp0 R571 to R577) -/

/-- The common frame (R571): without CPAR bit 0 the undefined-instruction exception; other accumulators and R15 are
unpredictable. -/
def withAcc (acc : BitVec 3) (rs : List Reg) (s : State) (k : Out) : Out :=
  if s.cpDenied 0 then raiseUndef s
  else if acc ≠ 0 then .refused .accumulatorReserved
  else noR15 rs k

/-- acc0 <- acc0 + p, modulo 2^40 (R572). -/
def accumulate (p : Int) (s : State) : Out :=
  .next (({ s with acc0 := BitVec.ofInt 40 (p + s.acc0.toInt) } : State).advance s.isize)

/-- MIA (R572). -/
def execMia (c : Cond) (rs : Reg) (acc : BitVec 3) (rm : Reg) (s : State) : Out :=
  armCond c s (withAcc acc [rs, rm] s (accumulate ((s.reg rm).toInt * (s.reg rs).toInt) s))

/-- MIAPH (R573). -/
def execMiaph (c : Cond) (rs : Reg) (acc : BitVec 3) (rm : Reg) (s : State) : Out :=
  armCond c s (withAcc acc [rs, rm] s
    (accumulate (signedHalf (s.reg rm) true * signedHalf (s.reg rs) true
      + signedHalf (s.reg rm) false * signedHalf (s.reg rs) false) s))

/-- MIABB (R574). -/
def execMiabb (c : Cond) (rs : Reg) (acc : BitVec 3) (rm : Reg) (s : State) : Out :=
  armCond c s (withAcc acc [rs, rm] s (accumulate (signedHalf (s.reg rm) false * signedHalf (s.reg rs) false) s))

/-- MIABT (R574). -/
def execMiabt (c : Cond) (rs : Reg) (acc : BitVec 3) (rm : Reg) (s : State) : Out :=
  armCond c s (withAcc acc [rs, rm] s (accumulate (signedHalf (s.reg rm) false * signedHalf (s.reg rs) true) s))

/-- MIATB (R574). -/
def execMiatb (c : Cond) (rs : Reg) (acc : BitVec 3) (rm : Reg) (s : State) : Out :=
  armCond c s (withAcc acc [rs, rm] s (accumulate (signedHalf (s.reg rm) true * signedHalf (s.reg rs) false) s))

/-- MIATT (R574). -/
def execMiatt (c : Cond) (rs : Reg) (acc : BitVec 3) (rm : Reg) (s : State) : Out :=
  armCond c s (withAcc acc [rs, rm] s (accumulate (signedHalf (s.reg rm) true * signedHalf (s.reg rs) true) s))

/-- Bits 7:3 of the accumulator-access format must be zero (R577). -/
def sbzAcc (sbz : BitVec 5) (k : Out) : Out := if sbz = 0 then k else .refused .accumulatorReserved

/-- MAR (R575). -/
def execMar (c : Cond) (rdHi rdLo : Reg) (sbz : BitVec 5) (acc : BitVec 3) (s : State) : Out :=
  armCond c s (withAcc acc [rdHi, rdLo] s (sbzAcc sbz
    (.next (({ s with acc0 := (s.reg rdHi).extractLsb' 0 8 ++ s.reg rdLo } : State).advance s.isize))))

/-- MRA (R576). -/
def execMra (c : Cond) (rdHi rdLo : Reg) (sbz : BitVec 5) (acc : BitVec 3) (s : State) : Out :=
  armCond c s (withAcc acc [rdHi, rdLo] s (sbzAcc sbz (twoDests rdHi rdLo
    (.next (((s.setReg rdHi ((s.acc0.extractLsb' 32 8).signExtend 32)).setReg rdLo
      (s.acc0.extractLsb' 0 32)).advance s.isize)))))

end Sys2Proof.Machine
end

