-- ==== Sys2Proof/Machine/ThumbAlu.lean ====
section
/-!
DEFINITION. The meanings of the Thumb data-processing instructions (46_thumb R593 to R627, R647 to R650), over the ARM
operations they are equivalent to.
-/

namespace Sys2Proof.Machine

/-- A register's value as an unshifted operand. -/
def State.plain (s : State) (r : LowReg) : Shifted := ⟨s.reg (lowReg r), flagC s.cpsr⟩

/-- A small immediate as an operand. -/
def State.imm (s : State) {n : Nat} (v : BitVec n) : Shifted := ⟨v.setWidth 32, flagC s.cpsr⟩

/-- A low register shifted by an immediate (R593 to R595). -/
def State.thumbShift (s : State) (k : ShiftKind) (imm : BitVec 5) (rm : LowReg) : Shifted :=
  s.immShift ⟨imm, k, lowReg rm⟩

/-- Rd shifted by Rm (R606 to R608, R611). -/
def State.thumbRegShift (s : State) (k : ShiftKind) (rm rd : LowReg) : Shifted :=
  s.regShift ⟨lowReg rm, k, lowReg rd⟩

/-- The value of a data-processing result, without flags. -/
def writeSum (rd : Reg) (v : Word) (s : State) : Out := if rd = 15 then .next (s.jumpKeepState v) else writeReg rd v s

/-- The PC operand of LDR (3) and ADD (5): address + 4 with bits 1:0 zero (R630, R647). -/
def State.pcAligned (s : State) : Word := (s.pc + 4) &&& 0xFFFFFFFC

/-- The high-register forms with two low registers are unpredictable (R625 to R627). -/
def notBothLow (d m : Reg) (k : Out) : Out := if !d.getLsbD 3 && !m.getLsbD 3 then .refused .bothLow else k

/-- Thumb LSL1 (R593). -/
def execTLsl1 (imm : BitVec 5) (rm rd : LowReg) (s : State) : Out :=
  writeAlu true (lowReg rd) (aluMov s.cpsr (s.thumbShift .lsl imm rm)) s

/-- Thumb LSR1 (R594). -/
def execTLsr1 (imm : BitVec 5) (rm rd : LowReg) (s : State) : Out :=
  writeAlu true (lowReg rd) (aluMov s.cpsr (s.thumbShift .lsr imm rm)) s

/-- Thumb ASR1 (R595). -/
def execTAsr1 (imm : BitVec 5) (rm rd : LowReg) (s : State) : Out :=
  writeAlu true (lowReg rd) (aluMov s.cpsr (s.thumbShift .asr imm rm)) s

/-- Thumb ADD3 (R596). -/
def execTAdd3 (rm rn rd : LowReg) (s : State) : Out :=
  writeAlu true (lowReg rd) (aluAdd s.cpsr (s.reg (lowReg rn)) (s.plain rm)) s

/-- Thumb SUB3 (R597). -/
def execTSub3 (rm rn rd : LowReg) (s : State) : Out :=
  writeAlu true (lowReg rd) (aluSub s.cpsr (s.reg (lowReg rn)) (s.plain rm)) s

/-- Thumb ADD1 (R598). -/
def execTAdd1 (imm : BitVec 3) (rn rd : LowReg) (s : State) : Out :=
  writeAlu true (lowReg rd) (aluAdd s.cpsr (s.reg (lowReg rn)) (s.imm imm)) s

/-- Thumb SUB1 (R599). -/
def execTSub1 (imm : BitVec 3) (rn rd : LowReg) (s : State) : Out :=
  writeAlu true (lowReg rd) (aluSub s.cpsr (s.reg (lowReg rn)) (s.imm imm)) s

/-- Thumb MOV1 (R600). -/
def execTMov1 (rd : LowReg) (imm : BitVec 8) (s : State) : Out :=
  writeAlu true (lowReg rd) (aluMov s.cpsr (s.imm imm)) s

/-- Thumb CMP1 (R601). -/
def execTCmp1 (rn : LowReg) (imm : BitVec 8) (s : State) : Out :=
  writeFlags (aluSub s.cpsr (s.reg (lowReg rn)) (s.imm imm)) s

/-- Thumb ADD2 (R602). -/
def execTAdd2 (rd : LowReg) (imm : BitVec 8) (s : State) : Out :=
  writeAlu true (lowReg rd) (aluAdd s.cpsr (s.reg (lowReg rd)) (s.imm imm)) s

/-- Thumb SUB2 (R603). -/
def execTSub2 (rd : LowReg) (imm : BitVec 8) (s : State) : Out :=
  writeAlu true (lowReg rd) (aluSub s.cpsr (s.reg (lowReg rd)) (s.imm imm)) s

/-- Thumb AND (R604). -/
def execTAnd (rm rd : LowReg) (s : State) : Out :=
  writeAlu true (lowReg rd) (aluAnd s.cpsr (s.reg (lowReg rd)) (s.plain rm)) s

/-- Thumb EOR (R605). -/
def execTEor (rm rd : LowReg) (s : State) : Out :=
  writeAlu true (lowReg rd) (aluEor s.cpsr (s.reg (lowReg rd)) (s.plain rm)) s

/-- Thumb LSL2 (R606). -/
def execTLsl2 (rm rd : LowReg) (s : State) : Out :=
  writeAlu true (lowReg rd) (aluMov s.cpsr (s.thumbRegShift .lsl rm rd)) s

/-- Thumb LSR2 (R607). -/
def execTLsr2 (rm rd : LowReg) (s : State) : Out :=
  writeAlu true (lowReg rd) (aluMov s.cpsr (s.thumbRegShift .lsr rm rd)) s

/-- Thumb ASR2 (R608). -/
def execTAsr2 (rm rd : LowReg) (s : State) : Out :=
  writeAlu true (lowReg rd) (aluMov s.cpsr (s.thumbRegShift .asr rm rd)) s

/-- Thumb ADC (R609). -/
def execTAdc (rm rd : LowReg) (s : State) : Out :=
  writeAlu true (lowReg rd) (aluAdc s.cpsr (s.reg (lowReg rd)) (s.plain rm)) s

/-- Thumb SBC (R610). -/
def execTSbc (rm rd : LowReg) (s : State) : Out :=
  writeAlu true (lowReg rd) (aluSbc s.cpsr (s.reg (lowReg rd)) (s.plain rm)) s

/-- Thumb ROR (R611). -/
def execTRor (rm rd : LowReg) (s : State) : Out :=
  writeAlu true (lowReg rd) (aluMov s.cpsr (s.thumbRegShift .ror rm rd)) s

/-- Thumb TST (R612). -/
def execTTst (rm rd : LowReg) (s : State) : Out :=
  writeFlags (aluAnd s.cpsr (s.reg (lowReg rd)) (s.plain rm)) s

/-- Thumb NEG (R613). -/
def execTNeg (rm rd : LowReg) (s : State) : Out :=
  writeAlu true (lowReg rd) (aluRsb s.cpsr (s.reg (lowReg rm)) (s.imm 0#1)) s

/-- Thumb CMP2 (R614). -/
def execTCmp2 (rm rd : LowReg) (s : State) : Out :=
  writeFlags (aluSub s.cpsr (s.reg (lowReg rd)) (s.plain rm)) s

/-- Thumb CMN (R615). -/
def execTCmn (rm rd : LowReg) (s : State) : Out :=
  writeFlags (aluAdd s.cpsr (s.reg (lowReg rd)) (s.plain rm)) s

/-- Thumb ORR (R616). -/
def execTOrr (rm rd : LowReg) (s : State) : Out :=
  writeAlu true (lowReg rd) (aluOrr s.cpsr (s.reg (lowReg rd)) (s.plain rm)) s

/-- Thumb MUL (R617). -/
def execTMul (rm rd : LowReg) (s : State) : Out :=
  writeProduct true (lowReg rd) (s.reg (lowReg rm) * s.reg (lowReg rd)) s

/-- Thumb BIC (R618). -/
def execTBic (rm rd : LowReg) (s : State) : Out :=
  writeAlu true (lowReg rd) (aluBic s.cpsr (s.reg (lowReg rd)) (s.plain rm)) s

/-- Thumb MVN (R619). -/
def execTMvn (rm rd : LowReg) (s : State) : Out :=
  writeAlu true (lowReg rd) (aluMvn s.cpsr (s.plain rm)) s

/-- Thumb ADD4 (R625). -/
def execTAdd4 (d m : Reg) (s : State) : Out :=
  notBothLow d m (writeSum d (s.reg d + s.reg m) s)

/-- Thumb CMP3 (R626). -/
def execTCmp3 (n m : Reg) (s : State) : Out :=
  notBothLow n m (noR15 [n] (writeFlags (aluSub s.cpsr (s.reg n) ⟨s.reg m, flagC s.cpsr⟩) s))

/-- Thumb MOV3 (R627). -/
def execTMov3 (d m : Reg) (s : State) : Out :=
  notBothLow d m (writeSum d (s.reg m) s)

/-- Thumb ADD5 (R647). -/
def execTAdd5 (rd : LowReg) (imm : BitVec 8) (s : State) : Out :=
  writeReg (lowReg rd) (s.pcAligned + (imm.setWidth 32 <<< 2)) s

/-- Thumb ADD6 (R648). -/
def execTAdd6 (rd : LowReg) (imm : BitVec 8) (s : State) : Out :=
  writeReg (lowReg rd) (s.reg 13 + (imm.setWidth 32 <<< 2)) s

/-- Thumb ADD7 (R649). -/
def execTAdd7 (imm : BitVec 7) (s : State) : Out :=
  writeReg 13 (s.reg 13 + (imm.setWidth 32 <<< 2)) s

/-- Thumb SUB4 (R650). -/
def execTSub4 (imm : BitVec 7) (s : State) : Out :=
  writeReg 13 (s.reg 13 - (imm.setWidth 32 <<< 2)) s

end Sys2Proof.Machine
end

