-- ==== Sys2Proof/Machine/ThumbBranch.lean ====
section
/-!
DEFINITION. The meanings of the Thumb branches, SWI, BKPT and undefined encodings (46_thumb R628, R629, R655 to R660).
-/

namespace Sys2Proof.Machine

/-- The link value of a Thumb branch: the next instruction, with bit 0 set (R629, R657). -/
def State.thumbLink (s : State) : Word := (s.pc + 2) ||| 1

/-- Thumb BX (R628). -/
def execTBx (m : Reg) (s : State) : Out := branchExchange (s.reg m) s.noteBranch

/-- Thumb BLX (2) (R629): the target is read before R14 is written. -/
def execTBlx2 (m : Reg) (s : State) : Out :=
  noR15 [m] (branchExchange (s.reg m) (s.noteBranch.setReg 14 s.thumbLink))

/-- Thumb B (1), conditional (R655). -/
def execTB1 (c : Cond) (imm : BitVec 8) (s : State) : Out :=
  predictedBranch ((encodeThumb (.tB1 c imm)).setWidth 32) (condPassed c s.cpsr) (s.pc + 4 + (imm.signExtend 32 <<< 1)) s

/-- Thumb B (2) (R656). -/
def execTB2 (imm : BitVec 11) (s : State) : Out :=
  predictedBranch ((encodeThumb (.tB2 imm)).setWidth 32) true (s.pc + 4 + (imm.signExtend 32 <<< 1)) s

/-- Thumb BL and BLX (1), first half (R657). -/
def execTBlFirst (off : BitVec 11) (s : State) : Out :=
  .next ((s.setReg 14 (s.pc + 4 + (off.signExtend 32 <<< 12))).advance s.isize)

/-- Thumb BL, second half (R657). It is never in the BTB and counts as no mispredicted branch, PMU event 0x6 (DESIGN CHOICE,
log 37). -/
def execTBl (off : BitVec 11) (s : State) : Out :=
  let t := (s.reg 14 + (off.setWidth 32 <<< 1)) &&& 0xFFFFFFFE
  .next ((s.noteBranch.setReg 14 s.thumbLink).jump t (.direct t))

/-- Thumb BLX (1), second half (R657): bit 0 of the offset is 0, `off` holds bits 10:1. To ARM state. -/
def execTBlx1 (off : BitVec 10) (s : State) : Out :=
  let t := (s.reg 14 + (off.setWidth 32 <<< 2)) &&& 0xFFFFFFFC
  let s1 := s.noteBranch.setReg 14 s.thumbLink
  .next (({ s1 with cpsr := withT s1.cpsr false } : State).jump t (.indirect t))

/-- Thumb SWI (R658). -/
def execTSwi (_imm : BitVec 8) (s : State) : Out := raiseSwi s

/-- Thumb BKPT (R659). -/
def execTBkpt (_imm : BitVec 8) (s : State) : Out := breakpoint s

/-- Thumb undefined: the rest of the 1011 space (R660). -/
def execTUndefMisc (_rest : BitVec 12) (s : State) : Out := raiseUndef s

/-- Thumb undefined: a conditional branch with condition 1110 (R660). -/
def execTUndefCond (_rest : BitVec 8) (s : State) : Out := raiseUndef s

/-- Thumb undefined: the second half of BLX with bit 0 set (R660). -/
def execTUndefBlx (_off : BitVec 10) (s : State) : Out := raiseUndef s

end Sys2Proof.Machine
end

