-- ==== Sys2Proof/Machine/ThumbMem.lean ====
section
/-!
DEFINITION. The meanings of the Thumb loads and stores (46_thumb R630 to R646, R651 to R654), over the ARM transfers.
-/

namespace Sys2Proof.Machine

/-- An address without write-back: base plus offset. -/
def State.baseOffset (s : State) (rn : LowReg) (off : Word) : Addr := ⟨s.reg (lowReg rn) + off, none⟩

/-- Thumb LDR3 (R630). -/
def execTLdr3 (rd : LowReg) (imm : BitVec 8) (s : State) : Out :=
  loadWord s.priv ⟨s.pcAligned + (imm.setWidth 32 <<< 2), none⟩ 15 (lowReg rd) s

/-- Thumb STR2 (R631). -/
def execTStr2 (rm rn rd : LowReg) (s : State) : Out :=
  store 4 (s.reg (lowReg rd)) s.priv (s.baseOffset rn (s.reg (lowReg rm))) (lowReg rn) s

/-- Thumb STRH2 (R632). -/
def execTStrh2 (rm rn rd : LowReg) (s : State) : Out :=
  store 2 (s.reg (lowReg rd)) s.priv (s.baseOffset rn (s.reg (lowReg rm))) (lowReg rn) s

/-- Thumb STRB2 (R633). -/
def execTStrb2 (rm rn rd : LowReg) (s : State) : Out :=
  store 1 (s.reg (lowReg rd)) s.priv (s.baseOffset rn (s.reg (lowReg rm))) (lowReg rn) s

/-- Thumb LDRSB (R634). -/
def execTLdrsb (rm rn rd : LowReg) (s : State) : Out :=
  loadSmall 1 true s.priv (s.baseOffset rn (s.reg (lowReg rm))) (lowReg rn) (lowReg rd) s

/-- Thumb LDR2 (R635). -/
def execTLdr2 (rm rn rd : LowReg) (s : State) : Out :=
  loadWord s.priv (s.baseOffset rn (s.reg (lowReg rm))) (lowReg rn) (lowReg rd) s

/-- Thumb LDRH2 (R636). -/
def execTLdrh2 (rm rn rd : LowReg) (s : State) : Out :=
  loadSmall 2 false s.priv (s.baseOffset rn (s.reg (lowReg rm))) (lowReg rn) (lowReg rd) s

/-- Thumb LDRB2 (R637). -/
def execTLdrb2 (rm rn rd : LowReg) (s : State) : Out :=
  loadSmall 1 false s.priv (s.baseOffset rn (s.reg (lowReg rm))) (lowReg rn) (lowReg rd) s

/-- Thumb LDRSH (R638). -/
def execTLdrsh (rm rn rd : LowReg) (s : State) : Out :=
  loadSmall 2 true s.priv (s.baseOffset rn (s.reg (lowReg rm))) (lowReg rn) (lowReg rd) s

/-- Thumb STR1 (R639). -/
def execTStr1 (imm : BitVec 5) (rn rd : LowReg) (s : State) : Out :=
  store 4 (s.reg (lowReg rd)) s.priv (s.baseOffset rn (imm.setWidth 32 <<< 2)) (lowReg rn) s

/-- Thumb LDR1 (R640). -/
def execTLdr1 (imm : BitVec 5) (rn rd : LowReg) (s : State) : Out :=
  loadWord s.priv (s.baseOffset rn (imm.setWidth 32 <<< 2)) (lowReg rn) (lowReg rd) s

/-- Thumb STRB1 (R641). -/
def execTStrb1 (imm : BitVec 5) (rn rd : LowReg) (s : State) : Out :=
  store 1 (s.reg (lowReg rd)) s.priv (s.baseOffset rn (imm.setWidth 32)) (lowReg rn) s

/-- Thumb LDRB1 (R642). -/
def execTLdrb1 (imm : BitVec 5) (rn rd : LowReg) (s : State) : Out :=
  loadSmall 1 false s.priv (s.baseOffset rn (imm.setWidth 32)) (lowReg rn) (lowReg rd) s

/-- Thumb STRH1 (R643). -/
def execTStrh1 (imm : BitVec 5) (rn rd : LowReg) (s : State) : Out :=
  store 2 (s.reg (lowReg rd)) s.priv (s.baseOffset rn (imm.setWidth 32 <<< 1)) (lowReg rn) s

/-- Thumb LDRH1 (R644). -/
def execTLdrh1 (imm : BitVec 5) (rn rd : LowReg) (s : State) : Out :=
  loadSmall 2 false s.priv (s.baseOffset rn (imm.setWidth 32 <<< 1)) (lowReg rn) (lowReg rd) s

/-- Thumb STR3 (R645). -/
def execTStr3 (rd : LowReg) (imm : BitVec 8) (s : State) : Out :=
  store 4 (s.reg (lowReg rd)) s.priv ⟨s.reg 13 + (imm.setWidth 32 <<< 2), none⟩ 13 s

/-- Thumb LDR4 (R646). -/
def execTLdr4 (rd : LowReg) (imm : BitVec 8) (s : State) : Out :=
  loadWord s.priv ⟨s.reg 13 + (imm.setWidth 32 <<< 2), none⟩ 13 (lowReg rd) s

/-- The list of PUSH: the low registers, and R14. -/
def pushList (r : Bool) (list : BitVec 8) : BitVec 16 := 0#1 ++ BitVec.ofBool r ++ 0#6 ++ list

/-- The list of POP: the low registers, and R15. -/
def popList (r : Bool) (list : BitVec 8) : BitVec 16 := BitVec.ofBool r ++ 0#7 ++ list

/-- Thumb PUSH (R651): STMDB R13!. -/
def execTPush (r : Bool) (list : BitVec 8) (s : State) : Out :=
  unlessRefused (mode4Refusal ⟨true, false, true, 13⟩ (pushList r list))
    (storeMultiple s.mode (s.mode4 ⟨true, false, true, 13⟩ (regList (pushList r list)).length) 13 (pushList r list) s)

/-- Thumb POP (R652): LDMIA R13!. -/
def execTPop (r : Bool) (list : BitVec 8) (s : State) : Out :=
  unlessRefused (mode4Refusal ⟨false, true, true, 13⟩ (popList r list))
    (notInDebug s
      (loadMultiple (s.mode4 ⟨false, true, true, 13⟩ (regList (popList r list)).length) 13 (popList r list) s))

/-- Thumb STMIA (R653). -/
def execTStmia (rn : LowReg) (list : BitVec 8) (s : State) : Out :=
  unlessRefused (mode4Refusal ⟨false, true, true, lowReg rn⟩ (list.setWidth 16))
    (storeMultiple s.mode (s.mode4 ⟨false, true, true, lowReg rn⟩ (regList (list.setWidth 16)).length) (lowReg rn)
      (list.setWidth 16) s)

/-- Thumb LDMIA (R654): a base that is in the list keeps its loaded value. -/
def execTLdmia (rn : LowReg) (list : BitVec 8) (s : State) : Out :=
  unlessRefused (mode4Refusal ⟨false, true, true, lowReg rn⟩ (list.setWidth 16))
    (notInDebug s
      (loadMultiple
        (s.mode4 ⟨false, true, !inList (list.setWidth 16) (lowReg rn), lowReg rn⟩ (regList (list.setWidth 16)).length)
        (lowReg rn) (list.setWidth 16) s))

end Sys2Proof.Machine
end

