-- ==== Sys2Proof/Machine/Dispatch.lean ====
section
/-!
DEFINITION. One arm per instruction of the opcode table, in its order: a direct call of the instruction's meaning.
-/

namespace Sys2Proof.Machine

def exec (i : Instr) (s : State) : Host.Outcome State Fault Refusal :=
  match i with
  | .blx1 h imm => Sys2Proof.Machine.execBlx1 h imm s
  | .pldImm u rn off => Sys2Proof.Machine.execPldImm u rn off s
  | .pldReg u rn sh => Sys2Proof.Machine.execPldReg u rn sh s
  | .undefUncond rest => Sys2Proof.Machine.execUndefUncond rest s
  | .mul c sb rd rs rm => Sys2Proof.Machine.execMul c sb rd rs rm s
  | .mla c sb rd rn rs rm => Sys2Proof.Machine.execMla c sb rd rn rs rm s
  | .umull c sb rdHi rdLo rs rm => Sys2Proof.Machine.execUmull c sb rdHi rdLo rs rm s
  | .umlal c sb rdHi rdLo rs rm => Sys2Proof.Machine.execUmlal c sb rdHi rdLo rs rm s
  | .smull c sb rdHi rdLo rs rm => Sys2Proof.Machine.execSmull c sb rdHi rdLo rs rm s
  | .smlal c sb rdHi rdLo rs rm => Sys2Proof.Machine.execSmlal c sb rdHi rdLo rs rm s
  | .swp c rn rd rm => Sys2Proof.Machine.execSwp c rn rd rm s
  | .swpb c rn rd rm => Sys2Proof.Machine.execSwpb c rn rd rm s
  | .strhImm c a rd off => Sys2Proof.Machine.execStrhImm c a rd off s
  | .strhReg c a rd rm => Sys2Proof.Machine.execStrhReg c a rd rm s
  | .ldrhImm c a rd off => Sys2Proof.Machine.execLdrhImm c a rd off s
  | .ldrhReg c a rd rm => Sys2Proof.Machine.execLdrhReg c a rd rm s
  | .ldrsbImm c a rd off => Sys2Proof.Machine.execLdrsbImm c a rd off s
  | .ldrsbReg c a rd rm => Sys2Proof.Machine.execLdrsbReg c a rd rm s
  | .ldrshImm c a rd off => Sys2Proof.Machine.execLdrshImm c a rd off s
  | .ldrshReg c a rd rm => Sys2Proof.Machine.execLdrshReg c a rd rm s
  | .ldrdImm c a rd off => Sys2Proof.Machine.execLdrdImm c a rd off s
  | .ldrdReg c a rd rm => Sys2Proof.Machine.execLdrdReg c a rd rm s
  | .strdImm c a rd off => Sys2Proof.Machine.execStrdImm c a rd off s
  | .strdReg c a rd rm => Sys2Proof.Machine.execStrdReg c a rd rm s
  | .undefMul c rest low => Sys2Proof.Machine.execUndefMul c rest low s
  | .mrs c r rd => Sys2Proof.Machine.execMrs c r rd s
  | .msrReg c r mask rm => Sys2Proof.Machine.execMsrReg c r mask rm s
  | .bx c rm => Sys2Proof.Machine.execBx c rm s
  | .blx2 c rm => Sys2Proof.Machine.execBlx2 c rm s
  | .clz c rd rm => Sys2Proof.Machine.execClz c rd rm s
  | .bkpt c imm => Sys2Proof.Machine.execBkpt c imm s
  | .qadd c rn rd rm => Sys2Proof.Machine.execQadd c rn rd rm s
  | .qsub c rn rd rm => Sys2Proof.Machine.execQsub c rn rd rm s
  | .qdadd c rn rd rm => Sys2Proof.Machine.execQdadd c rn rd rm s
  | .qdsub c rn rd rm => Sys2Proof.Machine.execQdsub c rn rd rm s
  | .smlaxy c rd rn rs y x rm => Sys2Proof.Machine.execSmlaxy c rd rn rs y x rm s
  | .smlawy c rd rn rs y rm => Sys2Proof.Machine.execSmlawy c rd rn rs y rm s
  | .smulwy c rd rs y rm => Sys2Proof.Machine.execSmulwy c rd rs y rm s
  | .smlalxy c rdHi rdLo rs y x rm => Sys2Proof.Machine.execSmlalxy c rdHi rdLo rs y x rm s
  | .smulxy c rd rs y x rm => Sys2Proof.Machine.execSmulxy c rd rs y x rm s
  | .undefMisc c op rest low => Sys2Proof.Machine.execUndefMisc c op rest low s
  | .andShift c sb rn rd sh => Sys2Proof.Machine.execAndShift c sb rn rd sh s
  | .andRegShift c sb rn rd sh => Sys2Proof.Machine.execAndRegShift c sb rn rd sh s
  | .eorShift c sb rn rd sh => Sys2Proof.Machine.execEorShift c sb rn rd sh s
  | .eorRegShift c sb rn rd sh => Sys2Proof.Machine.execEorRegShift c sb rn rd sh s
  | .subShift c sb rn rd sh => Sys2Proof.Machine.execSubShift c sb rn rd sh s
  | .subRegShift c sb rn rd sh => Sys2Proof.Machine.execSubRegShift c sb rn rd sh s
  | .rsbShift c sb rn rd sh => Sys2Proof.Machine.execRsbShift c sb rn rd sh s
  | .rsbRegShift c sb rn rd sh => Sys2Proof.Machine.execRsbRegShift c sb rn rd sh s
  | .addShift c sb rn rd sh => Sys2Proof.Machine.execAddShift c sb rn rd sh s
  | .addRegShift c sb rn rd sh => Sys2Proof.Machine.execAddRegShift c sb rn rd sh s
  | .adcShift c sb rn rd sh => Sys2Proof.Machine.execAdcShift c sb rn rd sh s
  | .adcRegShift c sb rn rd sh => Sys2Proof.Machine.execAdcRegShift c sb rn rd sh s
  | .sbcShift c sb rn rd sh => Sys2Proof.Machine.execSbcShift c sb rn rd sh s
  | .sbcRegShift c sb rn rd sh => Sys2Proof.Machine.execSbcRegShift c sb rn rd sh s
  | .rscShift c sb rn rd sh => Sys2Proof.Machine.execRscShift c sb rn rd sh s
  | .rscRegShift c sb rn rd sh => Sys2Proof.Machine.execRscRegShift c sb rn rd sh s
  | .tstShift c rn sh => Sys2Proof.Machine.execTstShift c rn sh s
  | .tstRegShift c rn sh => Sys2Proof.Machine.execTstRegShift c rn sh s
  | .teqShift c rn sh => Sys2Proof.Machine.execTeqShift c rn sh s
  | .teqRegShift c rn sh => Sys2Proof.Machine.execTeqRegShift c rn sh s
  | .cmpShift c rn sh => Sys2Proof.Machine.execCmpShift c rn sh s
  | .cmpRegShift c rn sh => Sys2Proof.Machine.execCmpRegShift c rn sh s
  | .cmnShift c rn sh => Sys2Proof.Machine.execCmnShift c rn sh s
  | .cmnRegShift c rn sh => Sys2Proof.Machine.execCmnRegShift c rn sh s
  | .orrShift c sb rn rd sh => Sys2Proof.Machine.execOrrShift c sb rn rd sh s
  | .orrRegShift c sb rn rd sh => Sys2Proof.Machine.execOrrRegShift c sb rn rd sh s
  | .movShift c sb rd sh => Sys2Proof.Machine.execMovShift c sb rd sh s
  | .movRegShift c sb rd sh => Sys2Proof.Machine.execMovRegShift c sb rd sh s
  | .bicShift c sb rn rd sh => Sys2Proof.Machine.execBicShift c sb rn rd sh s
  | .bicRegShift c sb rn rd sh => Sys2Proof.Machine.execBicRegShift c sb rn rd sh s
  | .mvnShift c sb rd sh => Sys2Proof.Machine.execMvnShift c sb rd sh s
  | .mvnRegShift c sb rd sh => Sys2Proof.Machine.execMvnRegShift c sb rd sh s
  | .msrImm c r mask op => Sys2Proof.Machine.execMsrImm c r mask op s
  | .undefMsr c x rest => Sys2Proof.Machine.execUndefMsr c x rest s
  | .andImm c sb rn rd op => Sys2Proof.Machine.execAndImm c sb rn rd op s
  | .eorImm c sb rn rd op => Sys2Proof.Machine.execEorImm c sb rn rd op s
  | .subImm c sb rn rd op => Sys2Proof.Machine.execSubImm c sb rn rd op s
  | .rsbImm c sb rn rd op => Sys2Proof.Machine.execRsbImm c sb rn rd op s
  | .addImm c sb rn rd op => Sys2Proof.Machine.execAddImm c sb rn rd op s
  | .adcImm c sb rn rd op => Sys2Proof.Machine.execAdcImm c sb rn rd op s
  | .sbcImm c sb rn rd op => Sys2Proof.Machine.execSbcImm c sb rn rd op s
  | .rscImm c sb rn rd op => Sys2Proof.Machine.execRscImm c sb rn rd op s
  | .tstImm c rn op => Sys2Proof.Machine.execTstImm c rn op s
  | .teqImm c rn op => Sys2Proof.Machine.execTeqImm c rn op s
  | .cmpImm c rn op => Sys2Proof.Machine.execCmpImm c rn op s
  | .cmnImm c rn op => Sys2Proof.Machine.execCmnImm c rn op s
  | .orrImm c sb rn rd op => Sys2Proof.Machine.execOrrImm c sb rn rd op s
  | .movImm c sb rd op => Sys2Proof.Machine.execMovImm c sb rd op s
  | .bicImm c sb rn rd op => Sys2Proof.Machine.execBicImm c sb rn rd op s
  | .mvnImm c sb rd op => Sys2Proof.Machine.execMvnImm c sb rd op s
  | .ldrtImm c u rn rd off => Sys2Proof.Machine.execLdrtImm c u rn rd off s
  | .ldrtReg c u rn rd sh => Sys2Proof.Machine.execLdrtReg c u rn rd sh s
  | .ldrbtImm c u rn rd off => Sys2Proof.Machine.execLdrbtImm c u rn rd off s
  | .ldrbtReg c u rn rd sh => Sys2Proof.Machine.execLdrbtReg c u rn rd sh s
  | .strtImm c u rn rd off => Sys2Proof.Machine.execStrtImm c u rn rd off s
  | .strtReg c u rn rd sh => Sys2Proof.Machine.execStrtReg c u rn rd sh s
  | .strbtImm c u rn rd off => Sys2Proof.Machine.execStrbtImm c u rn rd off s
  | .strbtReg c u rn rd sh => Sys2Proof.Machine.execStrbtReg c u rn rd sh s
  | .ldrImm c a rd off => Sys2Proof.Machine.execLdrImm c a rd off s
  | .ldrReg c a rd sh => Sys2Proof.Machine.execLdrReg c a rd sh s
  | .ldrbImm c a rd off => Sys2Proof.Machine.execLdrbImm c a rd off s
  | .ldrbReg c a rd sh => Sys2Proof.Machine.execLdrbReg c a rd sh s
  | .strImm c a rd off => Sys2Proof.Machine.execStrImm c a rd off s
  | .strReg c a rd sh => Sys2Proof.Machine.execStrReg c a rd sh s
  | .strbImm c a rd off => Sys2Proof.Machine.execStrbImm c a rd off s
  | .strbReg c a rd sh => Sys2Proof.Machine.execStrbReg c a rd sh s
  | .undefMedia c rest low => Sys2Proof.Machine.execUndefMedia c rest low s
  | .ldm3 c a list => Sys2Proof.Machine.execLdm3 c a list s
  | .ldm2 c a list => Sys2Proof.Machine.execLdm2 c a list s
  | .ldm1 c a list => Sys2Proof.Machine.execLdm1 c a list s
  | .stm2 c a list => Sys2Proof.Machine.execStm2 c a list s
  | .stm1 c a list => Sys2Proof.Machine.execStm1 c a list s
  | .b c imm => Sys2Proof.Machine.execB c imm s
  | .bl c imm => Sys2Proof.Machine.execBl c imm s
  | .mar c rdHi rdLo sbz acc => Sys2Proof.Machine.execMar c rdHi rdLo sbz acc s
  | .mra c rdHi rdLo sbz acc => Sys2Proof.Machine.execMra c rdHi rdLo sbz acc s
  | .mcrr c rn rd cp op crm => Sys2Proof.Machine.execMcrr c rn rd cp op crm s
  | .mrrc c rn rd cp op crm => Sys2Proof.Machine.execMrrc c rn rd cp op crm s
  | .ldc c a crd cp off => Sys2Proof.Machine.execLdc c a crd cp off s
  | .stc c a crd cp off => Sys2Proof.Machine.execStc c a crd cp off s
  | .cdp c op1 crn crd cp op2 crm => Sys2Proof.Machine.execCdp c op1 crn crd cp op2 crm s
  | .mia c rs acc rm => Sys2Proof.Machine.execMia c rs acc rm s
  | .miaph c rs acc rm => Sys2Proof.Machine.execMiaph c rs acc rm s
  | .miabb c rs acc rm => Sys2Proof.Machine.execMiabb c rs acc rm s
  | .miabt c rs acc rm => Sys2Proof.Machine.execMiabt c rs acc rm s
  | .miatb c rs acc rm => Sys2Proof.Machine.execMiatb c rs acc rm s
  | .miatt c rs acc rm => Sys2Proof.Machine.execMiatt c rs acc rm s
  | .mcr c op1 crn rd cp op2 crm => Sys2Proof.Machine.execMcr c op1 crn rd cp op2 crm s
  | .mrc c op1 crn rd cp op2 crm => Sys2Proof.Machine.execMrc c op1 crn rd cp op2 crm s
  | .swi c imm => Sys2Proof.Machine.execSwi c imm s
  | .tLsl1 imm rm rd => Sys2Proof.Machine.execTLsl1 imm rm rd s
  | .tLsr1 imm rm rd => Sys2Proof.Machine.execTLsr1 imm rm rd s
  | .tAsr1 imm rm rd => Sys2Proof.Machine.execTAsr1 imm rm rd s
  | .tAdd3 rm rn rd => Sys2Proof.Machine.execTAdd3 rm rn rd s
  | .tSub3 rm rn rd => Sys2Proof.Machine.execTSub3 rm rn rd s
  | .tAdd1 imm rn rd => Sys2Proof.Machine.execTAdd1 imm rn rd s
  | .tSub1 imm rn rd => Sys2Proof.Machine.execTSub1 imm rn rd s
  | .tMov1 rd imm => Sys2Proof.Machine.execTMov1 rd imm s
  | .tCmp1 rn imm => Sys2Proof.Machine.execTCmp1 rn imm s
  | .tAdd2 rd imm => Sys2Proof.Machine.execTAdd2 rd imm s
  | .tSub2 rd imm => Sys2Proof.Machine.execTSub2 rd imm s
  | .tAnd rm rd => Sys2Proof.Machine.execTAnd rm rd s
  | .tEor rm rd => Sys2Proof.Machine.execTEor rm rd s
  | .tLsl2 rm rd => Sys2Proof.Machine.execTLsl2 rm rd s
  | .tLsr2 rm rd => Sys2Proof.Machine.execTLsr2 rm rd s
  | .tAsr2 rm rd => Sys2Proof.Machine.execTAsr2 rm rd s
  | .tAdc rm rd => Sys2Proof.Machine.execTAdc rm rd s
  | .tSbc rm rd => Sys2Proof.Machine.execTSbc rm rd s
  | .tRor rm rd => Sys2Proof.Machine.execTRor rm rd s
  | .tTst rm rd => Sys2Proof.Machine.execTTst rm rd s
  | .tNeg rm rd => Sys2Proof.Machine.execTNeg rm rd s
  | .tCmp2 rm rd => Sys2Proof.Machine.execTCmp2 rm rd s
  | .tCmn rm rd => Sys2Proof.Machine.execTCmn rm rd s
  | .tOrr rm rd => Sys2Proof.Machine.execTOrr rm rd s
  | .tMul rm rd => Sys2Proof.Machine.execTMul rm rd s
  | .tBic rm rd => Sys2Proof.Machine.execTBic rm rd s
  | .tMvn rm rd => Sys2Proof.Machine.execTMvn rm rd s
  | .tAdd4 d m => Sys2Proof.Machine.execTAdd4 d m s
  | .tCmp3 n m => Sys2Proof.Machine.execTCmp3 n m s
  | .tMov3 d m => Sys2Proof.Machine.execTMov3 d m s
  | .tBx m => Sys2Proof.Machine.execTBx m s
  | .tBlx2 m => Sys2Proof.Machine.execTBlx2 m s
  | .tLdr3 rd imm => Sys2Proof.Machine.execTLdr3 rd imm s
  | .tStr2 rm rn rd => Sys2Proof.Machine.execTStr2 rm rn rd s
  | .tStrh2 rm rn rd => Sys2Proof.Machine.execTStrh2 rm rn rd s
  | .tStrb2 rm rn rd => Sys2Proof.Machine.execTStrb2 rm rn rd s
  | .tLdrsb rm rn rd => Sys2Proof.Machine.execTLdrsb rm rn rd s
  | .tLdr2 rm rn rd => Sys2Proof.Machine.execTLdr2 rm rn rd s
  | .tLdrh2 rm rn rd => Sys2Proof.Machine.execTLdrh2 rm rn rd s
  | .tLdrb2 rm rn rd => Sys2Proof.Machine.execTLdrb2 rm rn rd s
  | .tLdrsh rm rn rd => Sys2Proof.Machine.execTLdrsh rm rn rd s
  | .tStr1 imm rn rd => Sys2Proof.Machine.execTStr1 imm rn rd s
  | .tLdr1 imm rn rd => Sys2Proof.Machine.execTLdr1 imm rn rd s
  | .tStrb1 imm rn rd => Sys2Proof.Machine.execTStrb1 imm rn rd s
  | .tLdrb1 imm rn rd => Sys2Proof.Machine.execTLdrb1 imm rn rd s
  | .tStrh1 imm rn rd => Sys2Proof.Machine.execTStrh1 imm rn rd s
  | .tLdrh1 imm rn rd => Sys2Proof.Machine.execTLdrh1 imm rn rd s
  | .tStr3 rd imm => Sys2Proof.Machine.execTStr3 rd imm s
  | .tLdr4 rd imm => Sys2Proof.Machine.execTLdr4 rd imm s
  | .tAdd5 rd imm => Sys2Proof.Machine.execTAdd5 rd imm s
  | .tAdd6 rd imm => Sys2Proof.Machine.execTAdd6 rd imm s
  | .tAdd7 imm => Sys2Proof.Machine.execTAdd7 imm s
  | .tSub4 imm => Sys2Proof.Machine.execTSub4 imm s
  | .tPush r list => Sys2Proof.Machine.execTPush r list s
  | .tPop r list => Sys2Proof.Machine.execTPop r list s
  | .tBkpt imm => Sys2Proof.Machine.execTBkpt imm s
  | .tUndefMisc rest => Sys2Proof.Machine.execTUndefMisc rest s
  | .tStmia rn list => Sys2Proof.Machine.execTStmia rn list s
  | .tLdmia rn list => Sys2Proof.Machine.execTLdmia rn list s
  | .tUndefCond rest => Sys2Proof.Machine.execTUndefCond rest s
  | .tSwi imm => Sys2Proof.Machine.execTSwi imm s
  | .tB1 c imm => Sys2Proof.Machine.execTB1 c imm s
  | .tB2 imm => Sys2Proof.Machine.execTB2 imm s
  | .tUndefBlx off => Sys2Proof.Machine.execTUndefBlx off s
  | .tBlx1 off => Sys2Proof.Machine.execTBlx1 off s
  | .tBlFirst off => Sys2Proof.Machine.execTBlFirst off s
  | .tBl off => Sys2Proof.Machine.execTBl off s

end Sys2Proof.Machine
end

