-- ==== Sys2Proof/Machine/Cycle.lean ====
section
/-!
DEFINITION. One step of the machine: what is examined in which order (60_exceptions R685), the fetched instruction
decoded and run, and what every step does after it: trace, counters, data breakpoint (61_debug R785, R758; 62_platform
R831). Also placing an instruction where the next step fetches it.
-/

namespace Sys2Proof.Machine

/-! ## After an instruction or an exception entry -/

/-- The instructions that may use R13_dbg as a scratch register (61_debug R790): data processing but RRX, MCR, MRC. Thumb data
processing is taken to be among them, though R790 does not speak of Thumb; multiplies, CLZ, the saturating instructions, MRS and
MSR are not (DESIGN CHOICE, log 39). -/
def keepsScratch13 : Instr → Bool
  | .andShift _ _ _ _ sh => !(sh.kind == .ror && sh.amount == 0)
  | .andRegShift .. => true
  | .eorShift _ _ _ _ sh => !(sh.kind == .ror && sh.amount == 0)
  | .eorRegShift .. => true
  | .subShift _ _ _ _ sh => !(sh.kind == .ror && sh.amount == 0)
  | .subRegShift .. => true
  | .rsbShift _ _ _ _ sh => !(sh.kind == .ror && sh.amount == 0)
  | .rsbRegShift .. => true
  | .addShift _ _ _ _ sh => !(sh.kind == .ror && sh.amount == 0)
  | .addRegShift .. => true
  | .adcShift _ _ _ _ sh => !(sh.kind == .ror && sh.amount == 0)
  | .adcRegShift .. => true
  | .sbcShift _ _ _ _ sh => !(sh.kind == .ror && sh.amount == 0)
  | .sbcRegShift .. => true
  | .rscShift _ _ _ _ sh => !(sh.kind == .ror && sh.amount == 0)
  | .rscRegShift .. => true
  | .tstShift _ _ sh => !(sh.kind == .ror && sh.amount == 0)
  | .tstRegShift .. => true
  | .teqShift _ _ sh => !(sh.kind == .ror && sh.amount == 0)
  | .teqRegShift .. => true
  | .cmpShift _ _ sh => !(sh.kind == .ror && sh.amount == 0)
  | .cmpRegShift .. => true
  | .cmnShift _ _ sh => !(sh.kind == .ror && sh.amount == 0)
  | .cmnRegShift .. => true
  | .orrShift _ _ _ _ sh => !(sh.kind == .ror && sh.amount == 0)
  | .orrRegShift .. => true
  | .movShift _ _ _ sh => !(sh.kind == .ror && sh.amount == 0)
  | .movRegShift .. => true
  | .bicShift _ _ _ _ sh => !(sh.kind == .ror && sh.amount == 0)
  | .bicRegShift .. => true
  | .mvnShift _ _ _ sh => !(sh.kind == .ror && sh.amount == 0)
  | .mvnRegShift .. => true
  | .andImm .. => true
  | .eorImm .. => true
  | .subImm .. => true
  | .rsbImm .. => true
  | .addImm .. => true
  | .adcImm .. => true
  | .sbcImm .. => true
  | .rscImm .. => true
  | .tstImm .. => true
  | .teqImm .. => true
  | .cmpImm .. => true
  | .cmnImm .. => true
  | .orrImm .. => true
  | .movImm .. => true
  | .bicImm .. => true
  | .mvnImm .. => true
  | .tLsl1 .. => true
  | .tLsr1 .. => true
  | .tAsr1 .. => true
  | .tAdd3 .. => true
  | .tSub3 .. => true
  | .tAdd1 .. => true
  | .tSub1 .. => true
  | .tMov1 .. => true
  | .tCmp1 .. => true
  | .tAdd2 .. => true
  | .tSub2 .. => true
  | .tAnd .. => true
  | .tEor .. => true
  | .tLsl2 .. => true
  | .tLsr2 .. => true
  | .tAsr2 .. => true
  | .tAdc .. => true
  | .tSbc .. => true
  | .tRor .. => true
  | .tTst .. => true
  | .tNeg .. => true
  | .tCmp2 .. => true
  | .tCmn .. => true
  | .tOrr .. => true
  | .tBic .. => true
  | .tMvn .. => true
  | .tAdd4 .. => true
  | .tCmp3 .. => true
  | .tMov3 .. => true
  | .tAdd5 .. => true
  | .tAdd6 .. => true
  | .tAdd7 .. => true
  | .tSub4 .. => true
  | .mcr .. => true
  | .mrc .. => true
  | _ => false

/-- R13_dbg takes a free value (10_state R32, 61_debug R790; log 39). -/
def State.scramble13 (s : State) : State :=
  ({ s with regs := s.regs.set (bankIndex modeDbg 13) s.fresh } : State).draw 1

/-- In Special Debug State an instruction that may not use R13_dbg finds a free value in it: any such use is unpredictable
(61_debug R790, U45; log 39). -/
def State.hide13 (i : Instr) (s : State) : State := if s.dbg.sds && !keepsScratch13 i then s.scramble13 else s

/-- A data breakpoint met by the instruction is reported now, before the next instruction, when debug is enabled after it
and Special Debug State is not entered (61_debug R758), in Monitor mode too: the registers and memory are written as usual and
the link is the next instruction + 4, where 43_arm R520's summary has the instruction abandoned (DEDUCED, log 54). -/
def State.reportDataBreak (s : State) : State :=
  if s.scratch.dataBreak && s.ge && !s.dbg.sds then debugException 0b010 .data (s.pc + 4) s else s

/-- The end of a step that began in `s0`: the trace message, the counters, a data breakpoint; the scratch is cleared.
`executed`: an instruction ran (PMU event 0x7). An instruction that itself enables or disables the trace buffer (DCSR.E, GE) is
neither counted nor traced: the buffer must be enabled both before and after it, where 61_debug R785 says only 'while the trace
buffer is enabled' (DESIGN CHOICE, log 38); the counters likewise (log 37). -/
def State.retire (s0 : State) (executed : Bool) (s : State) : State :=
  let s1 := if s0.traceOn && s.traceOn then s.traceStep else s
  let s2 := if s0.pmuOn && s1.pmuOn then s1.pmuCount executed else s1
  let s3 := s2.reportDataBreak
  { s3 with scratch := .empty }

/-- The end of an executed instruction: in Special Debug State R13_dbg does not survive most instructions. An instruction that
took an exception of its own (undefined, SWI, BKPT, a precise data abort) counts as executed, PMU event 0x7, too (DESIGN CHOICE,
log 37). -/
def State.retireInstr (s0 : State) (i : Instr) (s : State) : State :=
  let s1 := s0.retire true s
  if s0.dbg.sds then s1.hide13 i else s1

/-! ## The instruction at the pc -/

/-- Decode a fetched value in the current state (30_encoding R378). -/
def State.decodeFetched (s : State) (w : Nat) : Option Instr :=
  if s.thumb then decodeThumb (BitVec.ofNat 16 w) else decodeArm (BitVec.ofNat 32 w)

/-- Run an instruction that was fetched in the step that began in `s0`. -/
def runDecoded (s0 : State) (i : Instr) (s : State) : Out :=
  match exec i (s.hide13 i) with
  | .next t => .next (s0.retireInstr i t)
  | .fault e => .fault e
  | .refused e => .refused e

/-- Fetch, decode and run the instruction at the pc (R685). A fetch that fails takes a prefetch abort, or after an error on
its table walk a precise data abort (62_platform R854, R856; `DataFault.fetchIsData`). -/
def runInstr (s : State) : Out :=
  match fetch s with
  | .ok w s1 =>
    (match s1.decodeFetched w with
     | some i => runDecoded s i s1
     | none => .refused .undecodable)
  | .abort f s1 =>
    if s1.dbg.sds then .fault .prefetchAbortInSds
    else .next (s.retire false (if f.fetchIsData then takeDataAbort f false s1 else takePrefetchAbort f.code s1))
  | .fault e => .fault e
  | .refused e => .refused e

/-! ## The order of a step (60_exceptions R685) -/

/-- A pending imprecise abort: taken, or in Special Debug State reported in FSR, FAR and DCSR.SA (61_debug R752). So also one that was
pending already when Special Debug State was entered, where R752 and 60_exceptions R721 speak of aborts detected during it (DESIGN
CHOICE, log 62). -/
def takePending (k : AbortKind) (s : State) : State :=
  if s.dbg.sds then
    ((({ s with pendingAbort := none } : State).recordFault
      { code := match k with | .external => .external | .parity => .parity, mva := 0, domain := 0 }).setSticky)
  else s.retire false (takeImprecise k s)

/-- Does the idle state end: a pin asserted, masked or not (62_platform R882). -/
def State.wakes (s : State) : Bool :=
  s.icu.fiqPin || s.icu.irqPin || (Config.idleWakeInternal && (s.pmuRequest || s.bcuRequest))

/-- The step of a core that is neither in reset nor in a low-power mode: the candidates in the order of their ranks
(60_exceptions R681). A vector trap armed at the pc comes first: nothing intervenes between an exception's entry and its
test (R685), an imprecise abort neither (61_debug R815). -/
def activeStep (s : State) : Out :=
  match s.vectorTrap with
  | some moe => .next (s.retire false (debugEntryHalt moe (s.pc + 4) s))
  | none =>
    match s.pendingAbort with
    | some k => .next (takePending k s)
    | none =>
      if s.mayTakeBreak && (s.dbg.extBreak || s.dbg.tbFull) then
        .next (s.retire false (debugException (if s.dbg.extBreak then 0b100 else 0b110) .data (s.pc + 4) s))
      else if s.fiqInternal && !bitF s.cpsr && !s.dbg.sds then
        .next (s.retire false (takeException .fiq (s.pc + 4) false s))
      else if s.irqInternal && !bitI s.cpsr && !s.dbg.sds then
        .next (s.retire false (takeException .irq (s.pc + 4) false s))
      else if s.instrBreak then .next (s.retire false (debugException 0b001 .prefetch (s.pc + 4) s))
      else runInstr s

/-- The step of the core. In reset (61_debug R764) and asleep (62_platform R883) nothing happens; idle ends when a pin
is asserted. An external debug break, which the manual does not discuss there (R882), stays pending and does not end idle
(DESIGN CHOICE, log 42). -/
def coreStep (s : State) : Out :=
  if s.inReset then .next s
  else
    match s.power.mode with
    | .sleep => .next s
    | .idle => .next (if s.wakes then { s with power := { s.power with mode := .active } } else s)
    | .active => activeStep { s with scratch := .empty }

/-- One step: the next input from outside, if there is one, else the core's step; `tick` lets the core step before the
inputs that follow it (log 13). -/
def stepCycle (s : State) : Out :=
  match s.hostEvents with
  | [] => coreStep s
  | .tick :: rest => coreStep { s with hostEvents := rest }
  | e :: rest => applyEvent e { s with hostEvents := rest }

/-! ## Placing an instruction -/

/-- A data cache without unwritten data of the line at this physical address. -/
def Cache.forgetDirty (c : Cache) (pa : Word) : Cache :=
  { c with lines := c.lines.map fun l =>
      if l.pa == (pa &&& 0xFFFFFFE0) then { l with dirtyLo := false, dirtyHi := false } else l }

/-- The state with an instruction's word where the next step fetches it: T from its size, its bytes in memory, code in order
(`synced`, `overwritten`), and no cached copy of the line in the instruction caches and fetch buffers nor a later one in a data cache. -/
def placeInstruction (s : State) (nbits w : Nat) : State :=
  let s1 : State := { s with cpsr := withT s.cpsr (decide (nbits = 16)) }
  let a := s1.fetchAddress
  let pa := s1.fetchPa
  let bs := disassemble s1.bigEndian (if nbits = 16 then 2 else 4) w
  let s2 := s1.setBytesAt pa bs
  { s2 with synced := (({ s1 with mem := s1.synced } : State).setBytesAt pa bs).mem
            overwritten := s2.overwritten.filter fun c => !(c.1 == pa.toNat / 4)
            dcache := s2.dcache.forgetDirty pa, minid := s2.minid.forgetDirty pa
            icache := s2.icache.invalidateLine a, minic := s2.minic.invalidateLine a, fetchBufs := .empty }

end Sys2Proof.Machine
end

