-- ==== Sys2Proof/Machine/Step.lean ====
section
/-!
DEFINITION. The step function and the placing of an instruction, under the names the host fixes.
-/

namespace Sys2Proof.Machine

/-- One step of the machine (60_exceptions R685). -/
def step (s : State) : Host.Outcome State Fault Refusal := stepCycle s

/-- `s` with an instruction's word stored where `step` fetches its next instruction (log 14). -/
def State.withFetchWord (s : State) (nbits w : Nat) : State := placeInstruction s nbits w

end Sys2Proof.Machine
end

