-- ==== Sys2Proof/Safety.lean ====
section
/-!
DEFINITION. The terms the statements use: the invariants every step keeps, a machine to which nothing from outside
happens, memory without caches and translation, what an instruction that completes leaves.
-/

namespace Sys2Proof.Machine

/-- A status register holds no reserved bit (10_state R39, D4). -/
def psrWf (p : Word) : Bool := p &&& ~~~psrMask == 0

/-- Control has its fixed ones and no reserved bit (11_state R84). -/
def controlWf (c : Word) : Bool := c &&& ~~~(0x00003B87 : Word) == 0x78

/-- CP15's registers stay within the bits their tables define (11_state_cp15 R84 to R130). -/
def Cp15.fieldsWf (c : Cp15) : Bool :=
  controlWf c.control
    && (c.auxControl &&& ~~~(0x33 : Word) == 0)
    && (c.ttbr &&& 0x3FFF == 0)
    && (c.fsr &&& ~~~(0x6FF : Word) == 0)
    && (c.pid &&& ~~~(0xFE000000 : Word) == 0)
    && (c.dbcon &&& ~~~(0x10F : Word) == 0)
    && (c.cpar &&& ~~~(0x2001 : Word) == 0)

/-- CP14's and CP13's registers stay within the bits their tables define (12_state R142, R147, R150, R154, R160, R162, R170
to R174): PMNC, CCLKCFG, DCSR, TXRXCTRL, INTCTL, INTSTR, BCUCTL, BCUMOD, ELOG, ECTST. -/
def State.unitsWf (s : State) : Bool :=
  (s.pmu.pmnc &&& ~~~(0x0FFFF779 : Word) == 0)
    && !(s.power.cclkcfg == 0) && decide (s.power.cclkcfg.toNat < 10)
    && (s.dbg.dcsr &&& ~~~(0xC0DF003F : Word) == 0)
    && (s.dbg.txrxctrl &&& ~~~(0xF0000000 : Word) == 0)
    && (s.icu.intctl &&& ~~~(0xF : Word) == 0)
    && (s.icu.intstr &&& ~~~(0x3 : Word) == 0)
    && (s.bcu.bcuctl &&& ~~~(0x7000000D : Word) == 0)
    && (s.bcu.bcumod &&& ~~~(0x1 : Word) == 0)
    && (s.bcu.elog0 &&& ~~~(0xE00000FF : Word) == 0)
    && (s.bcu.elog1 &&& ~~~(0xE00000FF : Word) == 0)
    && (s.bcu.ectst &&& ~~~(0x800000FF : Word) == 0)

/-- The coprocessor registers stay within the bits their tables define. -/
def State.registersWf (s : State) : Bool := s.cp15.fieldsWf && s.unitsWf

/-- Every status register without reserved bits, and the mode one that R31 lists. -/
def State.statusWf (s : State) : Bool := psrWf s.cpsr && s.spsrs.toList.all psrWf && modeLegal s.mode

/-- The pc is aligned for the instruction set in use (10_state R34). -/
def State.pcWf (s : State) : Bool := if s.thumb then s.pc &&& 1 == 0 else s.pc &&& 3 == 0

/-- Nothing from outside happens, nothing is pending, and the core runs: a step runs the instruction at the pc. -/
def State.quiet (s : State) : Bool :=
  s.hostEvents == [] && !s.inReset && s.power.mode == .active && s.pendingAbort == none
    && !(s.mayTakeBreak && (s.dbg.extBreak || s.dbg.tbFull))
    && !(s.fiqInternal && !bitF s.cpsr && !s.dbg.sds)
    && !(s.irqInternal && !bitI s.cpsr && !s.dbg.sds)
    && s.vectorTrap == none && !s.instrBreak

/-- The MMU and the data cache disabled, no line in either data cache, no board abort: a data access
is an access of external memory (21_mmu R282, R310). -/
def State.plainBus (s : State) : Bool :=
  !s.mmuOn && !s.dcacheOn && s.dcache.lines == [] && s.minid.lines == [] && s.board.abortRegions == []

/-- And no other bus master is to write between the coming requests (62_platform R875). -/
def State.plainMemory (s : State) : Bool := s.plainBus && s.board.between == []

/-- No line of either data cache holds data that memory does not (21_mmu R311). -/
def State.noDirtyLine (s : State) : Bool :=
  (s.dcache.lines.all fun l => !l.dirtyLo && !l.dirtyHi) && s.minid.lines.all fun l => !l.dirtyLo && !l.dirtyHi

/-- A register written, the CPSR replaced, the pc moved past the instruction; everything else as it was. -/
def State.wrote (s : State) (rd : Reg) (v psr size : Word) : State :=
  { s with regs := s.regs.set (bankIndex s.mode rd) v, cpsr := psr, pc := s.pc + size }

/-- The registers after the write-back of a base, if there is one. -/
def State.regsAfterBase (s : State) (rn : Reg) (wb : Option Word) : Vector Word 32 :=
  match wb with
  | some w => s.regs.set (bankIndex s.mode rn) w
  | none => s.regs

/-- The condition field of an instruction that has one (30_encoding R343). -/
def condOf : Instr → Option Cond
  | .mul c _ _ _ _ => some c
  | .mla c _ _ _ _ _ => some c
  | .umull c _ _ _ _ _ => some c
  | .umlal c _ _ _ _ _ => some c
  | .smull c _ _ _ _ _ => some c
  | .smlal c _ _ _ _ _ => some c
  | .swp c _ _ _ => some c
  | .swpb c _ _ _ => some c
  | .strhImm c _ _ _ => some c
  | .strhReg c _ _ _ => some c
  | .ldrhImm c _ _ _ => some c
  | .ldrhReg c _ _ _ => some c
  | .ldrsbImm c _ _ _ => some c
  | .ldrsbReg c _ _ _ => some c
  | .ldrshImm c _ _ _ => some c
  | .ldrshReg c _ _ _ => some c
  | .ldrdImm c _ _ _ => some c
  | .ldrdReg c _ _ _ => some c
  | .strdImm c _ _ _ => some c
  | .strdReg c _ _ _ => some c
  | .undefMul c _ _ => some c
  | .mrs c _ _ => some c
  | .msrReg c _ _ _ => some c
  | .bx c _ => some c
  | .blx2 c _ => some c
  | .clz c _ _ => some c
  | .qadd c _ _ _ => some c
  | .qsub c _ _ _ => some c
  | .qdadd c _ _ _ => some c
  | .qdsub c _ _ _ => some c
  | .smlaxy c _ _ _ _ _ _ => some c
  | .smlawy c _ _ _ _ _ => some c
  | .smulwy c _ _ _ _ => some c
  | .smlalxy c _ _ _ _ _ _ => some c
  | .smulxy c _ _ _ _ _ => some c
  | .undefMisc c _ _ _ => some c
  | .andShift c _ _ _ _ => some c
  | .andRegShift c _ _ _ _ => some c
  | .eorShift c _ _ _ _ => some c
  | .eorRegShift c _ _ _ _ => some c
  | .subShift c _ _ _ _ => some c
  | .subRegShift c _ _ _ _ => some c
  | .rsbShift c _ _ _ _ => some c
  | .rsbRegShift c _ _ _ _ => some c
  | .addShift c _ _ _ _ => some c
  | .addRegShift c _ _ _ _ => some c
  | .adcShift c _ _ _ _ => some c
  | .adcRegShift c _ _ _ _ => some c
  | .sbcShift c _ _ _ _ => some c
  | .sbcRegShift c _ _ _ _ => some c
  | .rscShift c _ _ _ _ => some c
  | .rscRegShift c _ _ _ _ => some c
  | .tstShift c _ _ => some c
  | .tstRegShift c _ _ => some c
  | .teqShift c _ _ => some c
  | .teqRegShift c _ _ => some c
  | .cmpShift c _ _ => some c
  | .cmpRegShift c _ _ => some c
  | .cmnShift c _ _ => some c
  | .cmnRegShift c _ _ => some c
  | .orrShift c _ _ _ _ => some c
  | .orrRegShift c _ _ _ _ => some c
  | .movShift c _ _ _ => some c
  | .movRegShift c _ _ _ => some c
  | .bicShift c _ _ _ _ => some c
  | .bicRegShift c _ _ _ _ => some c
  | .mvnShift c _ _ _ => some c
  | .mvnRegShift c _ _ _ => some c
  | .msrImm c _ _ _ => some c
  | .undefMsr c _ _ => some c
  | .andImm c _ _ _ _ => some c
  | .eorImm c _ _ _ _ => some c
  | .subImm c _ _ _ _ => some c
  | .rsbImm c _ _ _ _ => some c
  | .addImm c _ _ _ _ => some c
  | .adcImm c _ _ _ _ => some c
  | .sbcImm c _ _ _ _ => some c
  | .rscImm c _ _ _ _ => some c
  | .tstImm c _ _ => some c
  | .teqImm c _ _ => some c
  | .cmpImm c _ _ => some c
  | .cmnImm c _ _ => some c
  | .orrImm c _ _ _ _ => some c
  | .movImm c _ _ _ => some c
  | .bicImm c _ _ _ _ => some c
  | .mvnImm c _ _ _ => some c
  | .ldrtImm c _ _ _ _ => some c
  | .ldrtReg c _ _ _ _ => some c
  | .ldrbtImm c _ _ _ _ => some c
  | .ldrbtReg c _ _ _ _ => some c
  | .strtImm c _ _ _ _ => some c
  | .strtReg c _ _ _ _ => some c
  | .strbtImm c _ _ _ _ => some c
  | .strbtReg c _ _ _ _ => some c
  | .ldrImm c _ _ _ => some c
  | .ldrReg c _ _ _ => some c
  | .ldrbImm c _ _ _ => some c
  | .ldrbReg c _ _ _ => some c
  | .strImm c _ _ _ => some c
  | .strReg c _ _ _ => some c
  | .strbImm c _ _ _ => some c
  | .strbReg c _ _ _ => some c
  | .undefMedia c _ _ => some c
  | .ldm3 c _ _ => some c
  | .ldm2 c _ _ => some c
  | .ldm1 c _ _ => some c
  | .stm2 c _ _ => some c
  | .stm1 c _ _ => some c
  | .b c _ => some c
  | .bl c _ => some c
  | .mar c _ _ _ _ => some c
  | .mra c _ _ _ _ => some c
  | .mcrr c _ _ _ _ _ => some c
  | .mrrc c _ _ _ _ _ => some c
  | .ldc c _ _ _ _ => some c
  | .stc c _ _ _ _ => some c
  | .cdp c _ _ _ _ _ _ => some c
  | .mia c _ _ _ => some c
  | .miaph c _ _ _ => some c
  | .miabb c _ _ _ => some c
  | .miabt c _ _ _ => some c
  | .miatb c _ _ _ => some c
  | .miatt c _ _ _ => some c
  | .mcr c _ _ _ _ _ _ => some c
  | .mrc c _ _ _ _ _ _ => some c
  | .swi c _ => some c
  | .bkpt c _ => some c
  | _ => none

/-- Every piece of state that a memory access leaves as it is: registers, status registers, the pc, the accumulator,
the coprocessor registers, the debug unit, the counters, the interrupt controller, the board's pins, its abort regions and CWF
ranges. -/
structure SameCore (s t : State) : Prop where
  regs : t.regs = s.regs
  spsrs : t.spsrs = s.spsrs
  cpsr : t.cpsr = s.cpsr
  pc : t.pc = s.pc
  acc0 : t.acc0 = s.acc0
  synced : t.synced = s.synced
  cp15 : t.cp15 = s.cp15
  minic : t.minic = s.minic
  btb : t.btb = s.btb
  pmu : t.pmu = s.pmu
  power : t.power = s.power
  dbg : t.dbg = s.dbg
  trace : t.trace = s.trace
  icu : t.icu = s.icu
  jtag : t.jtag = s.jtag
  resetPin : t.resetPin = s.resetPin
  inReset : t.inReset = s.inReset
  bus32 : t.bus32 = s.bus32
  hostEvents : t.hostEvents = s.hostEvents
  abortRegions : t.board.abortRegions = s.board.abortRegions
  cwf : t.board.cwf = s.board.cwf
  boardBus32 : t.board.bus32 = s.board.bus32
  pllcfg : t.board.pllcfg = s.board.pllcfg

/-- The instructions that store to memory: the ARM and Thumb stores, SWP, SWPB, STC. -/
def storesData : Instr → Bool
  | .strImm .. => true
  | .strReg .. => true
  | .strbImm .. => true
  | .strbReg .. => true
  | .strtImm .. => true
  | .strtReg .. => true
  | .strbtImm .. => true
  | .strbtReg .. => true
  | .strhImm .. => true
  | .strhReg .. => true
  | .strdImm .. => true
  | .strdReg .. => true
  | .stm1 .. => true
  | .stm2 .. => true
  | .swp .. => true
  | .swpb .. => true
  | .stc .. => true
  | .tStr1 .. => true
  | .tStr2 .. => true
  | .tStr3 .. => true
  | .tStrh1 .. => true
  | .tStrh2 .. => true
  | .tStrb1 .. => true
  | .tStrb2 .. => true
  | .tPush .. => true
  | .tStmia .. => true
  | _ => false

/-- An instruction completes: a next state, not a fault or a refusal. -/
def Completes (i : Instr) (s : State) : Prop := ∃ t, exec i s = .next t

end Sys2Proof.Machine
end

