-- ==== Sys2Proof/Certificates/Slice0/Obligations.lean ====
section
/-!
DEFINITION. The statements about the model, one `Prop` each, with the shapes they share.
-/

namespace Sys2Proof.Machine

/-! ## Shapes of results -/

/-- The flags of an addition of `x`, `y` and a carry-in (40_arm R382): N and Z of the result `r`, C the carry out of
bit 31, V the signed overflow. -/
def addFlags (p x y r : Word) (cin : Bool) : Word :=
  withNZCV p r.msb (r == 0) (decide (2 ^ 32 ≤ x.toNat + y.toNat + cin.toNat)) ((x.msb == y.msb) && (r.msb != x.msb))

/-- The flags of a subtraction `x - y` less a borrow (40_arm R382): C is set when nothing is borrowed. -/
def subFlags (p x y r : Word) (borrow : Bool) : Word :=
  withNZCV p r.msb (r == 0) (decide (y.toNat + borrow.toNat ≤ x.toNat)) ((x.msb != y.msb) && (r.msb != x.msb))

/-- The flags of a logical instruction (40_arm R382): C from the shifter, V kept. -/
def logicFlags (p r : Word) (c : Bool) : Word := withNZCV p r.msb (r == 0) c (flagV p)

/-- An ARM data-processing instruction runs and leaves result `v` in `rd` and, with S, the flags `psr`; nothing else
changes but the pc. For R15 it is a branch without S and the return from the exception with S (40_arm R399). -/
def ArmResult (i : Instr) (s : State) (sb : Bool) (rd : Reg) (v psr : Word) : Prop :=
  exec i s = (if rd = 15 then (if sb then exceptionReturn v s else .next (s.jumpKeepState v))
              else .next (s.wrote rd v (if sb then psr else s.cpsr) 4))

/-- An ARM compare runs and changes the flags only. -/
def ArmCompare (i : Instr) (s : State) (psr : Word) : Prop := exec i s = .next { s with cpsr := psr, pc := s.pc + 4 }

/-- A Thumb data-processing instruction runs and leaves result `v` in the low register `rd` and the flags `psr`. -/
def ThumbResult (i : Instr) (s : State) (rd : LowReg) (v psr : Word) : Prop :=
  exec i s = .next (s.wrote (lowReg rd) v psr 2)

/-- What an instruction that raises the undefined-instruction exception does (60_exceptions R694): R14_und takes the
address of the next instruction, SPSR_und the CPSR, the mode is Undefined, T = 0, I = 1, the pc at offset 4. -/
def TakesUndefined (i : Instr) (s : State) (size : Word) : Prop :=
  exec i s = .next { s with
    regs := s.regs.set (bankIndex modeUnd 14) (s.pc + size)
    spsrs := s.spsrs.set 4 s.cpsr
    cpsr := entryCpsr s.cpsr modeUnd false
    pc := s.vectorBase + 4
    scratch := { s.scratch with flow := .exception 1 false, dataBreak := false } }

/-- Halt mode's debug entry (61_debug R750, R751): DEBUG mode and Special Debug State at the vector base, I = F = 1, ARM
state, the link and the CPSR saved, MOE, DCSR.E and the pending breaks cleared; every other register but R13_dbg and every
byte of memory as before. -/
def EntersHalt (moe : BitVec 3) (link : Word) (s t : State) : Prop :=
  t.pc = s.vectorBase ∧ t.mode = modeDbg ∧ t.bankReg modeDbg 14 = link ∧ t.spsrs = s.spsrs.set 5 s.cpsr
    ∧ t.dbg.sds = true ∧ bitI t.cpsr = true ∧ bitF t.cpsr = true ∧ t.thumb = false
    ∧ t.dbg.dcsr.extractLsb' 2 3 = moe ∧ t.dbg.dcsr.getLsbD 0 = false ∧ t.dbg.extBreak = false ∧ t.dbg.tbFull = false
    ∧ t.mem = s.mem ∧ t.cp15 = s.cp15
    ∧ ∀ (m : BitVec 5) (r : Reg), bankIndex m r ≠ bankIndex modeDbg 13 → bankIndex m r ≠ bankIndex modeDbg 14 →
        t.bankReg m r = s.bankReg m r

/-- Monitor mode's debug exception (61_debug R750, R753): the abort vector at `off`, the link and the CPSR saved for Abort
mode, FSR bit 9 set, FAR kept (log 27), MOE, DCSR.E and the pending breaks cleared; nothing else of the registers or of
memory. -/
def EntersMonitor (moe : BitVec 3) (off link : Word) (s t : State) : Prop :=
  t.pc = s.vectorBase + off ∧ t.regs = s.regs.set (bankIndex modeAbt 14) link ∧ t.spsrs = s.spsrs.set 3 s.cpsr
    ∧ t.cpsr = entryCpsr s.cpsr modeAbt false ∧ t.cp15.fsr.getLsbD 9 = true ∧ t.cp15.far = s.cp15.far
    ∧ t.dbg.dcsr.extractLsb' 2 3 = moe ∧ t.dbg.dcsr.getLsbD 0 = false ∧ t.dbg.extBreak = false ∧ t.dbg.tbFull = false
    ∧ t.mem = s.mem

/-- A debug exception in the mode that DCSR.H selects (61_debug R741). -/
def EntersDebug (moe : BitVec 3) (off link : Word) (s t : State) : Prop :=
  (s.haltMode = true → EntersHalt moe link s t) ∧ (s.haltMode = false → EntersMonitor moe off link s t)

/-- A data breakpoint matches an access of `n` bytes at `a` (61_debug R758): the MVA of one of its bytes is DBR0, outside
the bits of DBR1 when DBCON.M makes it a mask, or without M is DBR1, and the enable takes the access's kind. -/
def BreakMatches (s : State) (a : Word) (n : Nat) (store : Bool) : Prop :=
  let c := s.cp15.dbcon
  let Kind (e : BitVec 2) : Prop := (e = 0b01 ∧ store = true) ∨ e = 0b10 ∨ (e = 0b11 ∧ store = false)
  let mask : Word := if c.getLsbD 8 then s.cp15.dbr1 else 0
  ∃ k : Nat, k < n ∧ let b := s.mvaOf (a + BitVec.ofNat 32 k)
    (Kind (c.extractLsb' 0 2) ∧ b ||| mask = s.cp15.dbr0 ||| mask)
      ∨ (c.getLsbD 8 = false ∧ Kind (c.extractLsb' 2 2) ∧ b = s.cp15.dbr1)

/-- A privileged MCR to CP15, in ARM state with its condition passed, whose register holds `v`, runs and leaves `t` with
the pc past it (44_coprocessor R532). -/
def Cp15Function (crn crm : BitVec 4) (op2 : BitVec 3) (v : Word) (s t : State) : Prop :=
  ∀ (c : Cond) (op1 : BitVec 3) (rd : Reg), condPassed c s.cpsr = true → s.reg rd = v →
    exec (.mcr c op1 crn rd 15 op2 crm) s = .next { t with pc := s.pc + 4 }

/-- The form of mode 2 is one that R481 allows: with write-back the base is neither R15 nor the transferred register;
the offset register, if any, is not R15 nor, post-indexed, the base. -/
def Mode2Ok (a : Mode2) (rd : Reg) (rm : Option Reg) : Prop :=
  (a.index ≠ .offset → a.rn ≠ 15 ∧ rd ≠ a.rn) ∧ rm ≠ some 15 ∧ (a.index = .post → rm ≠ some a.rn)

/-- The form of mode 3 is one that R482 allows. -/
def Mode3Ok (a : Mode3) (rds : List Reg) (rm : Option Reg) : Prop :=
  ¬(a.p = false ∧ a.w = true) ∧ (a.p = false ∨ a.w = true → a.rn ≠ 15 ∧ a.rn ∉ rds) ∧ rm ≠ some 15
    ∧ (a.p = false → rm ≠ some a.rn)

/-! ## The single loads and stores -/

/-- A load's form in a state where it may run: the instruction, the bytes read, whether it is sign-extended, whether it
is checked as privileged, its address and write-back, the base, the destination (43_arm R483 to R493; 46_thumb R630 to
R646). LDR of the PC and LDR with an RRX offset are not for DEBUG mode (61_debug R790); LDRSB of the PC is log 53's. -/
inductive LoadForm (s : State) : Instr → Nat → Bool → Bool → Addr → Reg → Reg → Prop
  | ldrImm (c : Cond) (a : Mode2) (rd : Reg) (off : BitVec 12) : s.thumb = false → condPassed c s.cpsr = true → (rd = 15 → s.mode ≠ modeDbg) → Mode2Ok a rd none →
      LoadForm s (.ldrImm c a rd off) 4 false s.priv (s.mode2 a (off.setWidth 32)) a.rn rd
  | ldrReg (c : Cond) (a : Mode2) (rd : Reg) (sh : ImmShift) : s.thumb = false → condPassed c s.cpsr = true → (rd = 15 ∨ isRrx sh = true → s.mode ≠ modeDbg) → Mode2Ok a rd (some sh.rm) →
      LoadForm s (.ldrReg c a rd sh) 4 false s.priv (s.mode2 a (s.immShift sh).value) a.rn rd
  | ldrbImm (c : Cond) (a : Mode2) (rd : Reg) (off : BitVec 12) : s.thumb = false → condPassed c s.cpsr = true → rd ≠ 15 → Mode2Ok a rd none →
      LoadForm s (.ldrbImm c a rd off) 1 false s.priv (s.mode2 a (off.setWidth 32)) a.rn rd
  | ldrbReg (c : Cond) (a : Mode2) (rd : Reg) (sh : ImmShift) : s.thumb = false → condPassed c s.cpsr = true → rd ≠ 15 → Mode2Ok a rd (some sh.rm) →
      LoadForm s (.ldrbReg c a rd sh) 1 false s.priv (s.mode2 a (s.immShift sh).value) a.rn rd
  | ldrtImm (c : Cond) (u : Bool) (rn rd : Reg) (off : BitVec 12) : s.thumb = false → condPassed c s.cpsr = true → rd ≠ 15 → Mode2Ok ⟨.post, u, rn⟩ rd none →
      LoadForm s (.ldrtImm c u rn rd off) 4 false false (s.mode2 ⟨.post, u, rn⟩ (off.setWidth 32)) rn rd
  | ldrtReg (c : Cond) (u : Bool) (rn rd : Reg) (sh : ImmShift) : s.thumb = false → condPassed c s.cpsr = true → rd ≠ 15 → Mode2Ok ⟨.post, u, rn⟩ rd (some sh.rm) →
      LoadForm s (.ldrtReg c u rn rd sh) 4 false false (s.mode2 ⟨.post, u, rn⟩ (s.immShift sh).value) rn rd
  | ldrbtImm (c : Cond) (u : Bool) (rn rd : Reg) (off : BitVec 12) : s.thumb = false → condPassed c s.cpsr = true → rd ≠ 15 → Mode2Ok ⟨.post, u, rn⟩ rd none →
      LoadForm s (.ldrbtImm c u rn rd off) 1 false false (s.mode2 ⟨.post, u, rn⟩ (off.setWidth 32)) rn rd
  | ldrbtReg (c : Cond) (u : Bool) (rn rd : Reg) (sh : ImmShift) : s.thumb = false → condPassed c s.cpsr = true → rd ≠ 15 → Mode2Ok ⟨.post, u, rn⟩ rd (some sh.rm) →
      LoadForm s (.ldrbtReg c u rn rd sh) 1 false false (s.mode2 ⟨.post, u, rn⟩ (s.immShift sh).value) rn rd
  | ldrhImm (c : Cond) (a : Mode3) (rd : Reg) (off : BitVec 8) : s.thumb = false → condPassed c s.cpsr = true → rd ≠ 15 → Mode3Ok a [rd] none →
      LoadForm s (.ldrhImm c a rd off) 2 false s.priv (s.mode3 a (off.setWidth 32)) a.rn rd
  | ldrhReg (c : Cond) (a : Mode3) (rd rm : Reg) : s.thumb = false → condPassed c s.cpsr = true → rd ≠ 15 → Mode3Ok a [rd] (some rm) →
      LoadForm s (.ldrhReg c a rd rm) 2 false s.priv (s.mode3 a (s.reg rm)) a.rn rd
  | ldrshImm (c : Cond) (a : Mode3) (rd : Reg) (off : BitVec 8) : s.thumb = false → condPassed c s.cpsr = true → rd ≠ 15 → Mode3Ok a [rd] none →
      LoadForm s (.ldrshImm c a rd off) 2 true s.priv (s.mode3 a (off.setWidth 32)) a.rn rd
  | ldrshReg (c : Cond) (a : Mode3) (rd rm : Reg) : s.thumb = false → condPassed c s.cpsr = true → rd ≠ 15 → Mode3Ok a [rd] (some rm) →
      LoadForm s (.ldrshReg c a rd rm) 2 true s.priv (s.mode3 a (s.reg rm)) a.rn rd
  | ldrsbImm (c : Cond) (a : Mode3) (rd : Reg) (off : BitVec 8) : s.thumb = false → condPassed c s.cpsr = true → Mode3Ok a [rd] none →
      LoadForm s (.ldrsbImm c a rd off) 1 true s.priv (s.mode3 a (off.setWidth 32)) a.rn rd
  | ldrsbReg (c : Cond) (a : Mode3) (rd rm : Reg) : s.thumb = false → condPassed c s.cpsr = true → Mode3Ok a [rd] (some rm) →
      LoadForm s (.ldrsbReg c a rd rm) 1 true s.priv (s.mode3 a (s.reg rm)) a.rn rd
  | tLdr3 (rd : LowReg) (imm : BitVec 8) : s.thumb = true → LoadForm s (.tLdr3 rd imm) 4 false s.priv (⟨((s.pc + 4) &&& 0xFFFFFFFC) + imm.setWidth 32 * 4, none⟩) 15 (lowReg rd)
  | tLdr2 (rm rn rd : LowReg) : s.thumb = true → LoadForm s (.tLdr2 rm rn rd) 4 false s.priv (⟨s.reg (lowReg rn) + s.reg (lowReg rm), none⟩) (lowReg rn) (lowReg rd)
  | tLdrh2 (rm rn rd : LowReg) : s.thumb = true → LoadForm s (.tLdrh2 rm rn rd) 2 false s.priv (⟨s.reg (lowReg rn) + s.reg (lowReg rm), none⟩) (lowReg rn) (lowReg rd)
  | tLdrb2 (rm rn rd : LowReg) : s.thumb = true → LoadForm s (.tLdrb2 rm rn rd) 1 false s.priv (⟨s.reg (lowReg rn) + s.reg (lowReg rm), none⟩) (lowReg rn) (lowReg rd)
  | tLdrsb (rm rn rd : LowReg) : s.thumb = true → LoadForm s (.tLdrsb rm rn rd) 1 true s.priv (⟨s.reg (lowReg rn) + s.reg (lowReg rm), none⟩) (lowReg rn) (lowReg rd)
  | tLdrsh (rm rn rd : LowReg) : s.thumb = true → LoadForm s (.tLdrsh rm rn rd) 2 true s.priv (⟨s.reg (lowReg rn) + s.reg (lowReg rm), none⟩) (lowReg rn) (lowReg rd)
  | tLdr1 (imm : BitVec 5) (rn rd : LowReg) : s.thumb = true → LoadForm s (.tLdr1 imm rn rd) 4 false s.priv (⟨s.reg (lowReg rn) + imm.setWidth 32 * 4, none⟩) (lowReg rn) (lowReg rd)
  | tLdrb1 (imm : BitVec 5) (rn rd : LowReg) : s.thumb = true → LoadForm s (.tLdrb1 imm rn rd) 1 false s.priv (⟨s.reg (lowReg rn) + imm.setWidth 32 * 1, none⟩) (lowReg rn) (lowReg rd)
  | tLdrh1 (imm : BitVec 5) (rn rd : LowReg) : s.thumb = true → LoadForm s (.tLdrh1 imm rn rd) 2 false s.priv (⟨s.reg (lowReg rn) + imm.setWidth 32 * 2, none⟩) (lowReg rn) (lowReg rd)
  | tLdr4 (rd : LowReg) (imm : BitVec 8) : s.thumb = true → LoadForm s (.tLdr4 rd imm) 4 false s.priv (⟨s.reg 13 + imm.setWidth 32 * 4, none⟩) 13 (lowReg rd)

/-- A store's form in a state where it may run: the instruction, the bytes written, the value, whether it is checked as
privileged, its address and write-back, the base (43_arm R485 to R494; 46_thumb R631 to R645). -/
inductive StoreForm (s : State) : Instr → Nat → Word → Bool → Addr → Reg → Prop
  | strImm (c : Cond) (a : Mode2) (rd : Reg) (off : BitVec 12) : s.thumb = false → condPassed c s.cpsr = true → Mode2Ok a rd none →
      StoreForm s (.strImm c a rd off) 4 (s.storedReg s.mode rd) s.priv (s.mode2 a (off.setWidth 32)) a.rn
  | strReg (c : Cond) (a : Mode2) (rd : Reg) (sh : ImmShift) : s.thumb = false → condPassed c s.cpsr = true → Mode2Ok a rd (some sh.rm) →
      StoreForm s (.strReg c a rd sh) 4 (s.storedReg s.mode rd) s.priv (s.mode2 a (s.immShift sh).value) a.rn
  | strbImm (c : Cond) (a : Mode2) (rd : Reg) (off : BitVec 12) : s.thumb = false → condPassed c s.cpsr = true → rd ≠ 15 → Mode2Ok a rd none →
      StoreForm s (.strbImm c a rd off) 1 (s.reg rd) s.priv (s.mode2 a (off.setWidth 32)) a.rn
  | strbReg (c : Cond) (a : Mode2) (rd : Reg) (sh : ImmShift) : s.thumb = false → condPassed c s.cpsr = true → rd ≠ 15 → Mode2Ok a rd (some sh.rm) →
      StoreForm s (.strbReg c a rd sh) 1 (s.reg rd) s.priv (s.mode2 a (s.immShift sh).value) a.rn
  | strtImm (c : Cond) (u : Bool) (rn rd : Reg) (off : BitVec 12) : s.thumb = false → condPassed c s.cpsr = true → Mode2Ok ⟨.post, u, rn⟩ rd none →
      StoreForm s (.strtImm c u rn rd off) 4 (s.storedReg s.mode rd) false (s.mode2 ⟨.post, u, rn⟩ (off.setWidth 32)) rn
  | strtReg (c : Cond) (u : Bool) (rn rd : Reg) (sh : ImmShift) : s.thumb = false → condPassed c s.cpsr = true → Mode2Ok ⟨.post, u, rn⟩ rd (some sh.rm) →
      StoreForm s (.strtReg c u rn rd sh) 4 (s.storedReg s.mode rd) false (s.mode2 ⟨.post, u, rn⟩ (s.immShift sh).value) rn
  | strbtImm (c : Cond) (u : Bool) (rn rd : Reg) (off : BitVec 12) : s.thumb = false → condPassed c s.cpsr = true → rd ≠ 15 → Mode2Ok ⟨.post, u, rn⟩ rd none →
      StoreForm s (.strbtImm c u rn rd off) 1 (s.reg rd) false (s.mode2 ⟨.post, u, rn⟩ (off.setWidth 32)) rn
  | strbtReg (c : Cond) (u : Bool) (rn rd : Reg) (sh : ImmShift) : s.thumb = false → condPassed c s.cpsr = true → rd ≠ 15 → Mode2Ok ⟨.post, u, rn⟩ rd (some sh.rm) →
      StoreForm s (.strbtReg c u rn rd sh) 1 (s.reg rd) false (s.mode2 ⟨.post, u, rn⟩ (s.immShift sh).value) rn
  | strhImm (c : Cond) (a : Mode3) (rd : Reg) (off : BitVec 8) : s.thumb = false → condPassed c s.cpsr = true → rd ≠ 15 → Mode3Ok a [rd] none →
      StoreForm s (.strhImm c a rd off) 2 (s.reg rd) s.priv (s.mode3 a (off.setWidth 32)) a.rn
  | strhReg (c : Cond) (a : Mode3) (rd rm : Reg) : s.thumb = false → condPassed c s.cpsr = true → rd ≠ 15 → Mode3Ok a [rd] (some rm) →
      StoreForm s (.strhReg c a rd rm) 2 (s.reg rd) s.priv (s.mode3 a (s.reg rm)) a.rn
  | tStr2 (rm rn rd : LowReg) : s.thumb = true → StoreForm s (.tStr2 rm rn rd) 4 (s.reg (lowReg rd)) s.priv (⟨s.reg (lowReg rn) + s.reg (lowReg rm), none⟩) (lowReg rn)
  | tStrh2 (rm rn rd : LowReg) : s.thumb = true → StoreForm s (.tStrh2 rm rn rd) 2 (s.reg (lowReg rd)) s.priv (⟨s.reg (lowReg rn) + s.reg (lowReg rm), none⟩) (lowReg rn)
  | tStrb2 (rm rn rd : LowReg) : s.thumb = true → StoreForm s (.tStrb2 rm rn rd) 1 (s.reg (lowReg rd)) s.priv (⟨s.reg (lowReg rn) + s.reg (lowReg rm), none⟩) (lowReg rn)
  | tStr1 (imm : BitVec 5) (rn rd : LowReg) : s.thumb = true → StoreForm s (.tStr1 imm rn rd) 4 (s.reg (lowReg rd)) s.priv (⟨s.reg (lowReg rn) + imm.setWidth 32 * 4, none⟩) (lowReg rn)
  | tStrb1 (imm : BitVec 5) (rn rd : LowReg) : s.thumb = true → StoreForm s (.tStrb1 imm rn rd) 1 (s.reg (lowReg rd)) s.priv (⟨s.reg (lowReg rn) + imm.setWidth 32 * 1, none⟩) (lowReg rn)
  | tStrh1 (imm : BitVec 5) (rn rd : LowReg) : s.thumb = true → StoreForm s (.tStrh1 imm rn rd) 2 (s.reg (lowReg rd)) s.priv (⟨s.reg (lowReg rn) + imm.setWidth 32 * 2, none⟩) (lowReg rn)
  | tStr3 (rd : LowReg) (imm : BitVec 8) : s.thumb = true → StoreForm s (.tStr3 rd imm) 4 (s.reg (lowReg rd)) s.priv (⟨s.reg 13 + imm.setWidth 32 * 4, none⟩) 13

/-- LDRD and STRD in a state where they may run: the instruction, whether it stores, its address and write-back, the
base, the even register (43_arm R495, R496, R498). -/
inductive DoubleForm (s : State) : Instr → Bool → Addr → Reg → Reg → Prop
  | ldrdImm (c : Cond) (a : Mode3) (rd : Reg) (off : BitVec 8) : s.thumb = false → condPassed c s.cpsr = true → rd.getLsbD 0 = false → rd ≠ 14 → Mode3Ok a [rd, rd + 1] none →
      DoubleForm s (.ldrdImm c a rd off) false (s.mode3 a (off.setWidth 32)) a.rn rd
  | ldrdReg (c : Cond) (a : Mode3) (rd rm : Reg) : s.thumb = false → condPassed c s.cpsr = true → rd.getLsbD 0 = false → rd ≠ 14 → Mode3Ok a [rd, rd + 1] (some rm) → rm ≠ rd → rm ≠ rd + 1 →
      DoubleForm s (.ldrdReg c a rd rm) false (s.mode3 a (s.reg rm)) a.rn rd
  | strdImm (c : Cond) (a : Mode3) (rd : Reg) (off : BitVec 8) : s.thumb = false → condPassed c s.cpsr = true → rd.getLsbD 0 = false → rd ≠ 14 → Mode3Ok a [rd, rd + 1] none →
      DoubleForm s (.strdImm c a rd off) true (s.mode3 a (off.setWidth 32)) a.rn rd
  | strdReg (c : Cond) (a : Mode3) (rd rm : Reg) : s.thumb = false → condPassed c s.cpsr = true → rd.getLsbD 0 = false → rd ≠ 14 → Mode3Ok a [rd, rd + 1] (some rm) →
      DoubleForm s (.strdReg c a rd rm) true (s.mode3 a (s.reg rm)) a.rn rd

/-- A load multiple into a mode's bank in a state where it may run: the instruction, the bank, the list, the lowest
address and write-back, the base (43_arm R505, R509; 46_thumb R652, R654). LDM(3) has its own statement. -/
inductive LoadList (s : State) : Instr → BitVec 5 → BitVec 16 → Addr → Reg → Prop
  | ldm1 (c : Cond) (a : Mode4) (list : BitVec 16) : s.thumb = false → condPassed c s.cpsr = true → s.mode ≠ modeDbg → a.rn ≠ 15 → list ≠ 0 → (a.w = true → list.getLsbD a.rn.toNat = false) →
      LoadList s (.ldm1 c a list) s.mode list (s.mode4 a (regList list).length) a.rn
  | ldm2 (c : Cond) (a : Mode4) (list : BitVec 15) : s.thumb = false → condPassed c s.cpsr = true → s.mode ≠ modeDbg → a.rn ≠ 15 → list ≠ 0 → a.w = false → (spsrIndex s.mode).isSome = true →
      LoadList s (.ldm2 c a list) modeUsr (list.setWidth 16) (s.mode4 a (regList (list.setWidth 16)).length) a.rn
  | tPop (r : Bool) (list : BitVec 8) : s.thumb = true → s.mode ≠ modeDbg → popList r list ≠ 0 →
      LoadList s (.tPop r list) s.mode (popList r list) (s.mode4 ⟨false, true, true, 13⟩ (regList (popList r list)).length) 13
  | tLdmia (rn : LowReg) (list : BitVec 8) : s.thumb = true → s.mode ≠ modeDbg → list ≠ 0 →
      LoadList s (.tLdmia rn list) s.mode (list.setWidth 16) (s.mode4 ⟨false, true, !list.getLsbD rn.toNat, lowReg rn⟩ (regList (list.setWidth 16)).length) (lowReg rn)

/-- A store multiple from a mode's bank in a state where it may run (43_arm R506, R511; 46_thumb R651, R653). -/
inductive StoreList (s : State) : Instr → BitVec 5 → BitVec 16 → Addr → Reg → Prop
  | stm1 (c : Cond) (a : Mode4) (list : BitVec 16) : s.thumb = false → condPassed c s.cpsr = true → a.rn ≠ 15 → list ≠ 0 →
      StoreList s (.stm1 c a list) s.mode list (s.mode4 a (regList list).length) a.rn
  | stm2 (c : Cond) (a : Mode4) (list : BitVec 16) : s.thumb = false → condPassed c s.cpsr = true → a.rn ≠ 15 → list ≠ 0 → a.w = false → (spsrIndex s.mode).isSome = true →
      StoreList s (.stm2 c a list) modeUsr list (s.mode4 a (regList list).length) a.rn
  | tPush (r : Bool) (list : BitVec 8) : s.thumb = true → pushList r list ≠ 0 →
      StoreList s (.tPush r list) s.mode (pushList r list) (s.mode4 ⟨true, false, true, 13⟩ (regList (pushList r list)).length) 13
  | tStmia (rn : LowReg) (list : BitVec 8) : s.thumb = true → list ≠ 0 →
      StoreList s (.tStmia rn list) s.mode (list.setWidth 16) (s.mode4 ⟨false, true, true, lowReg rn⟩ (regList (list.setWidth 16)).length) (lowReg rn)

/-- What a load of `n` bytes at `va` writes for the value `v` read: a word rotated as its unaligned address says
(20_memory R225), a byte or halfword zero- or sign-extended. -/
def loadedValue (n : Nat) (signed : Bool) (va v : Word) : Word :=
  if n = 4 then v.rotateRight (8 * (va.toNat % 4))
  else if signed then (v.setWidth (8 * n)).signExtend 32 else (v.setWidth (8 * n)).setWidth 32

/-- What an access that misses and allocates leaves (21_mmu R313, R314, R319, R324): `l` is the line of the MVA in the cache of
its region, filled with `data`; it stands at the round-robin pointer's way, or in lock mode locked at the next lockable one; the
set's pointer moves on; memory has only the dirty halves of the line that was there before. -/
def Allocated (s t : State) (x : Xlat) (mva : Word) (l : CacheLine) (data : List Byte) : Prop :=
  let c := s.dataCache x.toMini
  let set := setOf mva
  let n := c.lockedWays set
  let last : BitVec 5 := if x.toMini then 1 else 31
  let lock := s.cp15.dcacheLock
  let way : BitVec 5 := if lock then (if n < 28 then BitVec.ofNat 5 n else 31) else c.rr[set.toFin]
  (t.dataCache x.toMini).find mva = some l ∧ l.set = set ∧ l.way = way ∧ l.locked = (lock && decide (n < 28))
    ∧ l.pa = x.pa &&& 0xFFFFFFE0 ∧ l.data.toList = data
    ∧ (t.dataCache x.toMini).rr = c.rr.set set.toFin (if lock then 31 else if way = last then BitVec.ofNat 5 n else way + 1)
    ∧ t.dataCache (!x.toMini) = s.dataCache (!x.toMini)
    ∧ ∀ a : Word, t.byteAt a = match c.lineAt set way with
        | some v => let d := (a - v.pa).toNat
          if v.valid = true ∧ ((d < 16 ∧ v.dirtyLo = true) ∨ (16 ≤ d ∧ d < 32 ∧ v.dirtyHi = true)) then v.data.getD d 0
          else s.byteAt a
        | none => s.byteAt a

end Sys2Proof.Machine

open Sys2Proof Sys2Proof.Machine

/-! ## Encoding -/

/-- Decoding what the encoder writes gives the instruction back, for every well-formed instruction. -/
def Obligations.DecodeEncodeRoundTrip : Prop := ∀ i : Instr, i.wf = true → decode (encode i) = some i

/-- Every word decodes, to an instruction of its own instruction set (30_encoding R378) that is well formed: no word
reaches a row that an earlier row should have taken. -/
def Obligations.EveryWordDecodes : Prop :=
  (∀ w : BitVec 32, ∃ i, decodeArm w = some i ∧ i.isThumb = false ∧ i.wf = true)
    ∧ (∀ w : BitVec 16, ∃ i, decodeThumb w = some i ∧ i.isThumb = true ∧ i.wf = true)

/-- Some of the manual's and the rules' own example words decode to the instructions they stand for. -/
def Obligations.ExampleWordsDecode : Prop :=
  decodeArm 0xE1B00081#32 = some (.movShift .al true 0 ⟨1, .lsl, 1⟩)
    ∧ decodeArm 0xE4923020#32 = some (.ldrImm .al ⟨.post, true, 2⟩ 3 32)
    ∧ decodeArm 0xE8BD8010#32 = some (.ldm1 .al ⟨false, true, true, 13⟩ 0x8010)
    ∧ decodeArm 0xEE202011#32 = some (.mia .al 2 0 1)
    ∧ decodeArm 0xEE010F10#32 = some (.mcr .al 0 1 0 15 0 0)
    ∧ decodeArm 0xE1212374#32 = some (.bkpt .al 0x1234)
    ∧ decodeThumb 0xB510#16 = some (.tPush true 0x10)
    ∧ decodeThumb 0xD002#16 = some (.tB1 .eq 2)

/-! ## The step -/

/-- When nothing from outside intervenes and the bytes at the pc decode to `i`, the step is exec of `i` in the state
the fetch left, with the end of the step (trace, counters, data breakpoint, R13_dbg) after a next state. In Special Debug State
an instruction that may not use R13_dbg (61_debug R790) finds a free value in it (log 39). -/
def Obligations.StepRunsDecodedInstruction : Prop :=
  ∀ (s s1 : State) (w : Nat) (i : Instr), s.quiet = true → fetch { s with scratch := .empty } = .ok w s1 →
    s1.decodeFetched w = some i →
    step s = (match exec i (if s1.dbg.sds = true ∧ keepsScratch13 i = false then s1.scramble13 else s1) with
      | .next t => .next (({ s with scratch := .empty } : State).retireInstr i t)
      | .fault e => .fault e
      | .refused e => .refused e)

/-- With the MMU off, outside Special Debug State, nothing in the mini instruction cache, no branch of the BTB at the pc, no
bus abort and no other master's write before the line read, the fetch delivers the instruction at the MVA of the pc, in the byte order of Control.B: from the instruction
cache's line of good parity or from a fetch buffer that holds it (21_mmu R302), else from external memory. Where the code was
changed and the sequence of 20_memory R246 is not complete, it delivers that word, a word that stands there in memory or in a data
cache, or one that stood there since the sequence was last complete (U3; what 'complete' is taken to be is log 58). The word of a
line that LDIC downloaded into the instruction cache (61_debug R799) is delivered as it is (THE MODEL'S CHOICE, log 58). What an
instruction can see does not change. -/
def Obligations.FetchReadsMemory : Prop :=
  ∀ s : State, s.mmuOn = false → s.dbg.sds = false → s.findMini s.fetchAddress = none →
    (s.btbOn = false ∨ s.btbFind s.pc = none) → s.board.abortRegions = [] → s.board.between = [] →
    let a := s.fetchAddress
    let n := s.isize.toNat
    let Delivers (downloaded : Bool) (held : Nat) : Prop := ∃ w t, fetch s = .ok w t
      ∧ (s.codeChanged a n = false ∨ downloaded = true → w = held)
      ∧ (s.codeChanged a n = true →
          w = held ∨ ∃ bs ∈ s.syncedBytes a n :: s.standingBytes a n ++ s.overwrittenBytes a n, w = assemble s.bigEndian bs)
      ∧ t.mem = s.mem ∧ t.regs = s.regs ∧ t.cpsr = s.cpsr ∧ t.pc = s.pc ∧ t.cp15 = s.cp15
    (∀ l, s.icache.find a = some l → l.badWord a = false → Delivers l.downloaded (s.instrOf l.data a))
    ∧ (s.icache.find a = none → ∀ b, s.fetchBufs.find a = some b → Delivers false (s.instrOf b.data a))
    ∧ (s.icache.find a = none → s.fetchBufs.find a = none → Delivers false (assemble s.bigEndian (s.bytesAt a n)))

/-! ## Reset -/

/-- Reset (10_state R49, 70_reset R901). The values the spec gives for power-on: the pc at 0, interrupts disabled in
Supervisor mode and ARM state, the coprocessor registers, power mode and clock, the caches and TLBs without a valid or
locked entry, their pointers. And RESET# from any state: the same, but external memory and the board are as they were;
out of a mode other than sleep, DCSR's H and trap bits (12_state R150) too, the mini instruction cache in Halt mode, and
while the JTAG instruction is LDIC every line of both instruction caches (61_debug R797; of the main cache THE MODEL'S CHOICE
where 10_state R49, 21_mmu R309 and 70_reset R901 invalidate it at every reset, log 61); out of sleep nothing is kept
(62_platform R883). DBusWidth is sampled, and hold_rst keeps the core in reset (70_reset R900; 61_debug R764). RESETOUT# is
asserted from RESET#'s falling edge until its rising edge (70_reset R900; its delay is timing, log 49). That TLB entries
are invalid is D13 (log 22), and that the mini-data cache's pointers stand at its last way, 1, is the model's reading of R326's
'way 31' (log 21, DEDUCED). -/
def Obligations.ResetValues : Prop :=
  let Common (t : State) : Prop :=
    t.pc = 0 ∧ t.cpsr.extractLsb' 0 8 = 0xD3 ∧ t.cp15.control = 0x78 ∧ t.cp15.auxControl = 0 ∧ t.cp15.pid = 0
      ∧ t.cp15.dcacheLock = false ∧ t.cp15.cpar = 0 ∧ t.cp15.dbcon = 0 ∧ t.cp15.ibcr0.getLsbD 0 = false
      ∧ t.cp15.ibcr1.getLsbD 0 = false ∧ t.pmu.pmnc &&& 0x71 = 0 ∧ t.dbg.txrxctrl = 0 ∧ t.dbg.sds = false
      ∧ t.icu.intctl = 0 ∧ t.icu.intstr = 0 ∧ t.bcu.bcuctl = 0 ∧ t.bcu.bcumod = 0 ∧ t.bcu.ectst = 0
      ∧ t.power.mode = .active ∧ t.power.cclkcfg = (if t.board.pllcfg then 4 else 1) ∧ t.bus32 = t.board.bus32
      ∧ t.dcache.lines = [] ∧ t.minid.lines = [] ∧ t.itlb.entries = [] ∧ t.dtlb.entries = [] ∧ t.btb = []
      ∧ (∀ l ∈ t.icache.lines, l.locked = false) ∧ t.fetchBufs = .empty
      ∧ t.itlb.rr = 31 ∧ t.itlb.lock = 0 ∧ t.dtlb.rr = 31 ∧ t.dtlb.lock = 0
      ∧ t.icache.rr = Vector.replicate 32 31 ∧ t.dcache.rr = Vector.replicate 32 31 ∧ t.minid.rr = Vector.replicate 32 1
  Common State.reset ∧ State.reset.icache.lines = [] ∧ State.reset.minic.lines = [] ∧ State.reset.dbg.dcsr = 0
    ∧ ∀ s : State, ∃ t, applyEvent (.reset false) s = .next t ∧ Common t ∧ t.mem = s.mem ∧ t.board = s.board
      ∧ (s.power.mode = .sleep → t.inReset = false ∧ t.dbg.dcsr = 0 ∧ t.icache.lines = [] ∧ t.minic.lines = [])
      ∧ (s.power.mode ≠ .sleep →
          t.inReset = s.jtag.holdRst ∧ t.dbg.dcsr = s.dbg.dcsr &&& 0x40DF0000
          ∧ (s.jtag.ir = irLdic → t.minic = s.minic
              ∧ t.icache.lines = s.icache.lines.map fun l => { l with locked := false })
          ∧ (s.jtag.ir ≠ irLdic → (∀ l ∈ t.icache.lines, l.valid = false)
              ∧ (s.haltMode = true → t.minic = s.minic)
              ∧ (s.haltMode = false → ∀ l ∈ t.minic.lines, l.valid = false)))
      ∧ ∃ a u, applyEvent (.resetAssert false) s = .next a ∧ a.resetout = true ∧ a.inReset = true
          ∧ applyEvent .resetRelease a = .next u ∧ u.resetout = false ∧ u.inReset = a.jtag.holdRst

/-! ## Invariants -/

/-- Memory keeps its canonical form in every step, and so does the model's record of it (`synced`). -/
def Obligations.StepKeepsMemoryForm : Prop :=
  ∀ s t : State, memWf s.mem = true → step s = .next t →
    memWf t.mem = true ∧ (memWf s.synced = true → memWf t.synced = true)

/-- The status registers keep their reserved bits zero and the mode stays one of those R31 lists, in every step. -/
def Obligations.StepKeepsStatusLegal : Prop :=
  ∀ s t : State, s.statusWf = true → step s = .next t → t.statusWf = true

/-- The registers of CP15, CP14 and CP13 stay within the bits their tables define (`registersWf` names each register and
its bits), in every step. -/
def Obligations.StepKeepsRegisterFields : Prop :=
  ∀ s t : State, s.registersWf = true → step s = .next t → t.registersWf = true

/-- The pc stays aligned for the instruction set in use, in every step. -/
def Obligations.StepKeepsPcAligned : Prop :=
  ∀ s t : State, s.pcWf = true → step s = .next t → t.pcWf = true

/-- The four invariants hold after reset. -/
def Obligations.ResetMeetsInvariants : Prop :=
  memWf State.reset.mem = true ∧ memWf State.reset.synced = true ∧ State.reset.statusWf = true ∧ State.reset.registersWf = true
    ∧ State.reset.pcWf = true

/-! ## Privilege -/

/-- What an instruction run in User mode cannot do (10_state R31, 44_coprocessor R530): it stays in User mode with I
and F as they were, or takes an exception whose SPSR holds the old CPSR, or makes Halt mode's debug entry; it changes no
CP15 register but FSR and FAR (which an abort writes), no performance counter, no clock or power setting, no trace
register. -/
def Obligations.UserModeIsConfined : Prop :=
  ∀ (i : Instr) (s t : State), s.mode = modeUsr → exec i s = .next t →
    ((t.mode = modeUsr ∧ bitI t.cpsr = bitI s.cpsr ∧ bitF t.cpsr = bitF s.cpsr)
      ∨ (∃ e ∈ [Exc.undef, Exc.swi, Exc.prefetch, Exc.data], t.cpsr = entryCpsr s.cpsr e.mode false
          ∧ t.spsrs[e.spsr] = s.cpsr ∧ t.pc = s.vectorBase + e.offset)
      ∨ (t.mode = modeDbg ∧ t.dbg.sds = true ∧ t.spsrs[(5 : Fin 6)] = s.cpsr))
    ∧ t.cp15 = { s.cp15 with fsr := t.cp15.fsr, far := t.cp15.far } ∧ t.pmu = s.pmu ∧ t.power = s.power
    ∧ t.trace = s.trace

/-- Q is sticky: an instruction that is not MSR leaves a set Q set, unless it restores the CPSR from the SPSR. -/
def Obligations.StickyOverflowStaysSet : Prop :=
  ∀ (i : Instr) (s t : State), (∀ c r m v, i ≠ .msrReg c r m v) → (∀ c r m v, i ≠ .msrImm c r m v) →
    exec i s = .next t → flagQ s.cpsr = true →
    flagQ t.cpsr = true ∨ ∃ p, s.spsr = some p ∧ t.cpsr = p &&& psrMask

/-- An instruction whose condition fails, BKPT among them, does nothing but move the pc (30_encoding R342); a branch is also
counted as PMU event 0x5 (12_state R145), and a B or BL recorded in the branch target buffer, which changes timing only
(21_mmu R330). -/
def Obligations.FailedConditionDoesNothing : Prop :=
  ∀ (i : Instr) (c : Cond) (s : State), condOf i = some c → condPassed c s.cpsr = false → s.thumb = false →
    ((∀ k off, i ≠ .b k off ∧ i ≠ .bl k off) → (∀ k rm, i ≠ .bx k rm ∧ i ≠ .blx2 k rm) →
      exec i s = .next { s with pc := s.pc + 4 })
    ∧ (∀ k rm, i = .bx k rm ∨ i = .blx2 k rm →
      exec i s = .next { s with pc := s.pc + 4, scratch := { s.scratch with events := 0x05 :: s.scratch.events } })
    ∧ ∃ b ev, exec i s = .next { s with pc := s.pc + 4, btb := b, scratch := { s.scratch with events := ev } }

/-! ## ARM data processing -/

/-- AND, EOR, ORR, MOV, BIC, MVN, TST, TEQ in every operand form: the result, N, Z, the shifter's C, V kept; Rd = 15;
TST and TEQ write the flags only. -/
def Obligations.LogicalInstructionResults : Prop :=
  ∀ (c : Cond) (sb : Bool) (rn rd : Reg) (s : State), condPassed c s.cpsr = true → s.thumb = false →
    (∀ sh : ImmShift, let o := s.immShift sh
      ArmResult (.andShift c sb rn rd sh) s sb rd (s.reg rn &&& o.value) (logicFlags s.cpsr (s.reg rn &&& o.value) o.carry)
      ∧ ArmResult (.eorShift c sb rn rd sh) s sb rd (s.reg rn ^^^ o.value) (logicFlags s.cpsr (s.reg rn ^^^ o.value) o.carry)
      ∧ ArmResult (.orrShift c sb rn rd sh) s sb rd (s.reg rn ||| o.value) (logicFlags s.cpsr (s.reg rn ||| o.value) o.carry)
      ∧ ArmResult (.bicShift c sb rn rd sh) s sb rd (s.reg rn &&& ~~~o.value) (logicFlags s.cpsr (s.reg rn &&& ~~~o.value) o.carry)
      ∧ ArmResult (.movShift c sb rd sh) s sb rd o.value (logicFlags s.cpsr o.value o.carry)
      ∧ ArmResult (.mvnShift c sb rd sh) s sb rd (~~~o.value) (logicFlags s.cpsr (~~~o.value) o.carry)
      ∧ ArmCompare (.tstShift c rn sh) s (logicFlags s.cpsr (s.reg rn &&& o.value) o.carry)
      ∧ ArmCompare (.teqShift c rn sh) s (logicFlags s.cpsr (s.reg rn ^^^ o.value) o.carry))
    ∧ (∀ op : RotImm, let o := s.rotImm op
      ArmResult (.andImm c sb rn rd op) s sb rd (s.reg rn &&& o.value) (logicFlags s.cpsr (s.reg rn &&& o.value) o.carry)
      ∧ ArmResult (.eorImm c sb rn rd op) s sb rd (s.reg rn ^^^ o.value) (logicFlags s.cpsr (s.reg rn ^^^ o.value) o.carry)
      ∧ ArmResult (.orrImm c sb rn rd op) s sb rd (s.reg rn ||| o.value) (logicFlags s.cpsr (s.reg rn ||| o.value) o.carry)
      ∧ ArmResult (.bicImm c sb rn rd op) s sb rd (s.reg rn &&& ~~~o.value) (logicFlags s.cpsr (s.reg rn &&& ~~~o.value) o.carry)
      ∧ ArmResult (.movImm c sb rd op) s sb rd o.value (logicFlags s.cpsr o.value o.carry)
      ∧ ArmResult (.mvnImm c sb rd op) s sb rd (~~~o.value) (logicFlags s.cpsr (~~~o.value) o.carry)
      ∧ ArmCompare (.tstImm c rn op) s (logicFlags s.cpsr (s.reg rn &&& o.value) o.carry)
      ∧ ArmCompare (.teqImm c rn op) s (logicFlags s.cpsr (s.reg rn ^^^ o.value) o.carry))
    ∧ (∀ sh : RegShift, rd ≠ 15 → rn ≠ 15 → sh.rm ≠ 15 → sh.rs ≠ 15 → let o := s.regShift sh
      ArmResult (.andRegShift c sb rn rd sh) s sb rd (s.reg rn &&& o.value) (logicFlags s.cpsr (s.reg rn &&& o.value) o.carry)
      ∧ ArmResult (.eorRegShift c sb rn rd sh) s sb rd (s.reg rn ^^^ o.value) (logicFlags s.cpsr (s.reg rn ^^^ o.value) o.carry)
      ∧ ArmResult (.orrRegShift c sb rn rd sh) s sb rd (s.reg rn ||| o.value) (logicFlags s.cpsr (s.reg rn ||| o.value) o.carry)
      ∧ ArmResult (.bicRegShift c sb rn rd sh) s sb rd (s.reg rn &&& ~~~o.value) (logicFlags s.cpsr (s.reg rn &&& ~~~o.value) o.carry)
      ∧ ArmResult (.movRegShift c sb rd sh) s sb rd o.value (logicFlags s.cpsr o.value o.carry)
      ∧ ArmResult (.mvnRegShift c sb rd sh) s sb rd (~~~o.value) (logicFlags s.cpsr (~~~o.value) o.carry)
      ∧ ArmCompare (.tstRegShift c rn sh) s (logicFlags s.cpsr (s.reg rn &&& o.value) o.carry)
      ∧ ArmCompare (.teqRegShift c rn sh) s (logicFlags s.cpsr (s.reg rn ^^^ o.value) o.carry))

/-- ADD, ADC, SUB, SBC, RSB, RSC, CMP, CMN in every operand form: the result modulo 2^32 and N, Z, C, V; Rd = 15; CMP
and CMN write the flags only. -/
def Obligations.ArithmeticInstructionResults : Prop :=
  ∀ (c : Cond) (sb : Bool) (rn rd : Reg) (s : State), condPassed c s.cpsr = true → s.thumb = false →
    let x := s.reg rn
    let cin := flagC s.cpsr
    let k : Word := if cin then 1 else 0
    let b : Word := if cin then 0 else 1
    (∀ sh : ImmShift, let y := (s.immShift sh).value
      ArmResult (.addShift c sb rn rd sh) s sb rd (x + y) (addFlags s.cpsr x y (x + y) false)
      ∧ ArmResult (.adcShift c sb rn rd sh) s sb rd (x + y + k) (addFlags s.cpsr x y (x + y + k) cin)
      ∧ ArmResult (.subShift c sb rn rd sh) s sb rd (x - y) (subFlags s.cpsr x y (x - y) false)
      ∧ ArmResult (.sbcShift c sb rn rd sh) s sb rd (x - y - b) (subFlags s.cpsr x y (x - y - b) (!cin))
      ∧ ArmResult (.rsbShift c sb rn rd sh) s sb rd (y - x) (subFlags s.cpsr y x (y - x) false)
      ∧ ArmResult (.rscShift c sb rn rd sh) s sb rd (y - x - b) (subFlags s.cpsr y x (y - x - b) (!cin))
      ∧ ArmCompare (.cmpShift c rn sh) s (subFlags s.cpsr x y (x - y) false)
      ∧ ArmCompare (.cmnShift c rn sh) s (addFlags s.cpsr x y (x + y) false))
    ∧ (∀ op : RotImm, let y := rotImmValue op
      ArmResult (.addImm c sb rn rd op) s sb rd (x + y) (addFlags s.cpsr x y (x + y) false)
      ∧ ArmResult (.adcImm c sb rn rd op) s sb rd (x + y + k) (addFlags s.cpsr x y (x + y + k) cin)
      ∧ ArmResult (.subImm c sb rn rd op) s sb rd (x - y) (subFlags s.cpsr x y (x - y) false)
      ∧ ArmResult (.sbcImm c sb rn rd op) s sb rd (x - y - b) (subFlags s.cpsr x y (x - y - b) (!cin))
      ∧ ArmResult (.rsbImm c sb rn rd op) s sb rd (y - x) (subFlags s.cpsr y x (y - x) false)
      ∧ ArmResult (.rscImm c sb rn rd op) s sb rd (y - x - b) (subFlags s.cpsr y x (y - x - b) (!cin))
      ∧ ArmCompare (.cmpImm c rn op) s (subFlags s.cpsr x y (x - y) false)
      ∧ ArmCompare (.cmnImm c rn op) s (addFlags s.cpsr x y (x + y) false))
    ∧ (∀ sh : RegShift, rd ≠ 15 → rn ≠ 15 → sh.rm ≠ 15 → sh.rs ≠ 15 → let y := (s.regShift sh).value
      ArmResult (.addRegShift c sb rn rd sh) s sb rd (x + y) (addFlags s.cpsr x y (x + y) false)
      ∧ ArmResult (.adcRegShift c sb rn rd sh) s sb rd (x + y + k) (addFlags s.cpsr x y (x + y + k) cin)
      ∧ ArmResult (.subRegShift c sb rn rd sh) s sb rd (x - y) (subFlags s.cpsr x y (x - y) false)
      ∧ ArmResult (.sbcRegShift c sb rn rd sh) s sb rd (x - y - b) (subFlags s.cpsr x y (x - y - b) (!cin))
      ∧ ArmResult (.rsbRegShift c sb rn rd sh) s sb rd (y - x) (subFlags s.cpsr y x (y - x) false)
      ∧ ArmResult (.rscRegShift c sb rn rd sh) s sb rd (y - x - b) (subFlags s.cpsr y x (y - x - b) (!cin))
      ∧ ArmCompare (.cmpRegShift c rn sh) s (subFlags s.cpsr x y (x - y) false)
      ∧ ArmCompare (.cmnRegShift c rn sh) s (addFlags s.cpsr x y (x + y) false))

/-- The shifter operand (40_arm R381): what each shift kind does to the value, as arithmetic, and its carry out; the
rotated immediate; which of them an instruction's operand uses, with which amount and carry. -/
def Obligations.ShifterOperandValues : Prop :=
  (∀ (s : State) (i : ImmShift) (r : RegShift) (o : RotImm),
    s.immShift i = shiftByImm i.kind i.amount.toNat (s.reg i.rm) (flagC s.cpsr)
    ∧ s.regShift r = shiftByReg r.kind ((s.reg r.rs).toNat % 256) (s.reg r.rm) (flagC s.cpsr)
    ∧ (s.rotImm o).value = rotImmValue o
    ∧ (s.rotImm o).carry = (if o.rot = 0 then flagC s.cpsr else (rotImmValue o).getLsbD 31))
  ∧ ∀ (m : Word) (c : Bool),
    (∀ n : Nat, 0 < n → n < 32 →
      ((shiftByReg .lsl n m c).value.toNat = m.toNat * 2 ^ n % 2 ^ 32 ∧ (shiftByReg .lsl n m c).carry = m.getLsbD (32 - n))
      ∧ ((shiftByReg .lsr n m c).value.toNat = m.toNat / 2 ^ n ∧ (shiftByReg .lsr n m c).carry = m.getLsbD (n - 1))
      ∧ ((shiftByReg .asr n m c).value.toInt = m.toInt / 2 ^ n ∧ (shiftByReg .asr n m c).carry = m.getLsbD (n - 1))
      ∧ ((∀ i : Nat, i < 32 → (shiftByReg .ror n m c).value.getLsbD i = m.getLsbD ((i + n) % 32))
          ∧ (shiftByReg .ror n m c).carry = m.getLsbD (n - 1)))
    ∧ (∀ k, shiftByReg k 0 m c = ⟨m, c⟩)
    ∧ (∀ k (n : Nat), 0 < n → n < 32 → shiftByImm k n m c = shiftByReg k n m c)
    ∧ shiftByImm .lsl 0 m c = ⟨m, c⟩ ∧ shiftByImm .lsr 0 m c = shiftByReg .lsr 32 m c
    ∧ shiftByImm .asr 0 m c = shiftByReg .asr 32 m c
    ∧ ((shiftByImm .ror 0 m c).value.toNat = m.toNat / 2 + (if c then 2 ^ 31 else 0)
        ∧ (shiftByImm .ror 0 m c).carry = m.getLsbD 0)
    ∧ (shiftByReg .lsl 32 m c = ⟨0, m.getLsbD 0⟩ ∧ shiftByReg .lsr 32 m c = ⟨0, m.getLsbD 31⟩)
    ∧ (∀ n : Nat, 32 < n → shiftByReg .lsl n m c = ⟨0, false⟩ ∧ shiftByReg .lsr n m c = ⟨0, false⟩)
    ∧ (∀ n : Nat, 32 ≤ n → (shiftByReg .asr n m c).value = (if m.msb then 0xFFFFFFFF else 0)
        ∧ (shiftByReg .asr n m c).carry = m.getLsbD 31)
    ∧ (∀ n : Nat, 32 ≤ n → shiftByReg .ror n m c
        = if n % 32 = 0 then ⟨m, m.getLsbD 31⟩ else shiftByReg .ror (n % 32) m c)
    ∧ (∀ (op : RotImm) (i : Nat), i < 32 →
        (rotImmValue op).getLsbD i = op.imm8.getLsbD ((i + 2 * op.rot.toNat) % 32))

/-- MRS reads CPSR or the mode's SPSR. MSR writes the bytes its mask selects: of the CPSR in User mode the flags only;
in a privileged mode everything but T, when the mode written may be entered; of the SPSR every bit that exists
(40_arm R400, R401; reserved bits read as zero, log 9; that the flags byte
always takes Q with it, against R401's last example, is log 60). -/
def Obligations.StatusRegisterTransfers : Prop :=
  ∀ (c : Cond) (s : State), condPassed c s.cpsr = true → s.thumb = false →
    (∀ rd : Reg, rd ≠ 15 → exec (.mrs c false rd) s = .next (s.wrote rd s.cpsr s.cpsr 4))
    ∧ (∀ (rd : Reg) (p : Word), rd ≠ 15 → s.spsr = some p → exec (.mrs c true rd) s = .next (s.wrote rd p s.cpsr 4))
    ∧ (∀ (m : BitVec 4) (i : Bool → Instr) (v : Word),
        ((∃ rm, rm ≠ 15 ∧ v = s.reg rm ∧ ∀ r, i r = .msrReg c r m rm)
          ∨ (∃ op, v = rotImmValue op ∧ ∀ r, i r = .msrImm c r m op)) →
        (s.mode = modeUsr → exec (i false) s = .next { s with
          cpsr := if m.getLsbD 3 then (s.cpsr &&& 0x000000FF) ||| (v &&& 0xF8000000) else s.cpsr &&& 0xF80000FF
          pc := s.pc + 4 })
        ∧ (let p := mergeMask s.cpsr (msrByteMask m) v
           s.mode ≠ modeUsr → s.dbg.sds = false → (m.getLsbD 0 = true → v.getLsbD 5 = false) →
           modeLegal (modeBits p) = true → modeBits p ≠ modeDbg →
           exec (i false) s = .next { s with cpsr := setBit (p &&& 0xF80000FF) 5 s.thumb, pc := s.pc + 4 })
        ∧ (∀ k : Fin 6, spsrIndex s.mode = some k →
           exec (i true) s = .next { s with
             spsrs := s.spsrs.set k (mergeMask s.spsrs[k] (msrByteMask m) v &&& 0xF80000FF), pc := s.pc + 4 }))

/-- CLZ (40_arm R402): 32 for zero, else the number of zero bits above the highest one. With R15, which the rule calls
UNPREDICTABLE, it stops: the model's choice (log 48). -/
def Obligations.CountLeadingZeros : Prop :=
  (∀ (c : Cond) (rd rm : Reg) (s : State), condPassed c s.cpsr = true → s.thumb = false →
    (rd ≠ 15 → rm ≠ 15 →
      ∃ n : Nat, exec (.clz c rd rm) s = .next (s.wrote rd (BitVec.ofNat 32 n) s.cpsr 4)
        ∧ (if s.reg rm = 0 then n = 32
           else n < 32 ∧ 2 ^ (31 - n) ≤ (s.reg rm).toNat ∧ (s.reg rm).toNat < 2 ^ (32 - n)))
    ∧ (rd = 15 ∨ rm = 15 → exec (.clz c rd rm) s = .refused .r15Operand))
  ∧ decodeArm 0xE16F0F11#32 = some (.clz .al 0 1)

/-! ## Multiplies -/

/-- MUL, MLA: the low 32 bits; UMULL, UMLAL, SMULL, SMLAL, SMLALxy: the 64-bit value in RdHi and RdLo. With S, N and Z
from the result, C and V kept; SMLALxy writes no flag (41_arm R421 to R426, R431). That RdHi = RdLo stops and that MUL and
MLA run with Rd = Rm is the model's reading of what the rules call UNPREDICTABLE (log 48). With the rules' example words.
-/
def Obligations.MultiplyResults : Prop :=
  (∀ (c : Cond) (sb y x : Bool) (hi lo rs rm : Reg) (s : State), condPassed c s.cpsr = true → s.thumb = false →
    hi ≠ 15 → lo ≠ 15 → rs ≠ 15 → rm ≠ 15 →
    let m := (s.reg rm).toNat
    let n := (s.reg rs).toNat
    let sm := (s.reg rm).toInt * (s.reg rs).toInt
    let hm := signedHalf (s.reg rm) x * signedHalf (s.reg rs) y
    let acc := (s.reg hi).toNat * 2 ^ 32 + (s.reg lo).toNat
    let fl (b : Bool) (msb zero : Bool) : Word := if b then withNZCV s.cpsr msb zero (flagC s.cpsr) (flagV s.cpsr) else s.cpsr
    let short (v : Word) : Out := .next (s.wrote hi v (fl sb v.msb (v == 0)) 4)
    let long (b : Bool) (v : BitVec 64) : Out := .next { s with
      regs := (s.regs.set (bankIndex s.mode hi) (v.extractLsb' 32 32)).set (bankIndex s.mode lo) (v.extractLsb' 0 32)
      cpsr := fl b v.msb (v == 0)
      pc := s.pc + 4 }
    exec (.mul c sb hi rs rm) s = short (BitVec.ofNat 32 (m * n))
    ∧ exec (.mla c sb hi lo rs rm) s = short (BitVec.ofNat 32 (m * n + (s.reg lo).toNat))
    ∧ (hi ≠ lo →
      exec (.umull c sb hi lo rs rm) s = long sb (BitVec.ofNat 64 (m * n))
      ∧ exec (.umlal c sb hi lo rs rm) s = long sb (BitVec.ofNat 64 (m * n + acc))
      ∧ exec (.smull c sb hi lo rs rm) s = long sb (BitVec.ofInt 64 sm)
      ∧ exec (.smlal c sb hi lo rs rm) s = long sb (BitVec.ofInt 64 (sm + acc))
      ∧ exec (.smlalxy c hi lo rs y x rm) s = long false (BitVec.ofInt 64 (hm + acc)))
    ∧ (hi = lo → ∀ i ∈ [Instr.umull c sb hi lo rs rm, .umlal c sb hi lo rs rm, .smull c sb hi lo rs rm,
        .smlal c sb hi lo rs rm, .smlalxy c hi lo rs y x rm], exec i s = .refused .registerClash))
  ∧ decodeArm 0xE0000291#32 = some (.mul .al false 0 2 1) ∧ decodeArm 0xE0203291#32 = some (.mla .al false 0 3 2 1)
  ∧ decodeArm 0xE0810392#32 = some (.umull .al false 1 0 3 2) ∧ decodeArm 0xE0A86190#32 = some (.umlal .al false 8 6 1 0)
  ∧ decodeArm 0xE0C10392#32 = some (.smull .al false 1 0 3 2) ∧ decodeArm 0xE0E10392#32 = some (.smlal .al false 1 0 3 2)
  ∧ decodeArm 0xE1410382#32 = some (.smlalxy .al 1 0 3 false false 2)

/-- SMULxy, SMLAxy, SMULWy, SMLAWy: the products of halves, bits 47:16 for the W forms; the accumulating forms set Q on
a signed overflow of the addition and wrap (41_arm R427 to R430), with the rules' example words. -/
def Obligations.DspMultiplyResults : Prop :=
  (∀ (c : Cond) (rd rn rs : Reg) (y x : Bool) (rm : Reg) (s : State), condPassed c s.cpsr = true → s.thumb = false →
    rd ≠ 15 → rn ≠ 15 → rs ≠ 15 → rm ≠ 15 →
    let p := signedHalf (s.reg rm) x * signedHalf (s.reg rs) y
    let w := (s.reg rm).toInt * signedHalf (s.reg rs) y / 65536
    let a := (s.reg rn).toInt
    let q (v : Int) : Word := if v < -(2 ^ 31) ∨ 2 ^ 31 ≤ v then s.cpsr ||| 0x08000000 else s.cpsr
    exec (.smulxy c rd rs y x rm) s = .next (s.wrote rd (BitVec.ofInt 32 p) s.cpsr 4)
    ∧ exec (.smlaxy c rd rn rs y x rm) s = .next (s.wrote rd (BitVec.ofInt 32 (p + a)) (q (p + a)) 4)
    ∧ exec (.smulwy c rd rs y rm) s = .next (s.wrote rd (BitVec.ofInt 32 w) s.cpsr 4)
    ∧ exec (.smlawy c rd rn rs y rm) s = .next (s.wrote rd (BitVec.ofInt 32 (w + a)) (q (w + a)) 4))
  ∧ decodeArm 0xE1600281#32 = some (.smulxy .al 0 2 false false 1)
  ∧ decodeArm 0xE16002E1#32 = some (.smulxy .al 0 2 true true 1)
  ∧ decodeArm 0xE16002A1#32 = some (.smulxy .al 0 2 false true 1)
  ∧ decodeArm 0xE16002C1#32 = some (.smulxy .al 0 2 true false 1)
  ∧ decodeArm 0xE1003281#32 = some (.smlaxy .al 0 3 2 false false 1)
  ∧ decodeArm 0xE12002A1#32 = some (.smulwy .al 0 2 false 1) ∧ decodeArm 0xE1203281#32 = some (.smlawy .al 0 3 2 false 1)

/-- QADD, QSUB, QDADD, QDSUB: the result clamped to 32 signed bits, the doubled operand clamped first; Q set when
either was clamped, else kept (41_arm R432 to R436), with the rules' example words. -/
def Obligations.SaturatingArithmetic : Prop :=
  (∀ (c : Cond) (rn rd rm : Reg) (s : State), condPassed c s.cpsr = true → s.thumb = false → rd ≠ 15 → rn ≠ 15 → rm ≠ 15 →
    let clamp (v : Int) : Int := max (-(2 ^ 31)) (min v (2 ^ 31 - 1))
    let q (b : Bool) : Word := if b then s.cpsr ||| 0x08000000 else s.cpsr
    let m := (s.reg rm).toInt
    let n := (s.reg rn).toInt
    let d := clamp (2 * n)
    let dq := decide (clamp (2 * n) ≠ 2 * n)
    exec (.qadd c rn rd rm) s
      = .next (s.wrote rd (BitVec.ofInt 32 (clamp (m + n))) (q (decide (clamp (m + n) ≠ m + n))) 4)
    ∧ exec (.qsub c rn rd rm) s
      = .next (s.wrote rd (BitVec.ofInt 32 (clamp (m - n))) (q (decide (clamp (m - n) ≠ m - n))) 4)
    ∧ exec (.qdadd c rn rd rm) s
      = .next (s.wrote rd (BitVec.ofInt 32 (clamp (m + d))) (q (dq || decide (clamp (m + d) ≠ m + d))) 4)
    ∧ exec (.qdsub c rn rd rm) s
      = .next (s.wrote rd (BitVec.ofInt 32 (clamp (m - d))) (q (dq || decide (clamp (m - d) ≠ m - d))) 4))
  ∧ decodeArm 0xE1020051#32 = some (.qadd .al 2 0 1) ∧ decodeArm 0xE1220051#32 = some (.qsub .al 2 0 1)
  ∧ decodeArm 0xE1420051#32 = some (.qdadd .al 2 0 1) ∧ decodeArm 0xE1620051#32 = some (.qdsub .al 2 0 1)

/-- MIA, MIAPH, MIAxy, MAR, MRA with CPAR bit 0 set: the accumulator modulo 2^40, no flag (45_cp0 R572 to R576). That R15,
and one register twice in MRA, which the rules call UNPREDICTABLE, stop is the model's choice (log 48). With the rules'
example words. -/
def Obligations.AccumulatorInstructions : Prop :=
  (∀ (c : Cond) (rs rm : Reg) (s : State), condPassed c s.cpsr = true → s.thumb = false →
    s.cp15.cpar.getLsbD 0 = true →
    (rs = 15 ∨ rm = 15 → ∀ i ∈ [Instr.mia c rs 0 rm, .miaph c rs 0 rm, .miabb c rs 0 rm, .miabt c rs 0 rm,
      .miatb c rs 0 rm, .miatt c rs 0 rm, .mar c rm rs 0 0, .mra c rm rs 0 0], exec i s = .refused .r15Operand)
    ∧ (rs ≠ 15 → rm ≠ 15 →
      let acc (p : Int) : Out := .next { s with acc0 := BitVec.ofInt 40 (p + s.acc0.toNat), pc := s.pc + 4 }
      let h (t u : Bool) := signedHalf (s.reg rm) t * signedHalf (s.reg rs) u
      exec (.mia c rs 0 rm) s = acc ((s.reg rm).toInt * (s.reg rs).toInt)
      ∧ exec (.miaph c rs 0 rm) s = acc (h true true + h false false)
      ∧ exec (.miabb c rs 0 rm) s = acc (h false false)
      ∧ exec (.miabt c rs 0 rm) s = acc (h false true)
      ∧ exec (.miatb c rs 0 rm) s = acc (h true false)
      ∧ exec (.miatt c rs 0 rm) s = acc (h true true)
      ∧ exec (.mar c rm rs 0 0) s
        = .next { s with acc0 := BitVec.ofNat 40 ((s.reg rm).toNat % 256 * 2 ^ 32 + (s.reg rs).toNat), pc := s.pc + 4 }
      ∧ (rm ≠ rs → exec (.mra c rm rs 0 0) s = .next { s with
          regs := (s.regs.set (bankIndex s.mode rm) ((s.acc0.extractLsb' 32 8).signExtend 32)).set (bankIndex s.mode rs)
            (s.acc0.extractLsb' 0 32)
          pc := s.pc + 4 })
      ∧ (rm = rs → exec (.mra c rm rs 0 0) s = .refused .registerClash)))
  ∧ decodeArm 0xEE202011#32 = some (.mia .al 2 0 1) ∧ decodeArm 0xEE282011#32 = some (.miaph .al 2 0 1)
  ∧ decodeArm 0xEE2C2011#32 = some (.miabb .al 2 0 1) ∧ decodeArm 0xEE2D2011#32 = some (.miabt .al 2 0 1)
  ∧ decodeArm 0xEE2E2011#32 = some (.miatb .al 2 0 1) ∧ decodeArm 0xEE2F2011#32 = some (.miatt .al 2 0 1)
  ∧ decodeArm 0xEC410000#32 = some (.mar .al 1 0 0 0) ∧ decodeArm 0xEC510000#32 = some (.mra .al 1 0 0 0)

/-! ## Branches and exceptions -/

/-- B and BL: taken, the pc at address + 8 + 4 times the signed offset, BL linking in the current mode's R14; not
taken, the next instruction. BX, BLX(1), BLX(2): the state entered, the target, the link. The branch target buffer and
the model's own record of the step apart, nothing else changes (42_arm R461 to R465). That a target in ARM state with bit
1 set stops, and so does BLX(2) of R15, is the model's choice for what R463 and R465 call UNPREDICTABLE (log 48). With the
rules' example words. -/
def Obligations.ArmBranches : Prop :=
  (∀ (c : Cond) (imm : BitVec 24) (s : State), s.thumb = false →
    let t := s.pc + 8 + imm.signExtend 32 * 4
    let linked := s.regs.set (bankIndex s.mode 14) (s.pc + 4)
    (condPassed c s.cpsr = true →
      (∃ b x, exec (.b c imm) s = .next { s with pc := t, btb := b, scratch := x })
      ∧ (∃ b x, exec (.bl c imm) s = .next { s with regs := linked, pc := t, btb := b, scratch := x })
      ∧ exec (.blx2 c 15) s = .refused .r15Operand
      ∧ ∀ rm : Reg, let v := s.reg rm
        (v &&& 3 ≠ 2 →
          (∃ x, exec (.bx c rm) s = .next { s with
            cpsr := withT s.cpsr (v.getLsbD 0), pc := v &&& 0xFFFFFFFE, scratch := x })
          ∧ (rm ≠ 15 → ∃ x, exec (.blx2 c rm) s = .next { s with
            regs := linked, cpsr := withT s.cpsr (v.getLsbD 0), pc := v &&& 0xFFFFFFFE, scratch := x }))
        ∧ (v &&& 3 = 2 → exec (.bx c rm) s = .fault .armTargetUnaligned
          ∧ (rm ≠ 15 → exec (.blx2 c rm) s = .fault .armTargetUnaligned)))
    ∧ (condPassed c s.cpsr = false →
      (∃ b x, exec (.b c imm) s = .next { s with pc := s.pc + 4, btb := b, scratch := x })
      ∧ ∃ b x, exec (.bl c imm) s = .next { s with pc := s.pc + 4, btb := b, scratch := x })
    ∧ ∀ h : Bool, ∃ x, exec (.blx1 h imm) s = .next { s with
        regs := linked, cpsr := s.cpsr ||| 0x20, pc := t + (if h then 2 else 0), scratch := x })
  ∧ decodeArm 0xEA000002#32 = some (.b .al 2) ∧ decodeArm 0xEB00003E#32 = some (.bl .al 0x3E)
  ∧ decodeArm 0xE12FFF10#32 = some (.bx .al 0) ∧ decodeArm 0xFB00003E#32 = some (.blx1 true 0x3E)
  ∧ decodeArm 0xE12FFF30#32 = some (.blx2 .al 0)

/-- The common entry sequence of an exception (60_exceptions R682, R683): link and CPSR saved in the mode entered, ARM
state, IRQ disabled, FIQ disabled only by FIQ, the pc at the vector that Control.V places (R684); nothing else but the
step's record. -/
def Obligations.ExceptionEntry : Prop :=
  ∀ (e : Exc) (link : Word) (k : Bool) (s : State), let t := takeException e link k s
    t.mode = e.mode ∧ t.bankReg e.mode 14 = link ∧ t.spsr = some s.cpsr ∧ t.thumb = false ∧ bitI t.cpsr = true
      ∧ bitF t.cpsr = (bitF s.cpsr || e == .fiq) ∧ t.cpsr &&& 0xFFFFFF00 = s.cpsr &&& 0xFFFFFF00
      ∧ t.pc = (if s.cp15.control.getLsbD 13 then 0xFFFF0000 else 0x00000000) + (match e with
          | .undef => 0x04 | .swi => 0x08 | .prefetch => 0x0C | .data => 0x10 | .irq => 0x18 | .fiq => 0x1C)
      ∧ (∀ (m : BitVec 5) (r : Reg), bankIndex m r ≠ bankIndex e.mode 14 → t.bankReg m r = s.bankReg m r)
      ∧ (∀ a, t.byteAt a = s.byteAt a) ∧ t.cp15 = s.cp15 ∧ t.acc0 = s.acc0 ∧ t.dbg = s.dbg

/-- SWI in ARM and in Thumb state: Supervisor mode, the link at the next instruction, the pc at the SWI vector (42_arm
R466, 46_thumb R658). From Supervisor mode, where no mode changes, it counts as PMU event 0xD (12_state R145; log 37). That
it stops in Special Debug State, where 60_exceptions R721 leaves it unpredictable, is the model's choice (log 48). -/
def Obligations.SoftwareInterrupt : Prop :=
  (∀ (s : State),
    let out (size : Word) : State := { s with
      regs := s.regs.set (bankIndex modeSvc 14) (s.pc + size)
      spsrs := s.spsrs.set 2 s.cpsr
      cpsr := entryCpsr s.cpsr modeSvc false
      pc := s.vectorBase + 8
      scratch := { s.scratch with
        flow := .exception 2 false, dataBreak := false
        events := if s.mode = modeSvc then 0x0D :: s.scratch.events else s.scratch.events } }
    (s.thumb = false → ∀ (c : Cond) (imm : BitVec 24), condPassed c s.cpsr = true →
      (s.dbg.sds = false → exec (.swi c imm) s = .next (out 4))
      ∧ (s.dbg.sds = true → exec (.swi c imm) s = .fault .swiOrUndefInSds))
    ∧ (s.thumb = true → ∀ imm : BitVec 8,
      (s.dbg.sds = false → exec (.tSwi imm) s = .next (out 2))
      ∧ (s.dbg.sds = true → exec (.tSwi imm) s = .fault .swiOrUndefInSds)))
  ∧ decodeArm 0xEF123456#32 = some (.swi .al 0x123456) ∧ decodeThumb 0xDF12#16 = some (.tSwi 0x12)

/-- Every encoding the architecture leaves undefined, CDP, MCRR and MRRC to another coprocessor, and LDRD and STRD of an
odd register, raise the undefined-instruction exception (30_encoding R360, R361; 44_coprocessor R542, R543; 43_arm R498;
46_thumb R660). -/
def Obligations.UndefinedInstructions : Prop :=
  ∀ (s : State), s.dbg.sds = false →
    (s.thumb = false →
      (∀ r, TakesUndefined (.undefUncond r) s 4)
      ∧ ∀ c : Cond, condPassed c s.cpsr = true →
        (∀ r l, TakesUndefined (.undefMul c r l) s 4) ∧ (∀ o r l, TakesUndefined (.undefMisc c o r l) s 4)
        ∧ (∀ x r, TakesUndefined (.undefMsr c x r) s 4) ∧ (∀ r l, TakesUndefined (.undefMedia c r l) s 4)
        ∧ (∀ a b d e f g, TakesUndefined (.cdp c a b d e f g) s 4)
        ∧ (∀ a b d e f, TakesUndefined (.mcrr c a b d e f) s 4) ∧ (∀ a b d e f, TakesUndefined (.mrrc c a b d e f) s 4)
        ∧ ∀ (a : Mode3) (rd : Reg), rd.getLsbD 0 = true →
          (∀ o, TakesUndefined (.ldrdImm c a rd o) s 4) ∧ (∀ m, TakesUndefined (.ldrdReg c a rd m) s 4)
          ∧ (∀ o, TakesUndefined (.strdImm c a rd o) s 4) ∧ (∀ m, TakesUndefined (.strdReg c a rd m) s 4))
    ∧ (s.thumb = true → (∀ r, TakesUndefined (.tUndefMisc r) s 2) ∧ (∀ r, TakesUndefined (.tUndefCond r) s 2)
        ∧ (∀ o, TakesUndefined (.tUndefBlx o) s 2))

/-- BKPT, ARM and Thumb (42_arm R467, 46_thumb R659; 61_debug R751, R753): nothing while DCSR.GE = 0, else the debug
exception with MOE = 0b011 and the link at address + 4. DATA BREAKPOINTS (R758): a plain access notes one exactly when it
matches; after the instruction, with GE = 1 and outside Special Debug State, the debug exception with MOE = 0b010 and the
link at the next instruction + 4 is taken, else nothing (R758 against 43_arm R520's summary: log 54). -/
def Obligations.SoftwareAndDataBreakpoints : Prop :=
  (∀ (i : Instr) (s : State),
    ((∃ imm, i = .bkpt .al imm) ∧ s.thumb = false) ∨ ((∃ imm, i = .tBkpt imm) ∧ s.thumb = true) →
    s.dbg.sds = false →
    (s.ge = false → exec i s = .next { s with pc := s.pc + s.isize })
    ∧ (s.ge = true → ∃ t, exec i s = .next t ∧ EntersDebug 0b011 0x0C (s.pc + 4) s t))
  ∧ (∀ (n : Nat) (va v : Word) (priv : Bool) (s : State), n = 1 ∨ n = 2 ∨ n = 4 → va.toNat % n = 0 →
    s.plainMemory = true →
    let Noted (store : Bool) (t : State) : Prop :=
      t.scratch.dataBreak = true ↔ s.scratch.dataBreak = true ∨ BreakMatches s va n store
    (∃ w t, readMem n va priv s = .ok w t ∧ Noted false t) ∧ ∃ t, writeMem n va v priv s = .ok () t ∧ Noted true t)
  ∧ ∀ (s0 s : State) (ran : Bool), s.scratch.dataBreak = true → let t := s0.retire ran s
    (s.ge = true → s.dbg.sds = false → EntersDebug 0b010 0x10 (s.pc + 4) s t)
    ∧ (s.ge = false ∨ s.dbg.sds = true → t.pc = s.pc ∧ t.cpsr = s.cpsr ∧ t.regs = s.regs ∧ t.mem = s.mem)

/-- The return from an exception (40_arm R399; 61_debug R752): the CPSR takes the SPSR (its reserved bits zero, log 9),
the pc the value aligned for the restored state, Special Debug State ends; nothing else but the step's record changes.
That it stops without an SPSR, which R399 calls UNPREDICTABLE, is the model's choice (log 48). -/
def Obligations.ReturnFromException : Prop :=
  ∀ (v : Word) (s : State),
    (∀ p, s.spsr = some p → modeLegal (modeBits p) = true → modeBits p ≠ modeDbg →
      ∃ x, exceptionReturn v s = .next { s with
        cpsr := p &&& 0xF80000FF
        dbg := { s.dbg with sds := false }
        pc := if p.getLsbD 5 then v &&& 0xFFFFFFFE else v &&& 0xFFFFFFFC
        scratch := x })
    ∧ (s.spsr = none → exceptionReturn v s = .fault .noSpsr)

/-- A precise data abort (60_exceptions R712, R714): Abort mode with link address + 8, FSR with status, domain and X, FAR
the address, where they are valid for the fault; and the tables of R711 and R714: each fault's code `FS[10,3:0]`, whether
its domain field is valid, whether FAR is (the x bit of the alignment code is U17's, log 27). -/
def Obligations.PreciseDataAbort : Prop :=
  (∀ row ∈ [(FaultCode.alignment, 0b00001#5, false, true), (.extL1, 0b01100, false, true), (.extL2, 0b01110, true, true),
      (.xlatSection, 0b00101, false, true), (.xlatPage, 0b00111, true, true), (.domSection, 0b01001, true, true),
      (.domPage, 0b01011, true, true), (.permSection, 0b01101, true, true), (.permPage, 0b01111, true, true),
      (.lock, 0b10100, false, false), (.external, 0b10110, false, false), (.parity, 0b11000, false, false),
      (.instrMmu, 0b10000, false, false)],
    row.1.bits = row.2.1 ∧ row.1.domainValid = row.2.2.1 ∧ row.1.farValid = row.2.2.2)
  ∧ ∀ (f : DataFault) (k : Bool) (s : State), let t := takeDataAbort f k s
    t.mode = modeAbt ∧ t.bankReg modeAbt 14 = s.pc + 8 ∧ t.spsr = some s.cpsr ∧ t.pc = s.vectorBase + 0x10
      ∧ t.cp15.fsr.extractLsb' 0 4 = f.code.bits.extractLsb' 0 4 ∧ t.cp15.fsr.getLsbD 10 = f.code.bits.getLsbD 4
      ∧ t.cp15.fsr.getLsbD 9 = false ∧ (f.code.domainValid = true → t.cp15.fsr.extractLsb' 4 4 = f.domain)
      ∧ (f.code.farValid = true → t.cp15.far = f.mva) ∧ (∀ a, t.byteAt a = s.byteAt a)
      ∧ (∀ (m : BitVec 5) (r : Reg), bankIndex m r ≠ bankIndex modeAbt 14 → t.bankReg m r = s.bankReg m r)

/-- Control.A = 1 and a misaligned address: a word or halfword load or store, LDM in its three forms, POP, LDMIA, STM,
PUSH, STMIA, SWP, LDC and STC take the alignment data abort with FAR the MVA, and no register (the base included) or byte
of memory changes but what the abort entry writes (STM has drawn a free value); LDRD and STRD take it on address bits 2:0
= 0b100 whatever A is (20_memory R224, R226, R228; outside Special Debug State). -/
def Obligations.AlignmentAborts : Prop :=
  ∀ (s : State) (i : Instr) (n : Nat) (signed priv store : Bool) (v : Word) (a : Addr) (rn rd : Reg), s.dbg.sds = false →
    let misaligned := (n = 4 ∧ a.addr &&& 3 ≠ 0) ∨ (n = 2 ∧ a.addr.getLsbD 0 = true)
    let Aborts (counted : Bool) : Prop :=
      exec i s = .next (takeDataAbort { code := .alignment, mva := s.mvaOf a.addr, domain := 0 } counted s)
    let word := a.addr &&& 3 ≠ 0
    (LoadForm s i n signed priv a rn rd → s.alignCheckOn = true → misaligned → Aborts (rd != 15))
    ∧ (StoreForm s i n v priv a rn → s.alignCheckOn = true → misaligned → Aborts true)
    ∧ (DoubleForm s i store a rn rd → s.alignCheckOn = true → a.addr &&& 7 ≠ 0 → Aborts true)
    ∧ (DoubleForm s i store a rn rd → a.addr &&& 7 = 4 → Aborts true)
    ∧ (∀ (m : BitVec 5) (list : BitVec 16), s.alignCheckOn = true → word →
        (LoadList s i m list a rn → Aborts (!list.getLsbD 15))
        ∧ (StoreList s i m list a rn → exec i s
            = .next (takeDataAbort { code := .alignment, mva := s.mvaOf a.addr, domain := 0 } true (s.draw 1))))
    ∧ (s.alignCheckOn = true → word → s.mode ≠ modeDbg → s.thumb = false → ∀ c : Cond, condPassed c s.cpsr = true →
        (∀ (b : Mode4) (l : BitVec 15), b.rn ≠ 15 → (b.w = true → (1#1 ++ l).getLsbD b.rn.toNat = false) →
          a = s.mode4 b (regList (1#1 ++ l)).length → i = .ldm3 c b l → Aborts false)
        ∧ (∀ rm : Reg, rn ≠ 15 → rd ≠ 15 → rm ≠ 15 → rn ≠ rm → rn ≠ rd → a.addr = s.reg rn → i = .swp c rn rd rm →
          Aborts true)
        ∧ ∀ (b : Mode5) (crn cp : BitVec 4) (off : BitVec 8), cp = 14 ∨ cp = 13 → s.cpDenied cp = false →
          s.debugAccessTraps cp crn = false → b.n = false → b.p = true ∨ b.w = true ∨ b.u = true →
          (b.w = true → b.rn ≠ 15) → a = s.mode5 b off →
          (i = .ldc c b crn cp off → Aborts true)
          ∧ (i = .stc c b crn cp off → Aborts true))

/-- What the core takes before the next instruction, in the order of 60_exceptions R681 and R685: a vector trap armed at
the pc (61_debug R755); a pending imprecise abort, external or parity (60_exceptions R715, R716; in Special Debug State it
is only recorded, 61_debug R752, and so is one that was pending before that state was entered, THE MODEL'S CHOICE, log 62); an external debug break or a full trace buffer (R756); an enabled FIQ request, then an
enabled IRQ request (60_exceptions R701, R702); an instruction breakpoint at the pc (61_debug R757). The link is the next
instruction's address + 4. That no break is taken in Special Debug State with H = 0 either (R752 against R756), that the
break is reported before the full buffer, and either at once, is log 29 (D24), the method of the reset trap log 28. -/
def Obligations.PendingExceptionsTaken : Prop :=
  ∀ s : State, s.hostEvents = [] → s.inReset = false → s.power.mode = .active →
    let Takes (m : BitVec 5) (k : Fin 6) (off : Word) (f : Bool) (p : State → Prop) : Prop :=
      ∃ t, step s = .next t ∧ t.regs = s.regs.set (bankIndex m 14) (s.pc + 4) ∧ t.spsrs = s.spsrs.set k s.cpsr
        ∧ t.cpsr = entryCpsr s.cpsr m f ∧ t.pc = s.vectorBase + off ∧ t.mem = s.mem ∧ p t
    let Fsr (k : AbortKind) (t : State) : Prop := t.cp15.fsr.getLsbD 10 = true ∧ t.cp15.fsr.getLsbD 9 = false
      ∧ t.cp15.fsr.extractLsb' 0 4 = (match k with | .external => 0b0110 | .parity => 0b1000) ∧ t.pendingAbort = none
    (s.haltMode = true → s.dbg.sds = false →
      (s.pc = s.vectorBase → s.dbg.dcsr.getLsbD 16 = true →
        ∃ t, step s = .next t ∧ EntersHalt Config.resetTrapMoe (s.pc + 4) s t)
      ∧ ∀ (bit : Nat) (off : Word), (bit, off) ∈ [(17, (4 : Word)), (18, 8), (19, 0x0C), (20, 0x10), (22, 0x18), (23, 0x1C)] →
        s.ge = true → s.dbg.dcsr.getLsbD bit = true → s.pc = s.vectorBase + off →
        ∃ t, step s = .next t ∧ EntersHalt 0b101 (s.pc + 4) s t)
    ∧ (s.vectorTrap = none →
      (∀ k, s.pendingAbort = some k →
        (s.dbg.sds = false → Takes modeAbt 3 0x10 false (Fsr k))
        ∧ (s.dbg.sds = true → ∃ t, step s = .next t ∧ Fsr k t ∧ t.dbg.dcsr = s.dbg.dcsr ||| 0x20 ∧ t.pc = s.pc
            ∧ t.cpsr = s.cpsr ∧ t.regs = s.regs ∧ t.mem = s.mem))
      ∧ (s.pendingAbort = none →
        let may := s.ge = true ∧ s.dbg.sds = false ∧ (s.haltMode = false → s.mode ≠ modeAbt)
        let brk := s.dbg.extBreak = true ∨ s.dbg.tbFull = true
        (may → brk →
          ∃ t, step s = .next t ∧ EntersDebug (if s.dbg.extBreak then 0b100 else 0b110) 0x10 (s.pc + 4) s t)
        ∧ (¬(may ∧ brk) → s.dbg.sds = false →
          (s.fiqInternal = true → bitF s.cpsr = false → Takes modeFiq 0 0x1C true fun t => t.cp15 = s.cp15)
          ∧ ((s.fiqInternal && !bitF s.cpsr) = false →
            (s.irqInternal = true → bitI s.cpsr = false → Takes modeIrq 1 0x18 false fun t => t.cp15 = s.cp15)
            ∧ ((s.irqInternal && !bitI s.cpsr) = false → s.ge = true →
              (∃ r ∈ [s.cp15.ibcr0, s.cp15.ibcr1], r.getLsbD 0 = true
                ∧ (s.thumb = true → r.extractLsb' 1 31 = (s.mvaOf s.pc).extractLsb' 1 31)
                ∧ (s.thumb = false → r.extractLsb' 2 30 = (s.mvaOf s.pc).extractLsb' 2 30)) →
              ∃ t, step s = .next t ∧ EntersDebug 0b001 0x0C (s.pc + 4) s t)))))

/-- A fetch that aborts takes an exception instead of an instruction, none of which is executed: the prefetch abort, with
link address + 4 and FSR's status and X from the fault's code (60_exceptions R710, R711); but after a multi-bit ECC error on
the fetch's table walk the precise data abort, with link address + 8 and FAR the address (21_mmu R273; 62_platform R856). After a
bus abort on the walk it is one of the two, the data abort of 62_platform R854 or the prefetch abort R273 points to, whichever
the free constant says (THE MODEL'S CHOICE, log 27). Any other fault of the translation is an instruction MMU abort (R711). -/
def Obligations.FetchAbortsTaken : Prop :=
  ∀ (s s1 : State) (f : DataFault), s.quiet = true → s.dbg.sds = false →
    fetch { s with scratch := .empty } = .abort f s1 →
    let Takes (off link : Word) (p : State → Prop) : Prop :=
      ∃ t, step s = .next t ∧ t.regs = s.regs.set (bankIndex modeAbt 14) link ∧ t.spsrs = s.spsrs.set 3 s.cpsr
        ∧ t.cpsr = entryCpsr s.cpsr modeAbt false ∧ t.pc = s.vectorBase + off
        ∧ t.cp15.fsr.extractLsb' 0 4 = f.code.bits.extractLsb' 0 4 ∧ t.cp15.fsr.getLsbD 10 = f.code.bits.getLsbD 4 ∧ p t
    (f.fetchIsData = false → Takes 0x0C (s.pc + 4) fun _ => True)
    ∧ (f.fetchIsData = true → Takes 0x10 (s.pc + 8) fun t => f.code.farValid = true → t.cp15.far = f.mva)
    ∧ ∀ (g : DataFault) (t : State), translate true s.fetchAddress false s.priv { s with scratch := .empty } = .abort g t →
        s1 = t ∧ (g.ecc = true → f = g)
        ∧ (g.ecc = false → g.code = .extL1 ∨ g.code = .extL2 → f = g ∨ f = { code := .instrMmu, mva := s.fetchAddress, domain := 0 })
        ∧ (g.ecc = false → g.code ≠ .extL1 → g.code ≠ .extL2 → f = { code := .instrMmu, mva := s.fetchAddress, domain := 0 })

/-! ## Addressing and memory -/

/-- Addresses: modes 2 and 3 (43_arm R481, R482), mode 4 for `n` registers (R500), mode 5 (44_coprocessor R540): the
address used and what is written back; and the process ID, which gives an address whose bits 31:25 are zero its own
(11_state R123). -/
def Obligations.AddressComputation : Prop :=
  ∀ (s : State) (o : Word) (rn : Reg) (u w : Bool), let b := s.reg rn
    let k := if u then b + o else b - o
    (s.mode2 ⟨.offset, u, rn⟩ o = ⟨k, none⟩ ∧ s.mode2 ⟨.pre, u, rn⟩ o = ⟨k, some k⟩
      ∧ s.mode2 ⟨.post, u, rn⟩ o = ⟨b, some k⟩)
    ∧ (s.mode3 ⟨true, u, false, rn⟩ o = ⟨k, none⟩ ∧ s.mode3 ⟨true, u, true, rn⟩ o = ⟨k, some k⟩
      ∧ s.mode3 ⟨false, u, false, rn⟩ o = ⟨b, some k⟩)
    ∧ (∀ n : Nat, let z := BitVec.ofNat 32 (4 * n)
      let out (start back : Word) : Addr := ⟨start, if w then some back else none⟩
      s.mode4 ⟨false, true, w, rn⟩ n = out b (b + z) ∧ s.mode4 ⟨true, true, w, rn⟩ n = out (b + 4) (b + z)
      ∧ s.mode4 ⟨false, false, w, rn⟩ n = out (b - z + 4) (b - z)
      ∧ s.mode4 ⟨true, false, w, rn⟩ n = out (b - z) (b - z))
    ∧ (∀ off : BitVec 8, let z := off.setWidth 32 * 4
      let m := if u then b + z else b - z
      s.mode5 ⟨true, u, false, false, rn⟩ off = ⟨m, none⟩ ∧ s.mode5 ⟨true, u, false, true, rn⟩ off = ⟨m, some m⟩
      ∧ s.mode5 ⟨false, u, false, true, rn⟩ off = ⟨b, some m⟩ ∧ s.mode5 ⟨false, true, false, false, rn⟩ off = ⟨b, none⟩)
    ∧ (o.toNat < 2 ^ 25 → (s.mvaOf o).toNat = (s.cp15.pid.toNat / 2 ^ 25) * 2 ^ 25 + o.toNat)
    ∧ (2 ^ 25 ≤ o.toNat → s.mvaOf o = o)

/-- Without MMU, data cache, aborts and debug, an aligned read answers the bytes of external memory at the MVA in the
byte order of Control.B, and a word read with A = 0 those of the aligned word (20_memory R221, R225; 21_mmu R282): memory as it is
when other masters have written what they write before the request (62_platform R875), `o`, which changes nothing but memory.
Only the step's record changes besides. -/
def Obligations.PlainReads : Prop :=
  ∀ (s : State) (va : Word) (priv : Bool), s.plainBus = true →
    let o := s.othersWrite
    (∃ x, readMem 1 va priv s = .ok (BitVec.ofNat 32 (o.byteAt (s.mvaOf va)).toNat) { o with scratch := x })
    ∧ (va.getLsbD 0 = false → ∃ x, readMem 2 va priv s
        = .ok (BitVec.ofNat 32 (assemble s.bigEndian (o.bytesAt (s.mvaOf va) 2))) { o with scratch := x })
    ∧ (va &&& 3 = 0 ∨ s.alignCheckOn = false → ∃ x, readMem 4 va priv s
        = .ok (BitVec.ofNat 32 (assemble s.bigEndian (o.bytesAt (s.mvaOf (va &&& 0xFFFFFFFC)) 4))) { o with scratch := x })
    ∧ (s.board.between = [] → o = s) ∧ SameCore s o
    ∧ ∀ (w : Word × Byte) (ws : List (Word × Byte)) (rest : List (List (Word × Byte))), memWf s.mem = true →
        s.scratch.lock = .free → s.board.between = (ws ++ [w]) :: rest → o.byteAt w.1 = w.2 ∧ o.board.between = rest
          ∧ ∀ a : Word, s.othersMayWrite a = false → o.byteAt a = s.byteAt a

/-- Without MMU, data cache, aborts and debug, a store of `n` = 1, 2 or 4 bytes writes its own bytes and no other, in
the byte order of Control.B, and reading them back gives the value (20_memory R221, R225); little-endian, the byte at
the lowest address is the least significant; big-endian, the most significant. -/
def Obligations.PlainStoreThenLoad : Prop :=
  (∀ (n : Nat) (s : State) (va v : Word) (priv : Bool), n = 1 ∨ n = 2 ∨ n = 4 → va.toNat % n = 0 →
    s.plainMemory = true → memWf s.mem = true →
    ∃ t, writeMem n va v priv s = .ok () t
      ∧ (∃ x, readMem n va priv t = .ok (BitVec.ofNat 32 (v.toNat % 256 ^ n)) { t with scratch := x })
      ∧ t.bytesAt (s.mvaOf va) n = disassemble s.bigEndian n v.toNat
      ∧ (∀ a : Word, n ≤ (a - s.mvaOf va).toNat → t.byteAt a = s.byteAt a)
      ∧ SameCore s t)
  ∧ ∀ b0 b1 b2 b3 : Byte,
    BitVec.ofNat 32 (assemble false [b0, b1, b2, b3]) = b3 ++ b2 ++ b1 ++ b0
    ∧ BitVec.ofNat 32 (assemble true [b0, b1, b2, b3]) = b0 ++ b1 ++ b2 ++ b3
    ∧ BitVec.ofNat 16 (assemble false [b0, b1]) = b1 ++ b0 ∧ BitVec.ofNat 16 (assemble true [b0, b1]) = b0 ++ b1

/-- THE FRAME OF A STORE: a store of one register, ARM or Thumb, whose address translates to `x`, not to a cached line
and not to be allocated, in a region without ECC, changes no byte of memory outside the bytes from `x.pa` up; and when
the board does not abort the request, which is of a whole word where the store leaves through the write buffer (62_platform
R873), those bytes are the value's in the byte order of Control.B. Bytes that another master writes before one of the
instruction's requests (R875) are left out of the frame. -/
def Obligations.StoreFrame : Prop :=
  ∀ (n : Nat) (i : Instr) (v : Word) (priv : Bool) (a : Addr) (rn : Reg) (s s1 s2 t : State) (va : Word) (x : Xlat),
    StoreForm s i n v priv a rn → alignData n a.addr s = .ok va s1 →
    translate false (s1.mvaOf va) true priv s1 = .ok x s2 → s2.findData (s2.mvaOf va) = none →
    (s2.cacheable x && s2.writeAllocate x) = false → x.p = false → memWf s.mem = true → exec i s = .next t →
    (∀ pa : Word, s.othersMayWrite pa = false → n ≤ (pa - x.pa).toNat → t.byteAt pa = s.byteAt pa)
    ∧ (let r := writeSpan x.buffered x.pa n
       s2.busAborts true r.1 r.2 = false → t.bytesAt x.pa n = disassemble s2.bigEndian n v.toNat)

/-- THE FRAME OF EVERYTHING ELSE: an instruction that is no store leaves every byte of memory as it was, when no data
cache line is dirty (a load may write a dirty victim back), but for the bytes that another master writes before one of the
instruction's requests (62_platform R875). -/
def Obligations.OnlyStoresChangeMemory : Prop :=
  ∀ (i : Instr) (s t : State), storesData i = false → s.noDirtyLine = true → memWf s.mem = true → exec i s = .next t →
    ∀ a : Word, s.othersMayWrite a = false → t.byteAt a = s.byteAt a

/-- The table walk (21_mmu R262 to R265, R267, R270, R275): with the MMU on and no TLB entry for the MVA, the word at
TTBR[31:14] : MVA[31:20] : 00; a section, or a coarse or fine second-level table with its large, small, extended small and
tiny pages: the physical address, X, C, B, P and the AP field; descriptors 00 are translation faults. A manager domain lets
every access pass, a client those its AP field permits (O40 says which); else the domain or permission fault, with the MVA
and the domain. Memory is unchanged, and after a descriptor that maps the MVA the TLB holds an entry for it. -/
def Obligations.TableWalkTranslation : Prop :=
  ∀ (instr write priv : Bool) (mva : Word) (s : State), s.mmuOn = true →
    ((s.tlb instr).entries.filter fun e => e.hits mva) = [] → s.board.abortRegions = [] → s.board.between = [] →
    s.cp15.auxControl.getLsbD 1 = false →
    let word (a : Word) : Word := BitVec.ofNat 32 (assemble s.bigEndian (s.bytesAt a 4))
    let l1 := word ((s.cp15.ttbr &&& 0xFFFFC000) ||| ((mva >>> 20) <<< 2))
    let dom := l1.extractLsb' 5 4
    let d := (s.cp15.dacr >>> (2 * dom.toNat)).extractLsb' 0 2
    let Aborts (c : FaultCode) (domain : BitVec 4) : Prop := ∃ t,
      translate instr mva write priv s = .abort { code := c, mva := mva, domain := domain } t ∧ t.mem = s.mem
    let Maps (desc offset : Word) (ap : BitVec 2) (x : Bool) (domCode permCode : FaultCode) : Prop :=
      let ok := permitted ap (s.cp15.control.getLsbD 8) (s.cp15.control.getLsbD 9) write priv
      (d = 0b11 ∨ (d = 0b01 ∧ ok = some true) → ∃ t, translate instr mva write priv s
          = .ok { pa := (desc &&& ~~~offset) ||| (mva &&& offset), x := x, c := desc.getLsbD 3, b := desc.getLsbD 2,
                  p := l1.getLsbD 9 } t
        ∧ t.mem = s.mem ∧ t.cp15 = s.cp15 ∧ ((t.tlb instr).entries.any fun e => e.hits mva) = true)
      ∧ (d = 0b01 → ok = some false → Aborts permCode dom)
      ∧ (d = 0b00 ∨ d = 0b10 → Aborts domCode dom)
    let Page (l2 : Word) (coarse : Bool) : Prop :=
      (l2.extractLsb' 0 2 = 0b00 → Aborts .xlatPage dom)
      ∧ (l2.extractLsb' 0 2 = 0b01 →
          Maps l2 0x0000FFFF (l2.extractLsb' (4 + 2 * (mva.extractLsb' 14 2).toNat) 2) (l2.getLsbD 12) .domPage .permPage)
      ∧ (l2.extractLsb' 0 2 = 0b10 →
          Maps l2 0x00000FFF (l2.extractLsb' (4 + 2 * (mva.extractLsb' 10 2).toNat) 2) false .domPage .permPage)
      ∧ (l2.extractLsb' 0 2 = 0b11 →
          Maps l2 (if coarse then 0x00000FFF else 0x000003FF) (l2.extractLsb' 4 2) (l2.getLsbD 6) .domPage .permPage)
    (l1.extractLsb' 0 2 = 0b00 → Aborts .xlatSection 0)
    ∧ (l1.extractLsb' 0 2 = 0b10 →
        Maps l1 0x000FFFFF (l1.extractLsb' 10 2) (l1.getLsbD 12) .domSection .permSection)
    ∧ (l1.extractLsb' 0 2 = 0b01 → Page (word ((l1 &&& 0xFFFFFC00) ||| ((mva.extractLsb' 12 8).setWidth 32 <<< 2))) true)
    ∧ (l1.extractLsb' 0 2 = 0b11 → Page (word ((l1 &&& 0xFFFFF000) ||| ((mva.extractLsb' 10 10).setWidth 32 <<< 2))) false)

/-- The access check (21_mmu R275, R277): a domain without access faults, a manager is not checked, a client is checked
against AP: User never writes AP = 10 and never touches AP = 01; AP = 11 is open; a privileged access passes both; AP = 00
is governed by Control.S and R, and that S = R = 1, which R277 calls unpredictable, stops is the model's choice (log 48).
-/
def Obligations.AccessPermissions : Prop :=
  ∀ (e : TlbEntry) (mva : Word) (w : Bool) (s : State),
    let d := (s.cp15.dacr >>> (2 * e.domain.toNat)).extractLsb' 0 2
    let Aborts (p : Bool) (c : FaultCode) := checkAccess e mva w p s = .abort { code := c, mva := mva, domain := e.domain } s
    let perm : FaultCode := if e.size = .sect then .permSection else .permPage
    (d = 0b11 → ∀ p, checkAccess e mva w p s = .ok () s)
    ∧ (d = 0b00 ∨ d = 0b10 → ∀ p, Aborts p (if e.size = .sect then .domSection else .domPage))
    ∧ (d = 0b01 →
        (e.apAt mva = 0b11 → ∀ p, checkAccess e mva w p s = .ok () s)
        ∧ (e.apAt mva = 0b10 → checkAccess e mva w true s = .ok () s
            ∧ (w = true → Aborts false perm) ∧ (w = false → checkAccess e mva w false s = .ok () s))
        ∧ (e.apAt mva = 0b01 → checkAccess e mva w true s = .ok () s ∧ Aborts false perm)
        ∧ (e.apAt mva = 0b00 →
            (s.cp15.control.getLsbD 8 = false → s.cp15.control.getLsbD 9 = false → ∀ p, Aborts p perm)
            ∧ (s.cp15.control.getLsbD 8 = true → s.cp15.control.getLsbD 9 = false →
                Aborts false perm ∧ (w = true → Aborts true perm) ∧ (w = false → checkAccess e mva w true s = .ok () s))
            ∧ (s.cp15.control.getLsbD 8 = false → s.cp15.control.getLsbD 9 = true → ∀ p,
                (w = true → Aborts p perm) ∧ (w = false → checkAccess e mva w p s = .ok () s))
            ∧ (s.cp15.control.getLsbD 8 = true → s.cp15.control.getLsbD 9 = true → ∀ p,
                checkAccess e mva w p s = .fault .reservedPermission)))

/-- The TLB functions and the instruction cache functions of CP15 (11_state_cp15 R94, R96, R111, R117; 21_mmu R293 to R297,
R305 to R308, R332): which MCR makes which, and what each does. Locked TLB entries survive the invalidation of all, none
survives unlocking as locked (the pointer's reset is D12, log 21); the lock function places a walk's entry at the lock
pointer, or with an abort of the walk or of the access check (as a read, log 55) takes the Lock Abort (60_exceptions R713) and
makes no entry, or with the MVA already resident does nothing (R299; log 56). Invalidating the instruction cache leaves no
unlocked line valid, empties the BTB and, when no data cache holds unwritten data, ends the state in which changed code may
still be fetched (20_memory R246; log 58); the fetch-and-lock function brings a line in. What a disabled unit's lock functions
do is undefined (R110, R117): that they stop is log 48. -/
def Obligations.TlbAndInstructionCacheFunctions : Prop :=
  (∀ (t : Tlb) (mva : Word) (e : TlbEntry),
    (∀ e ∈ t.entries, e.locked = true → e ∈ t.invalidate.entries)
    ∧ (∀ e ∈ t.invalidate.entries, e.valid = true → e.locked = true)
    ∧ (∀ e ∈ (t.invalidateEntry mva).entries, e.hits mva = false)
    ∧ (∀ e ∈ t.entries, e.hits mva = false → e ∈ (t.invalidateEntry mva).entries)
    ∧ (∀ e ∈ t.entries, { e with locked := false } ∈ t.unlock.entries) ∧ t.unlock.lock = 0
    ∧ (t.lock ≠ 31 → (t.fillLocked e).lock = t.lock + 1 ∧ (t.fillLocked e).rr = 31
        ∧ { e with index := t.lock, valid := true, locked := true } ∈ (t.fillLocked e).entries)
    ∧ (t.lock = 31 → (t.fillLocked e).lock = 31 ∧ (t.fillLocked e).rr = 31
        ∧ { e with index := 31, valid := true, locked := false } ∈ (t.fillLocked e).entries))
  ∧ ∀ (v : Word) (s : State), s.thumb = false → s.mode ≠ modeUsr →
    let Fn (crn crm : BitVec 4) (op2 : BitVec 3) (t : State) : Prop := Cp15Function crn crm op2 v s t
    let Stops (crn crm : BitVec 4) (op2 : BitVec 3) (f : Fault) : Prop := ∀ (c : Cond) (op1 : BitVec 3) (rd : Reg),
      condPassed c s.cpsr = true → exec (.mcr c op1 crn rd 15 op2 crm) s = .fault f
    (Fn 8 7 0 { s with itlb := s.itlb.invalidate, dtlb := s.dtlb.invalidate }
      ∧ Fn 8 5 0 { s with itlb := s.itlb.invalidate } ∧ Fn 8 6 0 { s with dtlb := s.dtlb.invalidate }
      ∧ Fn 8 5 1 { s with itlb := s.itlb.invalidateEntry v } ∧ Fn 8 6 1 { s with dtlb := s.dtlb.invalidateEntry v })
    ∧ (s.mmuOn = true → Fn 10 4 1 { s with itlb := s.itlb.unlock } ∧ Fn 10 8 1 { s with dtlb := s.dtlb.unlock }
      ∧ (let LockAborts (crm : BitVec 4) (f : DataFault) (t : State) : Prop := t.dbg.sds = false →
          ∀ (c : Cond) (op1 : BitVec 3) (rd : Reg), condPassed c s.cpsr = true → s.reg rd = v →
            exec (.mcr c op1 10 rd 15 0 crm) s = .next (takeDataAbort { f with code := .lock } true t)
         let Locks (resident : Bool) (crm : BitVec 4) (filled : TlbEntry → State → State) : Prop :=
           (resident = true → Fn 10 crm 0 s)
           ∧ (resident = false →
              (∀ f t, walk v s = .abort f t → LockAborts crm f t)
              ∧ ∀ e t, walk v s = .ok e t →
                (∀ u, checkAccess e v false true t = .ok () u → u = t ∧ Fn 10 crm 0 (filled e t))
                ∧ ∀ f u, checkAccess e v false true t = .abort f u → u = t ∧ LockAborts crm f t)
         Locks (s.itlb.entries.any fun k => k.hits v) 4 (fun e t => { t with itlb := t.itlb.fillLocked e })
         ∧ Locks (s.dtlb.entries.any fun k => k.hits v) 8 (fun e t => { t with dtlb := t.dtlb.fillLocked e })))
    ∧ (s.mmuOn = false → Stops 10 4 0 .tlbLockMmuOff ∧ Stops 10 4 1 .tlbLockMmuOff ∧ Stops 10 8 0 .tlbLockMmuOff
      ∧ Stops 10 8 1 .tlbLockMmuOff)
    ∧ (let Emptied (t : State) : Prop := (∀ l ∈ t.icache.lines, l.valid = true → l.locked = true)
          ∧ (∀ l ∈ s.icache.lines, l.locked = true → l ∈ t.icache.lines) ∧ t.minic = s.minic ∧ t.btb = [] ∧ t.mem = s.mem
          ∧ (s.noDirtyLine = true → ∀ (a : Word) (n : Nat), t.codeChanged a n = false)
       (∃ t, Fn 7 5 0 t ∧ Emptied t ∧ t.dcache = s.dcache)
       ∧ ∃ t, Fn 7 7 0 t ∧ Emptied t ∧ (∀ l ∈ t.dcache.lines, l.valid = true → l.locked = true)
          ∧ ∀ l ∈ t.minid.lines, l.valid = true → l.locked = true)
    ∧ (∃ t, Fn 7 5 1 t ∧ (∀ l ∈ t.minic.lines, l.hits v = false)
        ∧ ((∀ l ∈ s.icache.lines, l.locked = false) → ∀ l ∈ t.icache.lines, l.hits v = false)
        ∧ ∀ l ∈ s.icache.lines, l.hits v = false → l ∈ t.icache.lines)
    ∧ Fn 7 5 6 { s with btb := [] }
    ∧ (∀ t, fetchAndLockI v s = .ok () t → Fn 9 1 0 t ∧ ∃ l, t.icache.find (v &&& 0xFFFFFFE0) = some l ∧ l.valid = true
        ∧ (l.locked = true ∨ l.way = 31))
    ∧ (s.icacheOn = true → ∃ t, Fn 9 1 1 t ∧ t.icache.lines = s.icache.lines.map fun l => { l with locked := false })
    ∧ (s.icacheOn = false → Stops 9 1 0 .icacheLockMisused ∧ Stops 9 1 1 .icacheLockMisused)

/-- The data cache and its functions (21_mmu R311 to R314, R318 to R325; 11_state_cp15 R93, R94, R111). A
store that hits a line of a write-back region stays in the line: external memory does not change, the half line becomes
dirty, a load of the same bytes delivers them; in a write-through region external memory changes too and no half becomes
dirty. A cacheable load that misses fills a line and delivers its bytes; so does a store with write allocation, whose bytes then
stand in the line, its half dirty; a store that misses without allocation changes external memory only (`Allocated` says what a
fill does; its way in lock mode is D12, log 21). Cleaning a line writes its dirty halves to external memory at the line's
physical address and nothing else, but for what another master writes before one of its requests (62_platform R875); the line
stays valid and is clean. Invalidating discards dirty data; allocating brings
a clean valid line in without reading memory, unless it is there already; the lock register and unlocking. THE MODEL'S CHOICES
here: a drain changes nothing but the step's record, since no request is left in a buffer (D10, log 19); a clean writes to the
physical address the line was filled from, and of an MVA that both data caches hold it cleans the data cache's line only (log
34); that unlocking a disabled cache, whose effect R110 calls undefined, stops is log 48. -/
def Obligations.DataCacheAndItsFunctions : Prop :=
  (∀ (x : Xlat) (mva : Word) (bs : List Byte) (l : CacheLine) (s : State), attributeFault x s = none →
    s.dcache.find mva = some l → s.writeThrough x = false → offsetOf mva + bs.length ≤ 32 →
    ∃ t, dataWrite x mva bs s = .ok () t ∧ t.mem = s.mem
      ∧ (∃ k, t.dcache.find mva = some k ∧ (if 16 ≤ offsetOf mva then k.dirtyHi = true else k.dirtyLo = true))
      ∧ ∃ u, dataRead x mva bs.length t = .ok bs u)
  ∧ (∀ (x : Xlat) (mva : Word) (n : Nat) (bs : List Byte) (s : State), attributeFault x s = none →
    s.bcu.bcuctl.getLsbD 3 = false → s.board.abortRegions = [] → s.board.between = [] → memWf s.mem = true → bs.length ≤ 32 →
    let line := s.bytesAt (x.pa &&& 0xFFFFFFE0) 32
    let off := offsetOf mva
    let Stored (t : State) : Prop := ∀ a : Word, let d := (a - x.pa).toNat
      t.byteAt a = if d < bs.length then bs.getD d 0 else s.byteAt a
    (∀ l : CacheLine, s.dcache.find mva = some l → s.writeThrough x = true → off + bs.length ≤ 32 →
      ∃ t k, dataWrite x mva bs s = .ok () t ∧ Stored t ∧ t.dcache.find mva = some k ∧ k.dirtyLo = l.dirtyLo
        ∧ k.dirtyHi = l.dirtyHi ∧ ∃ u, dataRead x mva bs.length t = .ok bs u)
    ∧ (s.findData mva = none → s.cacheable x = true → (x.toMini = true → s.cp15.dcacheLock = false) →
      (off + n ≤ 32 → ∃ t l, dataRead x mva n s = .ok ((line.drop off).take n) t ∧ Allocated s t x mva l line
        ∧ l.dirtyLo = false ∧ l.dirtyHi = false)
      ∧ (s.writeAllocate x = true → off + bs.length ≤ 32 → ∃ t l, dataWrite x mva bs s = .ok () t
        ∧ Allocated s t x mva l (line.take off ++ bs ++ line.drop (off + bs.length))
        ∧ l.dirtyLo = decide (off < 16) ∧ l.dirtyHi = decide (16 ≤ off)))
    ∧ (s.findData mva = none → (s.cacheable x && s.writeAllocate x) = false →
      ∃ t, dataWrite x mva bs s = .ok () t ∧ Stored t ∧ t.dcache = s.dcache ∧ t.minid = s.minid))
  ∧ ∀ (v : Word) (s : State), s.thumb = false → s.mode ≠ modeUsr →
    let Fn (crn crm : BitVec 4) (op2 : BitVec 3) (t : State) : Prop := Cp15Function crn crm op2 v s t
    (∀ l : CacheLine, s.dcache.find v = some l → l.bad = 0 → l.ecc = false → s.board.abortRegions = [] →
      memWf s.mem = true → ∃ t, Fn 7 10 1 t
        ∧ (∀ a : Word, s.othersMayWrite a = false → let d := (a - l.pa).toNat
            t.byteAt a = if (d < 16 ∧ l.dirtyLo = true) ∨ (16 ≤ d ∧ d < 32 ∧ l.dirtyHi = true) then l.data.getD d 0
                         else s.byteAt a)
        ∧ t.dcache.find v = some { l with dirtyLo := false, dirtyHi := false })
    ∧ (s.findData v = none → Fn 7 10 1 s)
    ∧ (∃ t, Fn 7 6 0 t ∧ t.mem = s.mem ∧ (∀ l ∈ t.dcache.lines ++ t.minid.lines, l.valid = true → l.locked = true)
        ∧ ∀ l ∈ s.dcache.lines, l.locked = true → l ∈ t.dcache.lines)
    ∧ (∃ t, Fn 7 6 1 t ∧ t.mem = s.mem ∧ (∀ l ∈ t.dcache.lines ++ t.minid.lines, l.hits v = false)
        ∧ ∀ l ∈ s.dcache.lines, l.hits v = false → l ∈ t.dcache.lines)
    ∧ (∀ (x : Xlat) (t : State), translateUnchecked (v &&& 0xFFFFFFE0) s = .ok x t →
        (t.dcache.find (v &&& 0xFFFFFFE0) ≠ none → Fn 7 2 5 t)
        ∧ (t.dcache.find (v &&& 0xFFFFFFE0) = none → t.noDirtyLine = true → ∃ u l, Fn 7 2 5 u ∧ u.mem = t.mem
            ∧ u.dcache.find (v &&& 0xFFFFFFE0) = some l ∧ l.pa = x.pa &&& 0xFFFFFFE0 ∧ l.dirtyLo = false
            ∧ l.dirtyHi = false ∧ (l.locked = true → s.cp15.dcacheLock = true)))
    ∧ (∃ x, Fn 7 10 4 { s with scratch := x })
    ∧ Fn 9 2 0 { s with cp15 := { s.cp15 with dcacheLock := v.getLsbD 0 } }
    ∧ (s.dcacheOn = true → ∃ t, Fn 9 2 1 t ∧ t.mem = s.mem
        ∧ t.dcache.lines = s.dcache.lines.map fun l => { l with locked := false })
    ∧ (s.dcacheOn = false → ∀ (c : Cond) (op1 : BitVec 3) (rd : Reg), condPassed c s.cpsr = true →
        exec (.mcr c op1 9 rd 15 1 2) s = .fault .dcacheLockDisabled)

/-! ## Loads and stores -/

/-- LDR, LDRB, LDRH, LDRSB, LDRSH, LDRT, LDRBT and the Thumb loads, in every form that may run and whose access
succeeds (43_arm R483, R484, R487, R488, R491 to R493; 46_thumb R630 to R646): the destination takes the value read,
extended or rotated; the base its write-back; the pc the next instruction, or for Rd = 15 the value read, T its bit 0
(that bits 1:0 of an ARM target are cleared is log 51, LDRSB of the PC log 53).
What the access itself may change apart (memory, caches, TLB: `s1`), nothing else changes. -/
def Obligations.LoadResults : Prop :=
  ∀ (s s1 : State) (i : Instr) (n : Nat) (signed priv : Bool) (a : Addr) (rn rd : Reg) (v : Word),
    LoadForm s i n signed priv a rn rd → readMem n a.addr priv s = .ok v s1 →
    let w := loadedValue n signed a.addr v
    SameCore s s1
    ∧ (rd ≠ 15 → exec i s = .next { s1 with
        regs := (s.regsAfterBase rn a.wb).set (bankIndex s.mode rd) w
        pc := s.pc + s.isize })
    ∧ (rd = 15 → ∃ x, exec i s = .next { s1 with
        regs := s.regsAfterBase rn a.wb
        cpsr := withT s.cpsr (w.getLsbD 0)
        pc := if w.getLsbD 0 then w &&& 0xFFFFFFFE else w &&& 0xFFFFFFFC
        scratch := x })

/-- STR, STRB, STRH, STRT, STRBT and the Thumb stores, in every form that may run and whose access succeeds (43_arm R485,
R486, R489, R490, R494; 46_thumb R631 to R645): the access stores the register's low bytes, the base takes its
write-back, the pc the next instruction; what the access changes apart, nothing else changes. -/
def Obligations.StoreResults : Prop :=
  ∀ (s s1 : State) (i : Instr) (n : Nat) (v : Word) (priv : Bool) (a : Addr) (rn : Reg),
    StoreForm s i n v priv a rn → writeMem n a.addr v priv s = .ok () s1 →
    SameCore s s1 ∧ exec i s = .next { s1 with regs := s.regsAfterBase rn a.wb, pc := s.pc + s.isize }

/-- LDRD and STRD at a doubleword address whose two word accesses (log 57) succeed (43_arm R495, R496): the even register and
the word at the address, the next register and the word above it; the base its write-back. -/
def Obligations.DoublewordTransfers : Prop :=
  ∀ (s s1 s2 : State) (i : Instr) (a : Addr) (rn rd : Reg) (lo hi : Word), a.addr &&& 7 = 0 →
    (DoubleForm s i false a rn rd → readMem 4 a.addr s.priv s = .ok lo s1 →
      readMem 4 (a.addr + 4) s.priv s1 = .ok hi s2 →
      SameCore s s2 ∧ exec i s = .next { s2 with
        regs := ((s.regsAfterBase rn a.wb).set (bankIndex s.mode rd) lo).set (bankIndex s.mode (rd + 1)) hi
        pc := s.pc + 4 })
    ∧ (DoubleForm s i true a rn rd → writeMem 4 a.addr (s.reg rd) s.priv s = .ok () s1 →
      writeMem 4 (a.addr + 4) (s.reg (rd + 1)) s.priv s1 = .ok () s2 →
      SameCore s s2 ∧ exec i s = .next { s2 with regs := s.regsAfterBase rn a.wb, pc := s.pc + 4 })

/-- LDM (1), LDM (2), POP and Thumb LDMIA whose accesses succeed (43_arm R505, R509; 46_thumb R652, R654): the registers
below R15 are loaded from ascending words, then the base takes its write-back; R15 in the list takes the word above
them, T its bit 0 (that bits 1:0 of an ARM target are cleared is log 51). LDM (3) (R510) ends with the return from the
exception instead. -/
def Obligations.BlockLoads : Prop :=
  ∀ (s s1 s2 : State) (i : Instr) (m : BitVec 5) (list : BitVec 16) (a : Addr) (rn : Reg) (v : Word),
    let based (t : State) : Vector Word 32 :=
      match a.wb with | some w => t.regs.set (bankIndex s.mode rn) w | none => t.regs
    (LoadList s i m list a rn → loadRegs m s.priv (lowList list) a.addr s = .ok () s1 →
      SameCore { s with regs := s1.regs } s1
      ∧ (list.getLsbD 15 = false → exec i s = .next { s1 with regs := based s1, pc := s.pc + s.isize })
      ∧ (list.getLsbD 15 = true →
        readMem 4 (a.addr + BitVec.ofNat 32 (4 * (lowList list).length)) s.priv s1 = .ok v s2 →
        ∃ x, exec i s = .next { s2 with
          regs := based s1
          cpsr := withT s.cpsr (v.getLsbD 0)
          pc := if v.getLsbD 0 then v &&& 0xFFFFFFFE else v &&& 0xFFFFFFFC
          scratch := x }))
    ∧ (∀ (c : Cond) (b : Mode4) (l : BitVec 15) (p : Word), i = .ldm3 c b l → s.thumb = false →
        condPassed c s.cpsr = true → s.mode ≠ modeDbg → b.rn ≠ 15 → (b.w = true → (1#1 ++ l).getLsbD b.rn.toNat = false) →
        s.spsr = some p → modeLegal (modeBits p) = true → modeBits p ≠ modeDbg → rn = b.rn →
        a = s.mode4 b (regList (1#1 ++ l)).length → loadRegs s.mode s.priv (lowList (1#1 ++ l)) a.addr s = .ok () s1 →
        readMem 4 (a.addr + BitVec.ofNat 32 (4 * (lowList (1#1 ++ l)).length)) s.priv s1 = .ok v s2 →
        ∃ x, exec i s = .next { s2 with
          regs := based s1
          cpsr := p &&& 0xF80000FF
          dbg := { s.dbg with sds := false }
          pc := if p.getLsbD 5 then v &&& 0xFFFFFFFE else v &&& 0xFFFFFFFC
          scratch := x })

/-- STM (1), STM (2), PUSH and Thumb STMIA whose accesses succeed (43_arm R506, R511; 46_thumb R651, R653): the
registers of the list, lowest first, go to ascending words; the base takes its write-back. The value stored for a base
that is written back and is not the lowest of the list is free (log 44). -/
def Obligations.BlockStores : Prop :=
  ∀ (s s1 : State) (i : Instr) (m : BitVec 5) (list : BitVec 16) (a : Addr) (rn : Reg), StoreList s i m list a rn →
    (storeWords s.priv (s.stmValues m list rn a.wb.isSome) a.addr (s.draw 1) = .ok () s1 →
      SameCore s s1 ∧ exec i s = .next { s1 with regs := s.regsAfterBase rn a.wb, pc := s.pc + s.isize })
    ∧ (s.stmValues m list rn a.wb.isSome).length = (regList list).length
    ∧ ∀ (k : Nat) (r : Reg), (regList list)[k]? = some r → (a.wb = none ∨ r ≠ rn ∨ k = 0) →
        (s.stmValues m list rn a.wb.isSome)[k]? = some (s.storedReg m r)

/-- What a block transfer moves, without MMU, data cache, aborts and debug (43_arm R500): the registers of a list in
rising order; loading, each takes the word at its place and no other register changes; storing, each word lands at its
place, in the byte order of Control.B, and no other byte changes. -/
def Obligations.BlockTransferMemory : Prop :=
  (∀ list : BitVec 16, (∀ r : Reg, r ∈ regList list ↔ list.getLsbD r.toNat = true)
      ∧ (regList list).Pairwise fun x y => x.toNat < y.toNat)
  ∧ ∀ (s : State) (m : BitVec 5) (priv : Bool) (start : Word), s.plainMemory = true → start &&& 3 = 0 →
    let at_ (k : Nat) : Word := s.mvaOf (start + BitVec.ofNat 32 (4 * k))
    (∀ rs : List Reg, rs.Nodup → 15 ∉ rs →
      ∃ g x, loadRegs m priv rs start s = .ok () { s with regs := g, scratch := x }
        ∧ (∀ (k : Nat) (r : Reg), rs[k]? = some r →
            g[bankIndex m r] = BitVec.ofNat 32 (assemble s.bigEndian (s.bytesAt (at_ k) 4)))
        ∧ ∀ j : Fin 32, (∀ r ∈ rs, bankIndex m r ≠ j) → g[j] = s.regs[j])
    ∧ (∀ vs : List Word, vs.length ≤ 16 → memWf s.mem = true →
      ∃ t, storeWords priv vs start s = .ok () t ∧ SameCore s t
        ∧ (∀ (k : Nat) (v : Word), vs[k]? = some v → t.bytesAt (at_ k) 4 = disassemble s.bigEndian 4 v.toNat)
        ∧ ∀ b : Word, (∀ k : Nat, k < vs.length → 4 ≤ (b - at_ k).toNat) → t.byteAt b = s.byteAt b)

/-- SWP and SWPB (43_arm R515, R516): the destination takes what memory held, memory the source register (its low byte
for SWPB); without MMU, data cache, aborts and debug those are external memory's own bytes. Other masters may write before the
read (`o`) and, outside the read's 32-byte block, which Lock protects, before the write (20_memory R245; 62_platform R875; that
the board honours Lock, its duty, is log 19). -/
def Obligations.SwapResults : Prop :=
  ∀ (n : Nat) (c : Cond) (rn rd rm : Reg) (i : Instr) (s : State),
    (n = 4 ∧ i = .swp c rn rd rm) ∨ (n = 1 ∧ i = .swpb c rn rd rm) →
    s.thumb = false → condPassed c s.cpsr = true → s.mode ≠ modeDbg → rn ≠ 15 → rd ≠ 15 → rm ≠ 15 → rn ≠ rm → rn ≠ rd →
    (∀ (v : Word) (s1 : State), swapMem n (s.reg rn) (s.reg rm) s = .ok v s1 →
      SameCore s s1 ∧ exec i s = .next { s1 with regs := s.regs.set (bankIndex s.mode rd) v, pc := s.pc + 4 })
    ∧ (s.plainMemory = true → memWf s.mem = true → (s.reg rn).toNat % n = 0 → let a := s.mvaOf (s.reg rn)
      ∃ s1, swapMem n (s.reg rn) (s.reg rm) s = .ok (BitVec.ofNat 32 (assemble s.bigEndian (s.bytesAt a n))) s1
        ∧ s1.bytesAt a n = disassemble s.bigEndian n (s.reg rm).toNat
        ∧ ∀ b : Word, n ≤ (b - a).toNat → s1.byteAt b = s.byteAt b)
    ∧ (s.plainBus = true → memWf s.mem = true → (s.reg rn).toNat % n = 0 → let a := s.mvaOf (s.reg rn)
      let o := (s.setLock .free).othersWrite
      ∃ s1, swapMem n (s.reg rn) (s.reg rm) s = .ok (BitVec.ofNat 32 (assemble s.bigEndian (o.bytesAt a n))) s1
        ∧ s1.bytesAt a n = disassemble s.bigEndian n (s.reg rm).toNat
        ∧ ∀ b : Word, b.toNat / 32 = a.toNat / 32 → n ≤ (b - a).toNat → s1.byteAt b = o.byteAt b)

/-- PLD never faults (43_arm R497): the pc moves past it; registers, status and coprocessor registers stay. On a 32-bit
bus with ECC the model stops (U50). -/
def Obligations.PreloadNeverFaults : Prop :=
  ∀ (u : Bool) (rn : Reg) (off : BitVec 12) (sh : ImmShift) (s : State), s.thumb = false → s.bus32 = false →
    let Ok (i : Instr) : Prop := ∃ t, exec i s = .next { t with pc := s.pc + 4 } ∧ SameCore s t
    Ok (.pldImm u rn off) ∧ (sh.rm ≠ 15 → Ok (.pldReg u rn sh))

/-! ## Coprocessors -/

/-- MCR, MRC, LDC, STC on a coprocessor that the mode may use (44_coprocessor R532, R533, R540, R541): the register's
write or read happens, MRC writes Rd or for Rd = 15 the flags from bits 31:28, LDC and STC transfer one word and write
the base back. STC reads the register, with its side effects, only when the store has passed its checks (D19, log 26); else it
takes the data abort, whatever the register. -/
def Obligations.CoprocessorTransfers : Prop :=
  ∀ (c : Cond) (op1 : BitVec 3) (crn crm cp : BitVec 4) (rd : Reg) (op2 : BitVec 3) (a : Mode5) (off : BitVec 8)
    (v : Word) (s s1 s2 s3 : State), condPassed c s.cpsr = true → s.thumb = false → s.cpDenied cp = false →
    s.debugAccessTraps cp crn = false →
    let m := s.mode5 a off
    (cp = 15 ∨ cp = 14 ∨ cp = 13 →
      (cpWrite cp crn crm op2 (s.reg rd) s = .ok () s1 →
        exec (.mcr c op1 crn rd cp op2 crm) s = .next { s1 with pc := s.pc + 4 })
      ∧ (cpRead cp crn crm op2 s = .ok v s1 →
        (rd ≠ 15 → exec (.mrc c op1 crn rd cp op2 crm) s
          = .next { s1 with regs := s.regs.set (bankIndex s.mode rd) v, pc := s.pc + 4 })
        ∧ (rd = 15 → exec (.mrc c op1 crn rd cp op2 crm) s = .next { s1 with
          cpsr := withNZCV s.cpsr (v.getLsbD 31) (v.getLsbD 30) (v.getLsbD 29) (v.getLsbD 28), pc := s.pc + 4 })))
    ∧ (cp = 14 ∨ cp = 13 → s.mode ≠ modeDbg → a.n = false → a.p = true ∨ a.w = true ∨ a.u = true →
      (a.w = true → a.rn ≠ 15) →
      (readMem 4 m.addr s.priv s = .ok v s1 → cpWrite cp crn 0 0 v s1 = .ok () s2 →
        exec (.ldc c a crn cp off) s = .next { s2 with regs := s.regsAfterBase a.rn m.wb, pc := s.pc + 4 })
      ∧ (∀ p, checkStore 4 m.addr s.priv s = .ok p s1 → cpRead cp crn 0 0 s1 = .ok v s2 → storeChecked 4 v p s2 = .ok () s3 →
        exec (.stc c a crn cp off) s = .next { s3 with regs := s.regsAfterBase a.rn m.wb, pc := s.pc + 4 })
      ∧ (∀ f, checkStore 4 m.addr s.priv s = .abort f s1 → s.dbg.sds = false →
        exec (.stc c a crn cp off) s = .next (takeDataAbort f true s1)))

/-- Coprocessor instructions that raise the undefined-instruction exception (44_coprocessor R530, R531, R540; 11_state
R130; 45_cp0 R571): a coprocessor that does not exist or does not take the instruction (log 24), 14 and 15 in User mode,
13 and the accumulator without their CPAR bit, in privileged modes too (log 15). -/
def Obligations.CoprocessorAccessTraps : Prop :=
  ∀ (c : Cond) (op1 : BitVec 3) (crn crm cp : BitVec 4) (rd rm : Reg) (op2 acc : BitVec 3) (a : Mode5) (off : BitVec 8)
    (z : BitVec 5) (s : State), condPassed c s.cpsr = true → s.thumb = false → s.dbg.sds = false →
    let Mcr := TakesUndefined (.mcr c op1 crn rd cp op2 crm) s 4
    let Mrc := TakesUndefined (.mrc c op1 crn rd cp op2 crm) s 4
    let Block := TakesUndefined (.ldc c a crn cp off) s 4 ∧ TakesUndefined (.stc c a crn cp off) s 4
    (s.mode = modeUsr → cp = 14 ∨ cp = 15 → Mcr ∧ Mrc ∧ Block)
    ∧ (cp = 13 → s.cp15.cpar.getLsbD 13 = false → Mcr ∧ Mrc ∧ Block)
    ∧ (cp ≠ 0 → cp.toNat < 13 → Mcr ∧ Mrc ∧ Block)
    ∧ (cp = 15 → Block) ∧ (cp = 0 → Mrc ∧ Block ∧ (op1 ≠ 1 → Mcr))
    ∧ (s.cp15.cpar.getLsbD 0 = false →
      (cp = 0 → Mcr) ∧ TakesUndefined (.mia c rd acc rm) s 4 ∧ TakesUndefined (.miaph c rd acc rm) s 4
      ∧ TakesUndefined (.miabb c rd acc rm) s 4 ∧ TakesUndefined (.miabt c rd acc rm) s 4
      ∧ TakesUndefined (.miatb c rd acc rm) s 4 ∧ TakesUndefined (.miatt c rd acc rm) s 4
      ∧ TakesUndefined (.mar c rd rm z acc) s 4 ∧ TakesUndefined (.mra c rd rm z acc) s 4)

/-- What each system register reads after a write (11_state R82 to R130, 12_state R142 to R175): each bit of the table
takes the written value, a bit hard-wired or read-only does not (DCSR's H and trap bits among them); the bits in `mask` are
those the table defines. PMNC's C and P reset the counters. What reading RX and TBREG takes away. And the debugger's scans of DCSR, TX and RX (61_debug
R762 to R768): what is shifted out, what the register becomes. THE MODEL'S CHOICES here: BCUCTL.TP, bit 31, reads 0, since every
request completes in its step (D10, log 19; 62_platform R850 says so of such a model); a write of a read-only register, RX among
them, is ignored (log 33). A write of TX with RR set is dropped on an A-step only, with TR (R816; the stepping is free, log 47).
That a write of TX is dropped while TR is set is D26, that hold_rst has no effect until the next
RESET# D25, and that a DBGRX scan flushes first D30 (log 30); that a break scanned in with GE = 0 is dropped is D24 (log 29). -/
def Obligations.SystemRegistersAndScans : Prop :=
  (∀ (v : Word) (s : State),
    let Holds (cp crn crm : BitVec 4) (op2 : BitVec 3) (mask want : Word) : Prop :=
      ∃ t, cpWrite cp crn crm op2 v s = .ok () t ∧ t.regs = s.regs ∧ t.cpsr = s.cpsr ∧ t.mem = s.mem
        ∧ ∃ x u, cpRead cp crn crm op2 t = .ok x u ∧ x &&& mask = want
    Holds 15 0 0 0 0xFFFFFFF0 0x69052000 ∧ Holds 15 0 0 1 0xFFFFFFFF 0x0B1AA1AA
    ∧ Holds 15 1 0 0 0x00003FFF ((v &&& 0x00003B87) ||| 0x78)
    ∧ (s.minid.lines = [] → Holds 15 1 0 1 0x00000033 (v &&& 0x33))
    ∧ Holds 15 2 0 0 0xFFFFC000 (v &&& 0xFFFFC000) ∧ Holds 15 3 0 0 0xFFFFFFFF v
    ∧ Holds 15 5 0 0 0x000007FF (v &&& 0x6FF) ∧ Holds 15 6 0 0 0xFFFFFFFF v
    ∧ Holds 15 9 2 0 0x00000001 (v &&& 1) ∧ Holds 15 13 0 0 0xFFFFFFFF (v &&& 0xFE000000)
    ∧ (s.debugLocked = false → (v.getLsbD 0 = true → s.ge = true) →
        Holds 15 14 8 0 0xFFFFFFFF v ∧ Holds 15 14 9 0 0xFFFFFFFF v)
    ∧ (s.debugLocked = false → Holds 15 14 0 0 0xFFFFFFFF v ∧ Holds 15 14 3 0 0xFFFFFFFF v
        ∧ Holds 15 14 4 0 0xFFFFFFFF (v &&& 0x10F)
        ∧ Holds 14 10 0 0 0xC0DF003F ((v &&& 0x8000003F) ||| (s.dbg.dcsr &&& 0x40DF0000)))
    ∧ (v &&& 0x1FFE = 0 → Holds 15 15 1 0 0x0000FFFF (v &&& 0x2001))
    ∧ Holds 14 0 0 0 0x0FFFF779 ((v &&& 0x0FFFF079) ||| (s.pmu.pmnc &&& 0x700 &&& ~~~v &&& 0x700))
    ∧ (∃ t, cpWrite 14 0 0 0 v s = .ok () t ∧ t.pmu.ccnt = (if v.getLsbD 2 then 0 else s.pmu.ccnt)
        ∧ t.pmu.pmn0 = (if v.getLsbD 1 then 0 else s.pmu.pmn0) ∧ t.pmu.pmn1 = (if v.getLsbD 1 then 0 else s.pmu.pmn1))
    ∧ Holds 14 1 0 0 0xFFFFFFFF v ∧ Holds 14 2 0 0 0xFFFFFFFF v ∧ Holds 14 3 0 0 0xFFFFFFFF v
    ∧ (0 < (v &&& 0xF).toNat → (v &&& 0xF).toNat < 10 → Holds 14 6 0 0 0x0000000F (v &&& 0xF))
    ∧ (v &&& 3 ≠ 2 → Holds 14 7 0 0 0x00000003 0)
    ∧ (s.dbg.txrxctrl.getLsbD 28 = true → Holds 14 8 0 0 0xFFFFFFFF s.dbg.tx)
    ∧ (s.dbg.txrxctrl.getLsbD 28 = false → s.dbg.txrxctrl.getLsbD 31 = false → Holds 14 8 0 0 0xFFFFFFFF v
        ∧ ∃ t, cpWrite 14 8 0 0 v s = .ok () t ∧ t.dbg.txrxctrl = s.dbg.txrxctrl ||| 0x10000000)
    ∧ (s.dbg.txrxctrl.getLsbD 28 = false → s.dbg.txrxctrl.getLsbD 31 = true →
        Holds 14 8 0 0 0xFFFFFFFF (if Config.stepping.isA then s.dbg.tx else v)
        ∧ ∃ t, cpWrite 14 8 0 0 v s = .ok () t
          ∧ t.dbg.txrxctrl = (if Config.stepping.isA then s.dbg.txrxctrl else s.dbg.txrxctrl ||| 0x10000000))
    ∧ Holds 14 9 0 0 0xFFFFFFFF s.dbg.rx
    ∧ (∃ t, cpRead 14 9 0 0 s = .ok s.dbg.rx t ∧ t.dbg.txrxctrl = s.dbg.txrxctrl &&& 0x7FFFFFFF)
    ∧ Holds 14 14 0 0 0xFFFFFFFF ((s.dbg.txrxctrl &&& 0xBFFFFFFF) ||| (v &&& 0x40000000))
    ∧ cpWrite 14 11 0 0 v s = .refused .tbregWrite
    ∧ (s.traceOn = false → ∃ t, cpRead 14 11 0 0 s = .ok ((s.trace.bytes.headD 0).setWidth 32) t
        ∧ t.trace.bytes = s.trace.bytes.drop 1 ++ [0])
    ∧ (s.traceOn = false → Holds 14 12 0 0 0xFFFFFFFF v ∧ Holds 14 13 0 0 0xFFFFFFFF v)
    ∧ Holds 13 0 0 0 0x0000000F (v &&& 0xF) ∧ Holds 13 8 0 0 0x00000003 (v &&& 0x3)
    ∧ Holds 13 1 1 0 0x00000001 (v &&& 1)
    ∧ Holds 13 4 0 0 0xF0000000 (BitVec.ofBool s.icu.fiqPin ++ BitVec.ofBool s.icu.irqPin ++ BitVec.ofBool s.bcuRequest
        ++ BitVec.ofBool s.pmuRequest ++ 0#28)
    ∧ (s.bcu.bcuctl.getLsbD 3 = false ∨ (v ^^^ s.bcu.bcuctl) &&& 5 = 0 →
        Holds 13 0 1 0 0xF000000D ((s.bcu.bcuctl &&& 0x70000000 &&& ~~~v) ||| (v &&& 0xD)))
    ∧ Holds 13 4 1 0 0xE00000FF (s.bcu.elog0 &&& 0xE00000FF) ∧ Holds 13 5 1 0 0xE00000FF (s.bcu.elog1 &&& 0xE00000FF)
    ∧ Holds 13 6 1 0 0xFFFFFFFF s.bcu.ecar0 ∧ Holds 13 7 1 0 0xFFFFFFFF s.bcu.ecar1
    ∧ (s.bcu.bcuctl.getLsbD 3 = false → s.bcu.dweWritten = false → Holds 13 8 1 0 0x000000FF (v &&& 0xFF)))
  ∧ ∀ (din : BitVec 36) (s : State),
    let img : Word := din.extractLsb' 3 32
    let c := s.dbg.txrxctrl
    let Scans (p : State → Prop) : Prop := ∃ t, applyEvent (.scanDr din) s = .next t ∧ t.regs = s.regs ∧ t.cpsr = s.cpsr
      ∧ t.pc = s.pc ∧ t.mem = s.mem ∧ t.jtag.data = img ∧ p t
    (s.jtag.ir = irSeldcsr → Scans fun t =>
      t.jtag.out.extractLsb' 3 32 &&& 0xC0DF003F = s.dbg.dcsr &&& 0xC0DF003F ∧ t.jtag.out.extractLsb' 1 2 = 0b01
      ∧ t.dbg.dcsr = (s.dbg.dcsr &&& 0xBF20FFFF) ||| (img &&& 0x40DF0000) ∧ t.jtag.holdRst = din.getLsbD 1
      ∧ t.dbg.extBreak = (s.dbg.extBreak || (din.getLsbD 2 && s.ge))
      ∧ t.inReset = (s.inReset && (s.resetPin || din.getLsbD 1))
      ∧ t.dbg.tx = s.dbg.tx ∧ t.dbg.rx = s.dbg.rx ∧ t.dbg.txrxctrl = c)
    ∧ (s.jtag.ir = irDbgtx → Scans fun t => t.jtag.out.extractLsb' 3 32 = s.dbg.tx ∧ t.jtag.out.getLsbD 0 = c.getLsbD 28
      ∧ t.dbg = { s.dbg with txrxctrl := c &&& 0xEFFFFFFF })
    ∧ (s.jtag.ir = irDbgrx → Scans fun t => t.jtag.out.getLsbD 0 = c.getLsbD 31
      ∧ t.dbg.rx = (if din.getLsbD 35 then img else s.dbg.rx)
      ∧ t.dbg.txrxctrl.getLsbD 31 = (din.getLsbD 35 || (c.getLsbD 31 && !din.getLsbD 1))
      ∧ t.dbg.txrxctrl.getLsbD 30 = (c.getLsbD 30 || (din.getLsbD 35 && c.getLsbD 31 && !din.getLsbD 1))
      ∧ t.dbg.txrxctrl.getLsbD 29 = din.getLsbD 2 ∧ t.dbg.txrxctrl.getLsbD 28 = c.getLsbD 28
      ∧ t.dbg.tx = s.dbg.tx ∧ t.dbg.dcsr = s.dbg.dcsr)

/-! ## Thumb -/

/-- The Thumb data-processing instructions (46_thumb R593 to R627, R647 to R650): result and flags; the high-register
forms and the address forms leave the flags, a write of R15 branches without a state change. -/
def Obligations.ThumbDataProcessing : Prop :=
  ∀ (rm rn rd : LowReg) (i3 : BitVec 3) (i5 : BitVec 5) (i7 : BitVec 7) (i8 : BitVec 8) (d m : Reg) (s : State),
    s.thumb = true →
    let p := s.cpsr
    let x := s.reg (lowReg rd)
    let y := s.reg (lowReg rm)
    let n := s.reg (lowReg rn)
    let cin := flagC p
    let k : Word := if cin then 1 else 0
    let b : Word := if cin then 0 else 1
    let imm (v : Nat) : Word := BitVec.ofNat 32 v
    let Logic (i : Instr) (v : Word) (c : Bool) : Prop := ThumbResult i s rd v (logicFlags p v c)
    let Flags (i : Instr) (psr : Word) : Prop := exec i s = .next { s with cpsr := psr, pc := s.pc + 2 }
    let Shift (i : Instr) (o : Shifted) : Prop := Logic i o.value o.carry
    (Shift (.tLsl1 i5 rm rd) (shiftByImm .lsl i5.toNat y cin) ∧ Shift (.tLsr1 i5 rm rd) (shiftByImm .lsr i5.toNat y cin)
      ∧ Shift (.tAsr1 i5 rm rd) (shiftByImm .asr i5.toNat y cin)
      ∧ Shift (.tLsl2 rm rd) (shiftByReg .lsl (y.toNat % 256) x cin)
      ∧ Shift (.tLsr2 rm rd) (shiftByReg .lsr (y.toNat % 256) x cin)
      ∧ Shift (.tAsr2 rm rd) (shiftByReg .asr (y.toNat % 256) x cin)
      ∧ Shift (.tRor rm rd) (shiftByReg .ror (y.toNat % 256) x cin))
    ∧ (ThumbResult (.tAdd3 rm rn rd) s rd (n + y) (addFlags p n y (n + y) false)
      ∧ ThumbResult (.tSub3 rm rn rd) s rd (n - y) (subFlags p n y (n - y) false)
      ∧ ThumbResult (.tAdd1 i3 rn rd) s rd (n + imm i3.toNat) (addFlags p n (imm i3.toNat) (n + imm i3.toNat) false)
      ∧ ThumbResult (.tSub1 i3 rn rd) s rd (n - imm i3.toNat) (subFlags p n (imm i3.toNat) (n - imm i3.toNat) false)
      ∧ ThumbResult (.tAdd2 rd i8) s rd (x + imm i8.toNat) (addFlags p x (imm i8.toNat) (x + imm i8.toNat) false)
      ∧ ThumbResult (.tSub2 rd i8) s rd (x - imm i8.toNat) (subFlags p x (imm i8.toNat) (x - imm i8.toNat) false)
      ∧ ThumbResult (.tAdc rm rd) s rd (x + y + k) (addFlags p x y (x + y + k) cin)
      ∧ ThumbResult (.tSbc rm rd) s rd (x - y - b) (subFlags p x y (x - y - b) (!cin))
      ∧ ThumbResult (.tNeg rm rd) s rd (0 - y) (subFlags p 0 y (0 - y) false)
      ∧ Flags (.tCmp1 rd i8) (subFlags p x (imm i8.toNat) (x - imm i8.toNat) false)
      ∧ Flags (.tCmp2 rm rd) (subFlags p x y (x - y) false) ∧ Flags (.tCmn rm rd) (addFlags p x y (x + y) false))
    ∧ (Logic (.tMov1 rd i8) (imm i8.toNat) cin ∧ Logic (.tAnd rm rd) (x &&& y) cin ∧ Logic (.tEor rm rd) (x ^^^ y) cin
      ∧ Logic (.tOrr rm rd) (x ||| y) cin ∧ Logic (.tBic rm rd) (x &&& ~~~y) cin ∧ Logic (.tMvn rm rd) (~~~y) cin
      ∧ Logic (.tMul rm rd) (x * y) cin ∧ Flags (.tTst rm rd) (logicFlags p (x &&& y) cin))
    ∧ (d.getLsbD 3 = true ∨ m.getLsbD 3 = true →
      (d ≠ 15 → exec (.tAdd4 d m) s = .next (s.wrote d (s.reg d + s.reg m) p 2)
        ∧ exec (.tMov3 d m) s = .next (s.wrote d (s.reg m) p 2)
        ∧ Flags (.tCmp3 d m) (subFlags p (s.reg d) (s.reg m) (s.reg d - s.reg m) false))
      ∧ (d = 15 →
        (∃ z, exec (.tAdd4 d m) s = .next { s with pc := (s.pc + 4 + s.reg m) &&& 0xFFFFFFFE, scratch := z })
        ∧ ∃ z, exec (.tMov3 d m) s = .next { s with pc := s.reg m &&& 0xFFFFFFFE, scratch := z }))
    ∧ (exec (.tAdd5 rd i8) s = .next (s.wrote (lowReg rd) (((s.pc + 4) &&& 0xFFFFFFFC) + imm (4 * i8.toNat)) p 2)
      ∧ exec (.tAdd6 rd i8) s = .next (s.wrote (lowReg rd) (s.reg 13 + imm (4 * i8.toNat)) p 2)
      ∧ exec (.tAdd7 i7) s = .next (s.wrote 13 (s.reg 13 + imm (4 * i7.toNat)) p 2)
      ∧ exec (.tSub4 i7) s = .next (s.wrote 13 (s.reg 13 - imm (4 * i7.toNat)) p 2))

/-- The Thumb branches (46_thumb R628, R629, R655 to R657): targets, links with bit 0 set, the state entered. That a target
in ARM state with bit 1 set, which the rules call UNPREDICTABLE, stops is the model's choice (log 48). -/
def Obligations.ThumbBranches : Prop :=
  ∀ (c : Cond) (i8 : BitVec 8) (i11 : BitVec 11) (i10 : BitVec 10) (m : Reg) (s : State), s.thumb = true →
    let linked := s.regs.set (bankIndex s.mode 14) ((s.pc + 2) ||| 1)
    let v := s.reg m
    let lr := s.reg 14
    (∃ b x, exec (.tB1 c i8) s = .next { s with
      pc := if condPassed c s.cpsr then s.pc + 4 + i8.signExtend 32 * 2 else s.pc + 2, btb := b, scratch := x })
    ∧ (∃ b x, exec (.tB2 i11) s = .next { s with pc := s.pc + 4 + i11.signExtend 32 * 2, btb := b, scratch := x })
    ∧ exec (.tBlFirst i11) s = .next { s with
        regs := s.regs.set (bankIndex s.mode 14) (s.pc + 4 + i11.signExtend 32 * 4096), pc := s.pc + 2 }
    ∧ (∃ x, exec (.tBl i11) s = .next { s with
        regs := linked, pc := (lr + i11.setWidth 32 * 2) &&& 0xFFFFFFFE, scratch := x })
    ∧ (∃ x, exec (.tBlx1 i10) s = .next { s with
        regs := linked, cpsr := s.cpsr &&& 0xFFFFFFDF, pc := (lr + i10.setWidth 32 * 4) &&& 0xFFFFFFFC, scratch := x })
    ∧ (v &&& 3 ≠ 2 →
      (∃ x, exec (.tBx m) s = .next { s with
        cpsr := withT s.cpsr (v.getLsbD 0), pc := v &&& 0xFFFFFFFE, scratch := x })
      ∧ (m ≠ 15 → ∃ x, exec (.tBlx2 m) s = .next { s with
        regs := linked, cpsr := withT s.cpsr (v.getLsbD 0), pc := v &&& 0xFFFFFFFE, scratch := x }))
    ∧ (v &&& 3 = 2 → exec (.tBx m) s = .fault .armTargetUnaligned
      ∧ (m ≠ 15 → exec (.tBlx2 m) s = .fault .armTargetUnaligned))

/-! ## Forms and states that stop -/

/-- The forms the manual leaves unpredictable, by instruction (93_implementation U13, U12, U15): R15 in a register field
that forbids it, a register used twice, an empty list, a reserved index, accumulator or coprocessor form, BKPT under a
condition that passes and is not AL; and a use of the SPSR in User or System mode (10_state R32), SWI in Special Debug State (60_exceptions R721),
the instructions DEBUG mode must not use (61_debug R790), MSR of T or of a mode that may not be entered (40_arm R401).
Each stops by its name: the model's choice for all of them (log 48). -/
def Obligations.UnpredictableFormsStop : Prop :=
  ∀ (c : Cond) (sb y x h : Bool) (rd rn rm rs : Reg) (sh : RegShift) (is : ImmShift) (op : RotImm) (k : BitVec 4)
    (o8 : BitVec 8) (o12 : BitVec 12) (list : BitVec 16) (i16 : BitVec 16) (a2 : Mode2) (a3 : Mode3) (a4 : Mode4)
    (a5 : Mode5) (s : State), condPassed c s.cpsr = true →
    let R (e : Refusal) (l : List Instr) : Prop := ∀ i ∈ l, exec i s = .refused e
    let F (e : Fault) (l : List Instr) : Prop := ∀ i ∈ l, exec i s = .fault e
    (15 ∈ [rd, rn, sh.rm, sh.rs] → R .r15Operand [.andRegShift c sb rn rd sh, .eorRegShift c sb rn rd sh,
      .subRegShift c sb rn rd sh, .rsbRegShift c sb rn rd sh, .addRegShift c sb rn rd sh, .adcRegShift c sb rn rd sh,
      .sbcRegShift c sb rn rd sh, .rscRegShift c sb rn rd sh, .orrRegShift c sb rn rd sh, .bicRegShift c sb rn rd sh])
    ∧ (15 ∈ [rd, sh.rm, sh.rs] → R .r15Operand [.movRegShift c sb rd sh, .mvnRegShift c sb rd sh,
      .tstRegShift c rd sh, .teqRegShift c rd sh, .cmpRegShift c rd sh, .cmnRegShift c rd sh])
    ∧ (15 ∈ [rd, rs, rm] → R .r15Operand [.mul c sb rd rs rm, .smulxy c rd rs y x rm, .smulwy c rd rs y rm,
      .qadd c rs rd rm, .qsub c rs rd rm, .qdadd c rs rd rm, .qdsub c rs rd rm])
    ∧ (15 ∈ [rd, rn, rs, rm] → R .r15Operand [.mla c sb rd rn rs rm, .umull c sb rd rn rs rm, .umlal c sb rd rn rs rm,
      .smull c sb rd rn rs rm, .smlal c sb rd rn rs rm, .smlalxy c rd rn rs y x rm, .smlaxy c rd rn rs y x rm,
      .smlawy c rd rn rs y rm])
    ∧ (15 ∉ [rd, rs, rm] → R .registerClash [.umull c sb rd rd rs rm, .umlal c sb rd rd rs rm, .smull c sb rd rd rs rm,
      .smlal c sb rd rd rs rm, .smlalxy c rd rd rs y x rm])
    ∧ (15 ∈ [rd, rm] → R .r15Operand [.clz c rd rm])
    ∧ R .r15Operand [.mrs c sb 15, .msrReg c sb k 15, .blx2 c 15, .tBlx2 15, .pldReg sb rn ⟨is.amount, is.kind, 15⟩]
    ∧ (s.spsr = none → rd ≠ 15 →
        F .noSpsr [.mrs c true rd, .msrReg c true k rd, .msrImm c true k op, .andImm c true rn 15 op])
    ∧ (¬Mode2Ok a2 rd none → rd ≠ 15 →
        ∀ i ∈ [Instr.ldrImm c a2 rd o12, .strImm c a2 rd o12, .ldrbImm c a2 rd o12, .strbImm c a2 rd o12],
          exec i s = .refused .r15Operand ∨ exec i s = .refused .registerClash)
    ∧ (¬Mode2Ok a2 rd (some is.rm) → rd ≠ 15 →
        ∀ i ∈ [Instr.ldrReg c a2 rd is, .strReg c a2 rd is, .ldrbReg c a2 rd is, .strbReg c a2 rd is],
          exec i s = .refused .r15Operand ∨ exec i s = .refused .registerClash)
    ∧ R .r15Operand [.ldrbImm c a2 15 o12, .strbImm c a2 15 o12, .ldrbReg c a2 15 is, .strbReg c a2 15 is,
      .ldrtImm c h rn 15 o12, .ldrtReg c h rn 15 is, .ldrbtImm c h rn 15 o12, .ldrbtReg c h rn 15 is,
      .strbtImm c h rn 15 o12, .strbtReg c h rn 15 is,
      .ldrhImm c a3 15 o8, .ldrhReg c a3 15 rm, .ldrshImm c a3 15 o8,
      .ldrshReg c a3 15 rm, .strhImm c a3 15 o8, .strhReg c a3 15 rm, .ldrdImm c a3 14 o8, .ldrdReg c a3 14 rm,
      .strdImm c a3 14 o8, .strdReg c a3 14 rm]
    ∧ (a3.p = false → a3.w = true → rd ≠ 15 → R .indexingReserved [.ldrhImm c a3 rd o8, .ldrhReg c a3 rd rm,
      .ldrsbImm c a3 rd o8, .ldrsbReg c a3 rd rm, .ldrshImm c a3 rd o8, .ldrshReg c a3 rd rm, .strhImm c a3 rd o8,
      .strhReg c a3 rd rm])
    ∧ (a4.rn = 15 → R .r15Operand [.ldm1 c a4 list, .stm1 c a4 list, .stm2 c a4 list])
    ∧ (a4.rn ≠ 15 → R .emptyList [.ldm1 c a4 0, .stm1 c a4 0, .stm2 c a4 0, .ldm2 c a4 0])
    ∧ (a4.rn ≠ 15 → a4.w = true → list.getLsbD a4.rn.toNat = true → R .registerClash [.ldm1 c a4 list])
    ∧ (a4.rn ≠ 15 → a4.w = true → list ≠ 0 → R .userBankWriteback [.stm2 c a4 list])
    ∧ (a4.rn ≠ 15 → a4.w = false → s.spsr = none → list ≠ 0 → F .noSpsr [.stm2 c a4 list])
    ∧ (15 ∈ [rn, rd, rm] → R .r15Operand [.swp c rn rd rm, .swpb c rn rd rm])
    ∧ (15 ∉ [rn, rd, rm] → rn = rm ∨ rn = rd → R .registerClash [.swp c rn rd rm, .swpb c rn rd rm])
    ∧ (s.cp15.cpar.getLsbD 0 = true → R .accumulatorReserved [.mia c rs 1 rm, .miaph c rs 7 rm, .miabb c rs 2 rm,
      .miabt c rs 3 rm, .miatb c rs 4 rm, .miatt c rs 5 rm, .mar c rs rm 0 6, .mra c rs rm 0 1])
    ∧ (s.cp15.cpar.getLsbD 13 = true → a5.n = true → R .ldcFormReserved [.ldc c a5 k 13 o8, .stc c a5 k 13 o8])
    ∧ (c ≠ .al → R .bkptConditional [.bkpt c i16])
    ∧ (rd.getLsbD 3 = false → rm.getLsbD 3 = false → R .bothLow [.tAdd4 rd rm, .tCmp3 rd rm, .tMov3 rd rm])
    ∧ R .r15Operand [.tCmp3 15 rm] ∧ R .emptyList [.tPush false 0, .tPop false 0, .tStmia (rm.setWidth 3) 0]
    ∧ (s.dbg.sds = true → F .swiOrUndefInSds [.swi c 0, .tSwi 0, .undefUncond 0, .tUndefCond 0])
    ∧ (s.mode = modeDbg → F .notInDebugMode [.ldm1 c ⟨sb, h, false, 0⟩ 2, .ldm2 c ⟨sb, h, false, 0⟩ 2,
      .ldm3 c ⟨sb, h, false, 0⟩ 2, .tPop false 1, .tLdmia 0 1, .swp c 0 1 2, .swpb c 0 1 2,
      .ldrImm c ⟨.offset, h, rn⟩ 15 o12, .ldrReg c ⟨.offset, h, 0⟩ 1 ⟨0, .ror, 2⟩])
    ∧ (s.mode ≠ modeUsr → k.getLsbD 0 = true → let v := rotImmValue op
      (v.getLsbD 5 = true → F .msrSetsThumb [.msrImm c false k op])
      ∧ (v.getLsbD 5 = false → modeLegal (modeBits v) = false → F .badMode [.msrImm c false k op])
      ∧ (v.getLsbD 5 = false → modeBits v = modeDbg → s.dbg.sds = false → F .debugModeWrite [.msrImm c false k op])
      ∧ (v.getLsbD 5 = false → modeBits v = modeUsr → s.dbg.sds = true → F .userModeInSds [.msrImm c false k op]))

/-! ## Units -/

/-- The counters at the end of a step (62_platform R831, 12_state R142 to R145). Unless PMNC.E is set both before and after the
instruction nothing of the unit changes (that both count is log 37, DEDUCED); else CCNT advances by some
positive number of clocks (one in 64 with PMNC.D), PMN0 and PMN1 by how often their event happened, event 0x7 being an
instruction executed; a counter that passes its top sets its overflow flag, and nothing clears a flag. The number of
clocks is free (log 37). -/
def Obligations.PerformanceCounters : Prop :=
  ∀ (s0 s : State) (ran : Bool), let p := s.pmu
    let t := (s0.retire ran s).pmu
    let Counts (ev : BitVec 8) (old new : Word) (bit : Nat) : Prop :=
      ev = 0x07 ∨ ev ∈ [(0x00 : BitVec 8), 0x03, 0x04, 0x05, 0x06, 0x0A, 0x0B, 0x0C, 0x0D, 0x10, 0x12, 0x14, 0x15, 0x16] →
      let n := if ev = 0x07 then (if ran then 1 else 0) else s.scratch.events.count ev
      new.toNat = (old.toNat + n) % 2 ^ 32
        ∧ t.pmnc.getLsbD bit = (p.pmnc.getLsbD bit || decide (2 ^ 32 ≤ old.toNat + n))
    (s0.pmu.pmnc.getLsbD 0 = false ∨ p.pmnc.getLsbD 0 = false → t = p)
    ∧ (s0.pmu.pmnc.getLsbD 0 = true → p.pmnc.getLsbD 0 = true →
    Counts (p.pmnc.extractLsb' 12 8) p.pmn0 t.pmn0 8 ∧ Counts (p.pmnc.extractLsb' 20 8) p.pmn1 t.pmn1 9
    ∧ (∃ k : Nat, 0 < k ∧ let n := if p.pmnc.getLsbD 3 then (p.prescale.toNat + k) / 64 else k;
        t.ccnt.toNat = (p.ccnt.toNat + n) % 2 ^ 32
          ∧ t.pmnc.getLsbD 10 = (p.pmnc.getLsbD 10 || decide (2 ^ 32 ≤ p.ccnt.toNat + n)))
    ∧ t.pmnc &&& 0xFFFFF8FF = p.pmnc &&& 0xFFFFF8FF)

/-- Bus aborts and ECC errors (62_platform R851, R854 to R856, R859, R872 to R874). The blocks of a line read come in rising
order, or with CWF = 1 and BCUMOD.AF = 1 from the critical one on. An aborted read delivers nothing; the blocks that arrived
before the aborted data cycle are checked, and a multi-bit error among them is reported in place of the abort. A
write, out of the write buffer or not (`u`), whose first data cycle is aborted leaves memory as it was and an imprecise
external abort pending; so does a read-modify-write whose unlocking write is aborted, its block's check bits as they were. A
checked read of one block delivers good bytes without a log, logs a single-bit error with its syndrome and corrects its data bit when BCUCTL.SC = 1,
and after a multi-bit error delivers nothing: an imprecise abort for a data load, a prefetch abort for a line fetch, a
precise data abort for a descriptor. Each error is logged, with its direction, its type and its address (all bits of an
abort's, without bits 2:0 of an ECC error's), in the first free of ELOG0/ECAR0 and ELOG1/ECAR1, else only BCUCTL.EV is
set; a log already taken stays as it is. A line read for a fetch that is cut short delivers the instruction at the pc if its data
cycle came before (21_mmu R303), puts it in a fetch buffer and nothing into the instruction cache; else it is a prefetch abort.
No other master is to write before the request (R875). -/
def Obligations.BusErrorsAreLogged : Prop :=
  ∀ (pa req : Word) (n : Nat) (u p : Bool) (bs : List Byte) (s : State), (s.eccOn p && s.bus32) = false → s.board.between = [] →
    let Logged (write : Bool) (kind : BitVec 2) (a : Word) (syn : Option (BitVec 8)) (t : State) : Prop :=
      let l0 := s.bcu.bcuctl.getLsbD 28
      let l1 := s.bcu.bcuctl.getLsbD 29
      let Entry (e : Word) : Prop := e.getLsbD 31 = write ∧ e.extractLsb' 29 2 = kind ∧ ∀ y ∈ syn, e.extractLsb' 0 8 = y
      (l0 = false → t.bcu.bcuctl = s.bcu.bcuctl ||| 0x10000000 ∧ t.bcu.ecar0 = a ∧ Entry t.bcu.elog0
        ∧ t.bcu.ecar1 = s.bcu.ecar1 ∧ t.bcu.elog1 = s.bcu.elog1)
      ∧ (l0 = true → t.bcu.ecar0 = s.bcu.ecar0 ∧ t.bcu.elog0 = s.bcu.elog0)
      ∧ (l0 = true → l1 = false → t.bcu.bcuctl = s.bcu.bcuctl ||| 0x20000000 ∧ t.bcu.ecar1 = a ∧ Entry t.bcu.elog1)
      ∧ (l0 = true → l1 = true → t.bcu.bcuctl = s.bcu.bcuctl ||| 0x40000000 ∧ t.bcu.ecar1 = s.bcu.ecar1
        ∧ t.bcu.elog1 = s.bcu.elog1)
    let Ecc (kind : BitVec 2) (y : BitVec 8) (t : State) : Prop := Logged false kind (req &&& 0xFFFFFFF8) (some y) t
    (s.busAborts false pa n = true → s.eccOn p = false ∨ (∀ b ∈ s.receivedBlocks pa req n, s.eccAt b = .good) →
        ∃ t, busRead pa req n p s = .ok .aborted t ∧ t.mem = s.mem ∧ Logged false 0b10 req none t)
    ∧ (s.busAborts false pa n = true → s.eccOn p = true → ∀ (b : Nat) (l : List Nat) (y : BitVec 8),
        s.receivedBlocks pa req n = b :: l →
        (s.eccAt b = .multi y → ∃ t, busRead pa req n p s = .ok .multiBit t ∧ t.mem = s.mem ∧ Ecc 0b01 y t)
        ∧ (s.eccAt b = .checkBit y → (∀ k ∈ l, s.eccAt k = .good) →
            ∃ t t1, busRead pa req n p s = .ok .aborted t ∧ t.mem = s.mem ∧ Ecc 0b00 y t1
              ∧ t.bcu = (t1.logAbort false req).bcu))
    ∧ (let r := writeSpan u pa bs.length
       s.eccOn p = false → bs ≠ [] → s.busAborts true r.1 (min (if s.bus32 then 4 else 8) r.2) = true →
        ∃ t, busWrite u pa bs p s = .ok () t ∧ t.mem = s.mem ∧ t.pendingAbort = some .external
          ∧ Logged true 0b10 r.1 none t)
    ∧ (s.eccOn p = true → s.bcu.ectst.getLsbD 31 = false → bs.length < 8 →
        s.busAborts true (BitVec.ofNat 32 (blockOf pa * 8)) 8 = true →
        ∃ t, busWrite u pa bs p s = .ok () t ∧ t.mem = s.mem ∧ t.board.ecc = s.board.ecc
          ∧ t.pendingAbort = some .external)
    ∧ (let line := pa &&& 0xFFFFFFE0
       let c := if s.cwfAt line && s.bcu.bcumod.getLsbD 0 then pa.toNat % 32 / 8 else 0
       s.readBlocks line (s.lineRequest pa) 32
         = [blockOf line + c % 4, blockOf line + (c + 1) % 4, blockOf line + (c + 2) % 4, blockOf line + (c + 3) % 4])
    ∧ (∀ k : Nat, 0 < k → k ≤ 4 → pa.toNat % 4 + k ≤ 4 →
        writeSpan true pa k = (pa &&& 0xFFFFFFFC, 4) ∧ writeSpan false pa k = (pa, k))
    ∧ (s.eccOn p = true → s.busAborts false pa n = false → ∀ b : Nat, blocksOf pa n = [b] →
      (s.eccAt b = .good → ∃ t, busRead pa req n p s = .ok (.data (s.bytesAt pa n)) t ∧ t.mem = s.mem ∧ t.bcu = s.bcu)
      ∧ (∀ y, s.eccAt b = .checkBit y →
          ∃ t, busRead pa req n p s = .ok (.data (s.bytesAt pa n)) t ∧ t.mem = s.mem ∧ Ecc 0b00 y t)
      ∧ (∀ (k : BitVec 6) (y : BitVec 8), s.eccAt b = .dataBit k y → memWf s.mem = true →
          ∃ t ds, busRead pa req n p s = .ok (.data ds) t ∧ t.mem = s.mem ∧ Ecc 0b00 y t
            ∧ ds = (if s.bcu.bcuctl.getLsbD 2 then (s.flipBit b k).bytesAt pa n else s.bytesAt pa n))
      ∧ (∀ y, s.eccAt b = .multi y →
          (∃ t, busRead pa req n p s = .ok .multiBit t ∧ t.mem = s.mem ∧ Ecc 0b01 y t)
          ∧ (∀ (code : FaultCode) (mva : Word) (dom : BitVec 4), n = 4 → req = pa → p = s.cp15.auxControl.getLsbD 1 →
              ∃ t, readDescriptor pa code mva dom s = .abort { code := code, mva := mva, domain := dom, ecc := true } t
                ∧ t.mem = s.mem ∧ Ecc 0b01 y t)
          ∧ (∀ (x : Xlat) (mva : Word), x.pa = pa → x.p = p → req = pa → attributeFault x s = none →
              s.findData mva = none → s.cacheable x = false →
              ∃ t ds, dataRead x mva n s = .ok ds t ∧ t.mem = s.mem ∧ t.pendingAbort = some .external ∧ Ecc 0b01 y t)))
    ∧ (∀ (x : Xlat) (a : Word), x.p = p → s.eccOn p = true → s.busAborts false (x.pa &&& 0xFFFFFFE0) 32 = false →
        req = s.lineRequest x.pa → ∀ b y, (s.readBlocks (x.pa &&& 0xFFFFFFE0) req 32).head? = some b → s.eccAt b = .multi y →
        ∃ t, fetchMiss x a s = .abort { code := .external, mva := a, domain := 0 } t ∧ t.mem = s.mem ∧ Ecc 0b01 y t)
    ∧ (∀ (x : Xlat) (a : Word), x.p = p → req = s.lineRequest x.pa → a.toNat % s.isize.toNat = 0 →
        let line := x.pa &&& 0xFFFFFFE0
        let off := offsetOf a
        let w := if s.bus32 then 4 else 8
        let Runs (q : State → Prop) : Prop := ∃ t,
          fetchMiss x a s = .ok (assemble s.bigEndian (s.bytesAt (line + BitVec.ofNat 32 off) s.isize.toNat)) t
            ∧ t.mem = s.mem ∧ t.icache = s.icache ∧ (t.fetchBufs.find a).isSome = true ∧ q t
        let Aborts (q : State → Prop) : Prop := ∃ t,
          fetchMiss x a s = .abort { code := .external, mva := a, domain := 0 } t ∧ t.mem = s.mem ∧ t.icache = s.icache ∧ q t
        (s.eccOn p = false → s.cwfAt line = false →
          (s.busAborts false line 32 = true → s.busAborts false line ((off / w + 1) * w) = false →
            Runs fun t => Logged false 0b10 req none t)
          ∧ ∀ k : Nat, k * w ≤ off → s.busAborts false (line + BitVec.ofNat 32 (k * w)) w = true →
            Aborts fun t => Logged false 0b10 req none t)
        ∧ (s.eccOn p = true → s.busAborts false line 32 = false → ∀ (b0 b1 : Nat) (l : List Nat) (y : BitVec 8),
            s.readBlocks line req 32 = b0 :: b1 :: l → s.eccAt b0 = .good → s.eccAt b1 = .multi y →
            (blockOf (line + BitVec.ofNat 32 off) = b0 → Runs fun t => Ecc 0b01 y t)
            ∧ (blockOf (line + BitVec.ofNat 32 off) ≠ b0 → Aborts fun t => Ecc 0b01 y t)))

/-- Trace messages (61_debug R781 to R785): an instruction without a branch is counted, every sixteenth writes a
roll-over byte; an exception writes 0 VVV CCCC; a branch 10x0 or 11x0 with the count, an indirect one its target's four
bytes, the highest first, before it; a checkpointed message moves the checkpoint registers. The buffer keeps its last
256 bytes. Which messages are checkpointed is open (U44, log 38). A step writes the message of its control flow when the buffer
is enabled before and after it, and no other; in fill-once mode it then asks for the full break from the 250th byte on (R786;
both log 38, DEDUCED). -/
def Obligations.TraceMessages : Prop :=
  (∀ (s0 s : State) (ran : Bool), let t := s0.retire ran s
    (s0.traceOn = true → s.traceOn = true → t.trace = s.trace.record s.scratch.flow
      ∧ (s.scratch.dataBreak = false → t.dbg = { s.dbg with
          tbFull := s.dbg.tbFull || (s.dbg.dcsr.getLsbD 1 && decide (250 ≤ (s.trace.record s.scratch.flow).written)) }))
    ∧ (s0.traceOn = false ∨ s.traceOn = false → t.trace = s.trace ∧ (s.scratch.dataBreak = false → t.dbg = s.dbg)))
  ∧ ∀ (t : Trace) (a : Word) (v : BitVec 3), t.bytes.length = 256 →
    let last (n : Nat) (u : Trace) : List Byte := u.bytes.drop (256 - n)
    (t.count ≠ 15 → t.record .seq = { t with count := t.count + 1 })
    ∧ (t.count = 15 → let u := t.record .seq;
        u.count = 0 ∧ u.bytes = t.bytes.drop 1 ++ [0xFF] ∧ u.chkpt0 = t.chkpt0)
    ∧ (let u := t.record (.exception v false);
        u.count = 0 ∧ u.bytes = t.bytes.drop 1 ++ [0#1 ++ v ++ t.count] ∧ u.chkpt0 = t.chkpt0 ∧ u.chkpt1 = t.chkpt1)
    ∧ (let u := t.record (.direct a);
        u.count = 0 ∧ u.bytes.length = 256
          ∧ ((last 1 u = [0b1000#4 ++ t.count] ∧ u.chkpt0 = t.chkpt0 ∧ u.chkpt1 = t.chkpt1)
            ∨ (last 1 u = [0b1100#4 ++ t.count] ∧ u.chkpt0 = a ∧ u.chkpt1 = t.chkpt0)))
    ∧ (let u := t.record (.indirect a);
        let target := [a.extractLsb' 24 8, a.extractLsb' 16 8, a.extractLsb' 8 8, a.extractLsb' 0 8];
        u.count = 0 ∧ u.bytes.length = 256
          ∧ ((last 5 u = target ++ [0b1001#4 ++ t.count] ∧ u.chkpt0 = t.chkpt0 ∧ u.chkpt1 = t.chkpt1)
            ∨ (last 5 u = target ++ [0b1101#4 ++ t.count] ∧ u.chkpt0 = a ∧ u.chkpt1 = t.chkpt0)))
    ∧ t.record (.exception v true) = (t.record .seq).record (.exception v false)
    ∧ t.record .debug = t

/-- Interrupt requests and low-power modes (60_exceptions R700; 62_platform R835, R858, R881 to R884): what makes FIQ and
IRQ pending; asleep nothing happens; idle ends when a pin is asserted, masked or not, and whether a request of the BCU or
of the performance monitor ends it too is open (U51, log 42), and an external debug break does not (log 42); writing PWRMODE enters them, with op1, op2 and CRm ignored
(log 23); PWRSTATUS shows them. -/
def Obligations.InterruptRequestsAndLowPower : Prop :=
  ∀ s : State, let m := s.icu.intctl
    let t := s.icu.intstr
    let bcu := s.bcu.bcuctl.getLsbD 0 && !(s.bcu.bcuctl &&& 0x70000000 == 0)
    let pmu := !((s.pmu.pmnc >>> 8) &&& (s.pmu.pmnc >>> 4) &&& 7 == 0)
    (s.fiqInternal = true ↔ (s.icu.fiqPin = true ∧ m.getLsbD 0 = true)
      ∨ (bcu = true ∧ m.getLsbD 3 = true ∧ t.getLsbD 1 = true) ∨ (pmu = true ∧ m.getLsbD 2 = true ∧ t.getLsbD 0 = true))
    ∧ (s.irqInternal = true ↔ (s.icu.irqPin = true ∧ m.getLsbD 1 = true)
      ∨ (bcu = true ∧ m.getLsbD 3 = true ∧ t.getLsbD 1 = false) ∨ (pmu = true ∧ m.getLsbD 2 = true ∧ t.getLsbD 0 = false))
    ∧ (s.hostEvents = [] → s.inReset = false →
        (s.power.mode = .sleep → step s = .next s)
        ∧ (s.power.mode = .idle → (s.icu.fiqPin || s.icu.irqPin) = true →
            step s = .next { s with power := { s.power with mode := .active } })
        ∧ (s.power.mode = .idle → (s.icu.fiqPin || s.icu.irqPin) = false →
            step s = .next (if (bcu || pmu) && Config.idleWakeInternal
              then { s with power := { s.power with mode := .active } } else s)))
    ∧ s.pwrstatus = (match s.power.mode with | .active => 0b00 | .idle => 0b01 | .sleep => 0b11)
    ∧ ∀ (c : Cond) (rd : Reg) (crm : BitVec 4) (op1 op2 : BitVec 3), condPassed c s.cpsr = true → s.thumb = false →
        s.mode ≠ modeUsr → let v := (s.reg rd).extractLsb' 0 2
        let Enters (p : PowerMode) : Prop := exec (.mcr c op1 7 rd 14 op2 crm) s
          = .next { s with power := { s.power with mode := p }, pc := s.pc + 4 }
        (v = 0 → Enters s.power.mode) ∧ (v = 1 → Enters .idle) ∧ (v = 3 → Enters .sleep)
end

