-- ==== Sys2Proof/Laws/State.lean ====
section
/-!
SUPPORT. One lemma per field per update of the state: what the named updates leave as it was.
-/

namespace Sys2Proof.Machine

@[simp] theorem State.note_regs (s : State) (ev : BitVec 8) : (s.note ev).regs = s.regs := rfl
@[simp] theorem State.note_spsrs (s : State) (ev : BitVec 8) : (s.note ev).spsrs = s.spsrs := rfl
@[simp] theorem State.note_cpsr (s : State) (ev : BitVec 8) : (s.note ev).cpsr = s.cpsr := rfl
@[simp] theorem State.note_pc (s : State) (ev : BitVec 8) : (s.note ev).pc = s.pc := rfl
@[simp] theorem State.note_acc0 (s : State) (ev : BitVec 8) : (s.note ev).acc0 = s.acc0 := rfl
@[simp] theorem State.note_mem (s : State) (ev : BitVec 8) : (s.note ev).mem = s.mem := rfl
@[simp] theorem State.note_synced (s : State) (ev : BitVec 8) : (s.note ev).synced = s.synced := rfl
@[simp] theorem State.note_overwritten (s : State) (ev : BitVec 8) : (s.note ev).overwritten = s.overwritten := rfl
@[simp] theorem State.note_cp15 (s : State) (ev : BitVec 8) : (s.note ev).cp15 = s.cp15 := rfl
@[simp] theorem State.note_itlb (s : State) (ev : BitVec 8) : (s.note ev).itlb = s.itlb := rfl
@[simp] theorem State.note_dtlb (s : State) (ev : BitVec 8) : (s.note ev).dtlb = s.dtlb := rfl
@[simp] theorem State.note_icache (s : State) (ev : BitVec 8) : (s.note ev).icache = s.icache := rfl
@[simp] theorem State.note_lockPhase (s : State) (ev : BitVec 8) : (s.note ev).lockPhase = s.lockPhase := rfl
@[simp] theorem State.note_minic (s : State) (ev : BitVec 8) : (s.note ev).minic = s.minic := rfl
@[simp] theorem State.note_fetchBufs (s : State) (ev : BitVec 8) : (s.note ev).fetchBufs = s.fetchBufs := rfl
@[simp] theorem State.note_dcache (s : State) (ev : BitVec 8) : (s.note ev).dcache = s.dcache := rfl
@[simp] theorem State.note_minid (s : State) (ev : BitVec 8) : (s.note ev).minid = s.minid := rfl
@[simp] theorem State.note_btb (s : State) (ev : BitVec 8) : (s.note ev).btb = s.btb := rfl
@[simp] theorem State.note_pmu (s : State) (ev : BitVec 8) : (s.note ev).pmu = s.pmu := rfl
@[simp] theorem State.note_power (s : State) (ev : BitVec 8) : (s.note ev).power = s.power := rfl
@[simp] theorem State.note_dbg (s : State) (ev : BitVec 8) : (s.note ev).dbg = s.dbg := rfl
@[simp] theorem State.note_trace (s : State) (ev : BitVec 8) : (s.note ev).trace = s.trace := rfl
@[simp] theorem State.note_icu (s : State) (ev : BitVec 8) : (s.note ev).icu = s.icu := rfl
@[simp] theorem State.note_bcu (s : State) (ev : BitVec 8) : (s.note ev).bcu = s.bcu := rfl
@[simp] theorem State.note_jtag (s : State) (ev : BitVec 8) : (s.note ev).jtag = s.jtag := rfl
@[simp] theorem State.note_resetPin (s : State) (ev : BitVec 8) : (s.note ev).resetPin = s.resetPin := rfl
@[simp] theorem State.note_inReset (s : State) (ev : BitVec 8) : (s.note ev).inReset = s.inReset := rfl
@[simp] theorem State.note_bus32 (s : State) (ev : BitVec 8) : (s.note ev).bus32 = s.bus32 := rfl
@[simp] theorem State.note_pendingAbort (s : State) (ev : BitVec 8) : (s.note ev).pendingAbort = s.pendingAbort := rfl
@[simp] theorem State.note_board (s : State) (ev : BitVec 8) : (s.note ev).board = s.board := rfl
@[simp] theorem State.note_freeCount (s : State) (ev : BitVec 8) : (s.note ev).freeCount = s.freeCount := rfl
@[simp] theorem State.note_hostEvents (s : State) (ev : BitVec 8) : (s.note ev).hostEvents = s.hostEvents := rfl

@[simp] theorem State.draw_regs (s : State) (n : Nat) : (s.draw n).regs = s.regs := rfl
@[simp] theorem State.draw_spsrs (s : State) (n : Nat) : (s.draw n).spsrs = s.spsrs := rfl
@[simp] theorem State.draw_cpsr (s : State) (n : Nat) : (s.draw n).cpsr = s.cpsr := rfl
@[simp] theorem State.draw_pc (s : State) (n : Nat) : (s.draw n).pc = s.pc := rfl
@[simp] theorem State.draw_acc0 (s : State) (n : Nat) : (s.draw n).acc0 = s.acc0 := rfl
@[simp] theorem State.draw_mem (s : State) (n : Nat) : (s.draw n).mem = s.mem := rfl
@[simp] theorem State.draw_synced (s : State) (n : Nat) : (s.draw n).synced = s.synced := rfl
@[simp] theorem State.draw_overwritten (s : State) (n : Nat) : (s.draw n).overwritten = s.overwritten := rfl
@[simp] theorem State.draw_cp15 (s : State) (n : Nat) : (s.draw n).cp15 = s.cp15 := rfl
@[simp] theorem State.draw_itlb (s : State) (n : Nat) : (s.draw n).itlb = s.itlb := rfl
@[simp] theorem State.draw_dtlb (s : State) (n : Nat) : (s.draw n).dtlb = s.dtlb := rfl
@[simp] theorem State.draw_icache (s : State) (n : Nat) : (s.draw n).icache = s.icache := rfl
@[simp] theorem State.draw_lockPhase (s : State) (n : Nat) : (s.draw n).lockPhase = s.lockPhase := rfl
@[simp] theorem State.draw_minic (s : State) (n : Nat) : (s.draw n).minic = s.minic := rfl
@[simp] theorem State.draw_fetchBufs (s : State) (n : Nat) : (s.draw n).fetchBufs = s.fetchBufs := rfl
@[simp] theorem State.draw_dcache (s : State) (n : Nat) : (s.draw n).dcache = s.dcache := rfl
@[simp] theorem State.draw_minid (s : State) (n : Nat) : (s.draw n).minid = s.minid := rfl
@[simp] theorem State.draw_btb (s : State) (n : Nat) : (s.draw n).btb = s.btb := rfl
@[simp] theorem State.draw_pmu (s : State) (n : Nat) : (s.draw n).pmu = s.pmu := rfl
@[simp] theorem State.draw_power (s : State) (n : Nat) : (s.draw n).power = s.power := rfl
@[simp] theorem State.draw_dbg (s : State) (n : Nat) : (s.draw n).dbg = s.dbg := rfl
@[simp] theorem State.draw_trace (s : State) (n : Nat) : (s.draw n).trace = s.trace := rfl
@[simp] theorem State.draw_icu (s : State) (n : Nat) : (s.draw n).icu = s.icu := rfl
@[simp] theorem State.draw_bcu (s : State) (n : Nat) : (s.draw n).bcu = s.bcu := rfl
@[simp] theorem State.draw_jtag (s : State) (n : Nat) : (s.draw n).jtag = s.jtag := rfl
@[simp] theorem State.draw_resetPin (s : State) (n : Nat) : (s.draw n).resetPin = s.resetPin := rfl
@[simp] theorem State.draw_inReset (s : State) (n : Nat) : (s.draw n).inReset = s.inReset := rfl
@[simp] theorem State.draw_bus32 (s : State) (n : Nat) : (s.draw n).bus32 = s.bus32 := rfl
@[simp] theorem State.draw_pendingAbort (s : State) (n : Nat) : (s.draw n).pendingAbort = s.pendingAbort := rfl
@[simp] theorem State.draw_board (s : State) (n : Nat) : (s.draw n).board = s.board := rfl
@[simp] theorem State.draw_hostEvents (s : State) (n : Nat) : (s.draw n).hostEvents = s.hostEvents := rfl
@[simp] theorem State.draw_scratch (s : State) (n : Nat) : (s.draw n).scratch = s.scratch := rfl

@[simp] theorem State.setBankReg_spsrs (s : State) (m : BitVec 5) (r : Reg) (v : Word) : (s.setBankReg m r v).spsrs = s.spsrs := rfl
@[simp] theorem State.setBankReg_cpsr (s : State) (m : BitVec 5) (r : Reg) (v : Word) : (s.setBankReg m r v).cpsr = s.cpsr := rfl
@[simp] theorem State.setBankReg_pc (s : State) (m : BitVec 5) (r : Reg) (v : Word) : (s.setBankReg m r v).pc = s.pc := rfl
@[simp] theorem State.setBankReg_acc0 (s : State) (m : BitVec 5) (r : Reg) (v : Word) : (s.setBankReg m r v).acc0 = s.acc0 := rfl
@[simp] theorem State.setBankReg_mem (s : State) (m : BitVec 5) (r : Reg) (v : Word) : (s.setBankReg m r v).mem = s.mem := rfl
@[simp] theorem State.setBankReg_synced (s : State) (m : BitVec 5) (r : Reg) (v : Word) : (s.setBankReg m r v).synced = s.synced := rfl
@[simp] theorem State.setBankReg_overwritten (s : State) (m : BitVec 5) (r : Reg) (v : Word) : (s.setBankReg m r v).overwritten = s.overwritten := rfl
@[simp] theorem State.setBankReg_cp15 (s : State) (m : BitVec 5) (r : Reg) (v : Word) : (s.setBankReg m r v).cp15 = s.cp15 := rfl
@[simp] theorem State.setBankReg_itlb (s : State) (m : BitVec 5) (r : Reg) (v : Word) : (s.setBankReg m r v).itlb = s.itlb := rfl
@[simp] theorem State.setBankReg_dtlb (s : State) (m : BitVec 5) (r : Reg) (v : Word) : (s.setBankReg m r v).dtlb = s.dtlb := rfl
@[simp] theorem State.setBankReg_icache (s : State) (m : BitVec 5) (r : Reg) (v : Word) : (s.setBankReg m r v).icache = s.icache := rfl
@[simp] theorem State.setBankReg_lockPhase (s : State) (m : BitVec 5) (r : Reg) (v : Word) : (s.setBankReg m r v).lockPhase = s.lockPhase := rfl
@[simp] theorem State.setBankReg_minic (s : State) (m : BitVec 5) (r : Reg) (v : Word) : (s.setBankReg m r v).minic = s.minic := rfl
@[simp] theorem State.setBankReg_fetchBufs (s : State) (m : BitVec 5) (r : Reg) (v : Word) : (s.setBankReg m r v).fetchBufs = s.fetchBufs := rfl
@[simp] theorem State.setBankReg_dcache (s : State) (m : BitVec 5) (r : Reg) (v : Word) : (s.setBankReg m r v).dcache = s.dcache := rfl
@[simp] theorem State.setBankReg_minid (s : State) (m : BitVec 5) (r : Reg) (v : Word) : (s.setBankReg m r v).minid = s.minid := rfl
@[simp] theorem State.setBankReg_btb (s : State) (m : BitVec 5) (r : Reg) (v : Word) : (s.setBankReg m r v).btb = s.btb := rfl
@[simp] theorem State.setBankReg_pmu (s : State) (m : BitVec 5) (r : Reg) (v : Word) : (s.setBankReg m r v).pmu = s.pmu := rfl
@[simp] theorem State.setBankReg_power (s : State) (m : BitVec 5) (r : Reg) (v : Word) : (s.setBankReg m r v).power = s.power := rfl
@[simp] theorem State.setBankReg_dbg (s : State) (m : BitVec 5) (r : Reg) (v : Word) : (s.setBankReg m r v).dbg = s.dbg := rfl
@[simp] theorem State.setBankReg_trace (s : State) (m : BitVec 5) (r : Reg) (v : Word) : (s.setBankReg m r v).trace = s.trace := rfl
@[simp] theorem State.setBankReg_icu (s : State) (m : BitVec 5) (r : Reg) (v : Word) : (s.setBankReg m r v).icu = s.icu := rfl
@[simp] theorem State.setBankReg_bcu (s : State) (m : BitVec 5) (r : Reg) (v : Word) : (s.setBankReg m r v).bcu = s.bcu := rfl
@[simp] theorem State.setBankReg_jtag (s : State) (m : BitVec 5) (r : Reg) (v : Word) : (s.setBankReg m r v).jtag = s.jtag := rfl
@[simp] theorem State.setBankReg_resetPin (s : State) (m : BitVec 5) (r : Reg) (v : Word) : (s.setBankReg m r v).resetPin = s.resetPin := rfl
@[simp] theorem State.setBankReg_inReset (s : State) (m : BitVec 5) (r : Reg) (v : Word) : (s.setBankReg m r v).inReset = s.inReset := rfl
@[simp] theorem State.setBankReg_bus32 (s : State) (m : BitVec 5) (r : Reg) (v : Word) : (s.setBankReg m r v).bus32 = s.bus32 := rfl
@[simp] theorem State.setBankReg_pendingAbort (s : State) (m : BitVec 5) (r : Reg) (v : Word) : (s.setBankReg m r v).pendingAbort = s.pendingAbort := rfl
@[simp] theorem State.setBankReg_board (s : State) (m : BitVec 5) (r : Reg) (v : Word) : (s.setBankReg m r v).board = s.board := rfl
@[simp] theorem State.setBankReg_freeCount (s : State) (m : BitVec 5) (r : Reg) (v : Word) : (s.setBankReg m r v).freeCount = s.freeCount := rfl
@[simp] theorem State.setBankReg_hostEvents (s : State) (m : BitVec 5) (r : Reg) (v : Word) : (s.setBankReg m r v).hostEvents = s.hostEvents := rfl
@[simp] theorem State.setBankReg_scratch (s : State) (m : BitVec 5) (r : Reg) (v : Word) : (s.setBankReg m r v).scratch = s.scratch := rfl

@[simp] theorem State.advance_regs (s : State) (n : Word) : (s.advance n).regs = s.regs := rfl
@[simp] theorem State.advance_spsrs (s : State) (n : Word) : (s.advance n).spsrs = s.spsrs := rfl
@[simp] theorem State.advance_cpsr (s : State) (n : Word) : (s.advance n).cpsr = s.cpsr := rfl
@[simp] theorem State.advance_acc0 (s : State) (n : Word) : (s.advance n).acc0 = s.acc0 := rfl
@[simp] theorem State.advance_mem (s : State) (n : Word) : (s.advance n).mem = s.mem := rfl
@[simp] theorem State.advance_synced (s : State) (n : Word) : (s.advance n).synced = s.synced := rfl
@[simp] theorem State.advance_overwritten (s : State) (n : Word) : (s.advance n).overwritten = s.overwritten := rfl
@[simp] theorem State.advance_cp15 (s : State) (n : Word) : (s.advance n).cp15 = s.cp15 := rfl
@[simp] theorem State.advance_itlb (s : State) (n : Word) : (s.advance n).itlb = s.itlb := rfl
@[simp] theorem State.advance_dtlb (s : State) (n : Word) : (s.advance n).dtlb = s.dtlb := rfl
@[simp] theorem State.advance_icache (s : State) (n : Word) : (s.advance n).icache = s.icache := rfl
@[simp] theorem State.advance_lockPhase (s : State) (n : Word) : (s.advance n).lockPhase = s.lockPhase := rfl
@[simp] theorem State.advance_minic (s : State) (n : Word) : (s.advance n).minic = s.minic := rfl
@[simp] theorem State.advance_fetchBufs (s : State) (n : Word) : (s.advance n).fetchBufs = s.fetchBufs := rfl
@[simp] theorem State.advance_dcache (s : State) (n : Word) : (s.advance n).dcache = s.dcache := rfl
@[simp] theorem State.advance_minid (s : State) (n : Word) : (s.advance n).minid = s.minid := rfl
@[simp] theorem State.advance_btb (s : State) (n : Word) : (s.advance n).btb = s.btb := rfl
@[simp] theorem State.advance_pmu (s : State) (n : Word) : (s.advance n).pmu = s.pmu := rfl
@[simp] theorem State.advance_power (s : State) (n : Word) : (s.advance n).power = s.power := rfl
@[simp] theorem State.advance_dbg (s : State) (n : Word) : (s.advance n).dbg = s.dbg := rfl
@[simp] theorem State.advance_trace (s : State) (n : Word) : (s.advance n).trace = s.trace := rfl
@[simp] theorem State.advance_icu (s : State) (n : Word) : (s.advance n).icu = s.icu := rfl
@[simp] theorem State.advance_bcu (s : State) (n : Word) : (s.advance n).bcu = s.bcu := rfl
@[simp] theorem State.advance_jtag (s : State) (n : Word) : (s.advance n).jtag = s.jtag := rfl
@[simp] theorem State.advance_resetPin (s : State) (n : Word) : (s.advance n).resetPin = s.resetPin := rfl
@[simp] theorem State.advance_inReset (s : State) (n : Word) : (s.advance n).inReset = s.inReset := rfl
@[simp] theorem State.advance_bus32 (s : State) (n : Word) : (s.advance n).bus32 = s.bus32 := rfl
@[simp] theorem State.advance_pendingAbort (s : State) (n : Word) : (s.advance n).pendingAbort = s.pendingAbort := rfl
@[simp] theorem State.advance_board (s : State) (n : Word) : (s.advance n).board = s.board := rfl
@[simp] theorem State.advance_freeCount (s : State) (n : Word) : (s.advance n).freeCount = s.freeCount := rfl
@[simp] theorem State.advance_hostEvents (s : State) (n : Word) : (s.advance n).hostEvents = s.hostEvents := rfl
@[simp] theorem State.advance_scratch (s : State) (n : Word) : (s.advance n).scratch = s.scratch := rfl

@[simp] theorem State.setCpsr_regs (s : State) (p : Word) : (s.setCpsr p).regs = s.regs := rfl
@[simp] theorem State.setCpsr_spsrs (s : State) (p : Word) : (s.setCpsr p).spsrs = s.spsrs := rfl
@[simp] theorem State.setCpsr_pc (s : State) (p : Word) : (s.setCpsr p).pc = s.pc := rfl
@[simp] theorem State.setCpsr_acc0 (s : State) (p : Word) : (s.setCpsr p).acc0 = s.acc0 := rfl
@[simp] theorem State.setCpsr_mem (s : State) (p : Word) : (s.setCpsr p).mem = s.mem := rfl
@[simp] theorem State.setCpsr_synced (s : State) (p : Word) : (s.setCpsr p).synced = s.synced := rfl
@[simp] theorem State.setCpsr_overwritten (s : State) (p : Word) : (s.setCpsr p).overwritten = s.overwritten := rfl
@[simp] theorem State.setCpsr_cp15 (s : State) (p : Word) : (s.setCpsr p).cp15 = s.cp15 := rfl
@[simp] theorem State.setCpsr_itlb (s : State) (p : Word) : (s.setCpsr p).itlb = s.itlb := rfl
@[simp] theorem State.setCpsr_dtlb (s : State) (p : Word) : (s.setCpsr p).dtlb = s.dtlb := rfl
@[simp] theorem State.setCpsr_icache (s : State) (p : Word) : (s.setCpsr p).icache = s.icache := rfl
@[simp] theorem State.setCpsr_lockPhase (s : State) (p : Word) : (s.setCpsr p).lockPhase = s.lockPhase := rfl
@[simp] theorem State.setCpsr_minic (s : State) (p : Word) : (s.setCpsr p).minic = s.minic := rfl
@[simp] theorem State.setCpsr_fetchBufs (s : State) (p : Word) : (s.setCpsr p).fetchBufs = s.fetchBufs := rfl
@[simp] theorem State.setCpsr_dcache (s : State) (p : Word) : (s.setCpsr p).dcache = s.dcache := rfl
@[simp] theorem State.setCpsr_minid (s : State) (p : Word) : (s.setCpsr p).minid = s.minid := rfl
@[simp] theorem State.setCpsr_btb (s : State) (p : Word) : (s.setCpsr p).btb = s.btb := rfl
@[simp] theorem State.setCpsr_pmu (s : State) (p : Word) : (s.setCpsr p).pmu = s.pmu := rfl
@[simp] theorem State.setCpsr_power (s : State) (p : Word) : (s.setCpsr p).power = s.power := rfl
@[simp] theorem State.setCpsr_dbg (s : State) (p : Word) : (s.setCpsr p).dbg = s.dbg := rfl
@[simp] theorem State.setCpsr_trace (s : State) (p : Word) : (s.setCpsr p).trace = s.trace := rfl
@[simp] theorem State.setCpsr_icu (s : State) (p : Word) : (s.setCpsr p).icu = s.icu := rfl
@[simp] theorem State.setCpsr_bcu (s : State) (p : Word) : (s.setCpsr p).bcu = s.bcu := rfl
@[simp] theorem State.setCpsr_jtag (s : State) (p : Word) : (s.setCpsr p).jtag = s.jtag := rfl
@[simp] theorem State.setCpsr_resetPin (s : State) (p : Word) : (s.setCpsr p).resetPin = s.resetPin := rfl
@[simp] theorem State.setCpsr_inReset (s : State) (p : Word) : (s.setCpsr p).inReset = s.inReset := rfl
@[simp] theorem State.setCpsr_bus32 (s : State) (p : Word) : (s.setCpsr p).bus32 = s.bus32 := rfl
@[simp] theorem State.setCpsr_pendingAbort (s : State) (p : Word) : (s.setCpsr p).pendingAbort = s.pendingAbort := rfl
@[simp] theorem State.setCpsr_board (s : State) (p : Word) : (s.setCpsr p).board = s.board := rfl
@[simp] theorem State.setCpsr_freeCount (s : State) (p : Word) : (s.setCpsr p).freeCount = s.freeCount := rfl
@[simp] theorem State.setCpsr_hostEvents (s : State) (p : Word) : (s.setCpsr p).hostEvents = s.hostEvents := rfl
@[simp] theorem State.setCpsr_scratch (s : State) (p : Word) : (s.setCpsr p).scratch = s.scratch := rfl

@[simp] theorem State.setSpsr_regs (s : State) (i : Fin 6) (p : Word) : (s.setSpsr i p).regs = s.regs := rfl
@[simp] theorem State.setSpsr_cpsr (s : State) (i : Fin 6) (p : Word) : (s.setSpsr i p).cpsr = s.cpsr := rfl
@[simp] theorem State.setSpsr_pc (s : State) (i : Fin 6) (p : Word) : (s.setSpsr i p).pc = s.pc := rfl
@[simp] theorem State.setSpsr_acc0 (s : State) (i : Fin 6) (p : Word) : (s.setSpsr i p).acc0 = s.acc0 := rfl
@[simp] theorem State.setSpsr_mem (s : State) (i : Fin 6) (p : Word) : (s.setSpsr i p).mem = s.mem := rfl
@[simp] theorem State.setSpsr_synced (s : State) (i : Fin 6) (p : Word) : (s.setSpsr i p).synced = s.synced := rfl
@[simp] theorem State.setSpsr_overwritten (s : State) (i : Fin 6) (p : Word) : (s.setSpsr i p).overwritten = s.overwritten := rfl
@[simp] theorem State.setSpsr_cp15 (s : State) (i : Fin 6) (p : Word) : (s.setSpsr i p).cp15 = s.cp15 := rfl
@[simp] theorem State.setSpsr_itlb (s : State) (i : Fin 6) (p : Word) : (s.setSpsr i p).itlb = s.itlb := rfl
@[simp] theorem State.setSpsr_dtlb (s : State) (i : Fin 6) (p : Word) : (s.setSpsr i p).dtlb = s.dtlb := rfl
@[simp] theorem State.setSpsr_icache (s : State) (i : Fin 6) (p : Word) : (s.setSpsr i p).icache = s.icache := rfl
@[simp] theorem State.setSpsr_lockPhase (s : State) (i : Fin 6) (p : Word) : (s.setSpsr i p).lockPhase = s.lockPhase := rfl
@[simp] theorem State.setSpsr_minic (s : State) (i : Fin 6) (p : Word) : (s.setSpsr i p).minic = s.minic := rfl
@[simp] theorem State.setSpsr_fetchBufs (s : State) (i : Fin 6) (p : Word) : (s.setSpsr i p).fetchBufs = s.fetchBufs := rfl
@[simp] theorem State.setSpsr_dcache (s : State) (i : Fin 6) (p : Word) : (s.setSpsr i p).dcache = s.dcache := rfl
@[simp] theorem State.setSpsr_minid (s : State) (i : Fin 6) (p : Word) : (s.setSpsr i p).minid = s.minid := rfl
@[simp] theorem State.setSpsr_btb (s : State) (i : Fin 6) (p : Word) : (s.setSpsr i p).btb = s.btb := rfl
@[simp] theorem State.setSpsr_pmu (s : State) (i : Fin 6) (p : Word) : (s.setSpsr i p).pmu = s.pmu := rfl
@[simp] theorem State.setSpsr_power (s : State) (i : Fin 6) (p : Word) : (s.setSpsr i p).power = s.power := rfl
@[simp] theorem State.setSpsr_dbg (s : State) (i : Fin 6) (p : Word) : (s.setSpsr i p).dbg = s.dbg := rfl
@[simp] theorem State.setSpsr_trace (s : State) (i : Fin 6) (p : Word) : (s.setSpsr i p).trace = s.trace := rfl
@[simp] theorem State.setSpsr_icu (s : State) (i : Fin 6) (p : Word) : (s.setSpsr i p).icu = s.icu := rfl
@[simp] theorem State.setSpsr_bcu (s : State) (i : Fin 6) (p : Word) : (s.setSpsr i p).bcu = s.bcu := rfl
@[simp] theorem State.setSpsr_jtag (s : State) (i : Fin 6) (p : Word) : (s.setSpsr i p).jtag = s.jtag := rfl
@[simp] theorem State.setSpsr_resetPin (s : State) (i : Fin 6) (p : Word) : (s.setSpsr i p).resetPin = s.resetPin := rfl
@[simp] theorem State.setSpsr_inReset (s : State) (i : Fin 6) (p : Word) : (s.setSpsr i p).inReset = s.inReset := rfl
@[simp] theorem State.setSpsr_bus32 (s : State) (i : Fin 6) (p : Word) : (s.setSpsr i p).bus32 = s.bus32 := rfl
@[simp] theorem State.setSpsr_pendingAbort (s : State) (i : Fin 6) (p : Word) : (s.setSpsr i p).pendingAbort = s.pendingAbort := rfl
@[simp] theorem State.setSpsr_board (s : State) (i : Fin 6) (p : Word) : (s.setSpsr i p).board = s.board := rfl
@[simp] theorem State.setSpsr_freeCount (s : State) (i : Fin 6) (p : Word) : (s.setSpsr i p).freeCount = s.freeCount := rfl
@[simp] theorem State.setSpsr_hostEvents (s : State) (i : Fin 6) (p : Word) : (s.setSpsr i p).hostEvents = s.hostEvents := rfl
@[simp] theorem State.setSpsr_scratch (s : State) (i : Fin 6) (p : Word) : (s.setSpsr i p).scratch = s.scratch := rfl

@[simp] theorem State.setByteAt_regs (s : State) (pa : Word) (b : Byte) : (s.setByteAt pa b).regs = s.regs := rfl
@[simp] theorem State.setByteAt_spsrs (s : State) (pa : Word) (b : Byte) : (s.setByteAt pa b).spsrs = s.spsrs := rfl
@[simp] theorem State.setByteAt_cpsr (s : State) (pa : Word) (b : Byte) : (s.setByteAt pa b).cpsr = s.cpsr := rfl
@[simp] theorem State.setByteAt_pc (s : State) (pa : Word) (b : Byte) : (s.setByteAt pa b).pc = s.pc := rfl
@[simp] theorem State.setByteAt_acc0 (s : State) (pa : Word) (b : Byte) : (s.setByteAt pa b).acc0 = s.acc0 := rfl
@[simp] theorem State.setByteAt_synced (s : State) (pa : Word) (b : Byte) : (s.setByteAt pa b).synced = s.synced := rfl
@[simp] theorem State.setByteAt_overwritten (s : State) (pa : Word) (b : Byte) : (s.setByteAt pa b).overwritten = s.overwritten := rfl
@[simp] theorem State.setByteAt_cp15 (s : State) (pa : Word) (b : Byte) : (s.setByteAt pa b).cp15 = s.cp15 := rfl
@[simp] theorem State.setByteAt_itlb (s : State) (pa : Word) (b : Byte) : (s.setByteAt pa b).itlb = s.itlb := rfl
@[simp] theorem State.setByteAt_dtlb (s : State) (pa : Word) (b : Byte) : (s.setByteAt pa b).dtlb = s.dtlb := rfl
@[simp] theorem State.setByteAt_icache (s : State) (pa : Word) (b : Byte) : (s.setByteAt pa b).icache = s.icache := rfl
@[simp] theorem State.setByteAt_lockPhase (s : State) (pa : Word) (b : Byte) : (s.setByteAt pa b).lockPhase = s.lockPhase := rfl
@[simp] theorem State.setByteAt_minic (s : State) (pa : Word) (b : Byte) : (s.setByteAt pa b).minic = s.minic := rfl
@[simp] theorem State.setByteAt_fetchBufs (s : State) (pa : Word) (b : Byte) : (s.setByteAt pa b).fetchBufs = s.fetchBufs := rfl
@[simp] theorem State.setByteAt_dcache (s : State) (pa : Word) (b : Byte) : (s.setByteAt pa b).dcache = s.dcache := rfl
@[simp] theorem State.setByteAt_minid (s : State) (pa : Word) (b : Byte) : (s.setByteAt pa b).minid = s.minid := rfl
@[simp] theorem State.setByteAt_btb (s : State) (pa : Word) (b : Byte) : (s.setByteAt pa b).btb = s.btb := rfl
@[simp] theorem State.setByteAt_pmu (s : State) (pa : Word) (b : Byte) : (s.setByteAt pa b).pmu = s.pmu := rfl
@[simp] theorem State.setByteAt_power (s : State) (pa : Word) (b : Byte) : (s.setByteAt pa b).power = s.power := rfl
@[simp] theorem State.setByteAt_dbg (s : State) (pa : Word) (b : Byte) : (s.setByteAt pa b).dbg = s.dbg := rfl
@[simp] theorem State.setByteAt_trace (s : State) (pa : Word) (b : Byte) : (s.setByteAt pa b).trace = s.trace := rfl
@[simp] theorem State.setByteAt_icu (s : State) (pa : Word) (b : Byte) : (s.setByteAt pa b).icu = s.icu := rfl
@[simp] theorem State.setByteAt_bcu (s : State) (pa : Word) (b : Byte) : (s.setByteAt pa b).bcu = s.bcu := rfl
@[simp] theorem State.setByteAt_jtag (s : State) (pa : Word) (b : Byte) : (s.setByteAt pa b).jtag = s.jtag := rfl
@[simp] theorem State.setByteAt_resetPin (s : State) (pa : Word) (b : Byte) : (s.setByteAt pa b).resetPin = s.resetPin := rfl
@[simp] theorem State.setByteAt_inReset (s : State) (pa : Word) (b : Byte) : (s.setByteAt pa b).inReset = s.inReset := rfl
@[simp] theorem State.setByteAt_bus32 (s : State) (pa : Word) (b : Byte) : (s.setByteAt pa b).bus32 = s.bus32 := rfl
@[simp] theorem State.setByteAt_pendingAbort (s : State) (pa : Word) (b : Byte) : (s.setByteAt pa b).pendingAbort = s.pendingAbort := rfl
@[simp] theorem State.setByteAt_board (s : State) (pa : Word) (b : Byte) : (s.setByteAt pa b).board = s.board := rfl
@[simp] theorem State.setByteAt_freeCount (s : State) (pa : Word) (b : Byte) : (s.setByteAt pa b).freeCount = s.freeCount := rfl
@[simp] theorem State.setByteAt_hostEvents (s : State) (pa : Word) (b : Byte) : (s.setByteAt pa b).hostEvents = s.hostEvents := rfl
@[simp] theorem State.setByteAt_scratch (s : State) (pa : Word) (b : Byte) : (s.setByteAt pa b).scratch = s.scratch := rfl

@[simp] theorem State.jump_regs (s : State) (t : Word) (f : Flow) : (s.jump t f).regs = s.regs := rfl
@[simp] theorem State.jump_spsrs (s : State) (t : Word) (f : Flow) : (s.jump t f).spsrs = s.spsrs := rfl
@[simp] theorem State.jump_cpsr (s : State) (t : Word) (f : Flow) : (s.jump t f).cpsr = s.cpsr := rfl
@[simp] theorem State.jump_acc0 (s : State) (t : Word) (f : Flow) : (s.jump t f).acc0 = s.acc0 := rfl
@[simp] theorem State.jump_mem (s : State) (t : Word) (f : Flow) : (s.jump t f).mem = s.mem := rfl
@[simp] theorem State.jump_synced (s : State) (t : Word) (f : Flow) : (s.jump t f).synced = s.synced := rfl
@[simp] theorem State.jump_overwritten (s : State) (t : Word) (f : Flow) : (s.jump t f).overwritten = s.overwritten := rfl
@[simp] theorem State.jump_cp15 (s : State) (t : Word) (f : Flow) : (s.jump t f).cp15 = s.cp15 := rfl
@[simp] theorem State.jump_itlb (s : State) (t : Word) (f : Flow) : (s.jump t f).itlb = s.itlb := rfl
@[simp] theorem State.jump_dtlb (s : State) (t : Word) (f : Flow) : (s.jump t f).dtlb = s.dtlb := rfl
@[simp] theorem State.jump_icache (s : State) (t : Word) (f : Flow) : (s.jump t f).icache = s.icache := rfl
@[simp] theorem State.jump_lockPhase (s : State) (t : Word) (f : Flow) : (s.jump t f).lockPhase = s.lockPhase := rfl
@[simp] theorem State.jump_minic (s : State) (t : Word) (f : Flow) : (s.jump t f).minic = s.minic := rfl
@[simp] theorem State.jump_fetchBufs (s : State) (t : Word) (f : Flow) : (s.jump t f).fetchBufs = s.fetchBufs := rfl
@[simp] theorem State.jump_dcache (s : State) (t : Word) (f : Flow) : (s.jump t f).dcache = s.dcache := rfl
@[simp] theorem State.jump_minid (s : State) (t : Word) (f : Flow) : (s.jump t f).minid = s.minid := rfl
@[simp] theorem State.jump_btb (s : State) (t : Word) (f : Flow) : (s.jump t f).btb = s.btb := rfl
@[simp] theorem State.jump_pmu (s : State) (t : Word) (f : Flow) : (s.jump t f).pmu = s.pmu := rfl
@[simp] theorem State.jump_power (s : State) (t : Word) (f : Flow) : (s.jump t f).power = s.power := rfl
@[simp] theorem State.jump_dbg (s : State) (t : Word) (f : Flow) : (s.jump t f).dbg = s.dbg := rfl
@[simp] theorem State.jump_trace (s : State) (t : Word) (f : Flow) : (s.jump t f).trace = s.trace := rfl
@[simp] theorem State.jump_icu (s : State) (t : Word) (f : Flow) : (s.jump t f).icu = s.icu := rfl
@[simp] theorem State.jump_bcu (s : State) (t : Word) (f : Flow) : (s.jump t f).bcu = s.bcu := rfl
@[simp] theorem State.jump_jtag (s : State) (t : Word) (f : Flow) : (s.jump t f).jtag = s.jtag := rfl
@[simp] theorem State.jump_resetPin (s : State) (t : Word) (f : Flow) : (s.jump t f).resetPin = s.resetPin := rfl
@[simp] theorem State.jump_inReset (s : State) (t : Word) (f : Flow) : (s.jump t f).inReset = s.inReset := rfl
@[simp] theorem State.jump_bus32 (s : State) (t : Word) (f : Flow) : (s.jump t f).bus32 = s.bus32 := rfl
@[simp] theorem State.jump_pendingAbort (s : State) (t : Word) (f : Flow) : (s.jump t f).pendingAbort = s.pendingAbort := rfl
@[simp] theorem State.jump_board (s : State) (t : Word) (f : Flow) : (s.jump t f).board = s.board := rfl
@[simp] theorem State.jump_freeCount (s : State) (t : Word) (f : Flow) : (s.jump t f).freeCount = s.freeCount := rfl
@[simp] theorem State.jump_hostEvents (s : State) (t : Word) (f : Flow) : (s.jump t f).hostEvents = s.hostEvents := rfl

@[simp] theorem State.jumpKeepState_regs (s : State) (v : Word) : (s.jumpKeepState v).regs = s.regs := rfl
@[simp] theorem State.jumpKeepState_spsrs (s : State) (v : Word) : (s.jumpKeepState v).spsrs = s.spsrs := rfl
@[simp] theorem State.jumpKeepState_cpsr (s : State) (v : Word) : (s.jumpKeepState v).cpsr = s.cpsr := rfl
@[simp] theorem State.jumpKeepState_acc0 (s : State) (v : Word) : (s.jumpKeepState v).acc0 = s.acc0 := rfl
@[simp] theorem State.jumpKeepState_mem (s : State) (v : Word) : (s.jumpKeepState v).mem = s.mem := rfl
@[simp] theorem State.jumpKeepState_synced (s : State) (v : Word) : (s.jumpKeepState v).synced = s.synced := rfl
@[simp] theorem State.jumpKeepState_overwritten (s : State) (v : Word) : (s.jumpKeepState v).overwritten = s.overwritten := rfl
@[simp] theorem State.jumpKeepState_cp15 (s : State) (v : Word) : (s.jumpKeepState v).cp15 = s.cp15 := rfl
@[simp] theorem State.jumpKeepState_itlb (s : State) (v : Word) : (s.jumpKeepState v).itlb = s.itlb := rfl
@[simp] theorem State.jumpKeepState_dtlb (s : State) (v : Word) : (s.jumpKeepState v).dtlb = s.dtlb := rfl
@[simp] theorem State.jumpKeepState_icache (s : State) (v : Word) : (s.jumpKeepState v).icache = s.icache := rfl
@[simp] theorem State.jumpKeepState_lockPhase (s : State) (v : Word) : (s.jumpKeepState v).lockPhase = s.lockPhase := rfl
@[simp] theorem State.jumpKeepState_minic (s : State) (v : Word) : (s.jumpKeepState v).minic = s.minic := rfl
@[simp] theorem State.jumpKeepState_fetchBufs (s : State) (v : Word) : (s.jumpKeepState v).fetchBufs = s.fetchBufs := rfl
@[simp] theorem State.jumpKeepState_dcache (s : State) (v : Word) : (s.jumpKeepState v).dcache = s.dcache := rfl
@[simp] theorem State.jumpKeepState_minid (s : State) (v : Word) : (s.jumpKeepState v).minid = s.minid := rfl
@[simp] theorem State.jumpKeepState_btb (s : State) (v : Word) : (s.jumpKeepState v).btb = s.btb := rfl
@[simp] theorem State.jumpKeepState_pmu (s : State) (v : Word) : (s.jumpKeepState v).pmu = s.pmu := rfl
@[simp] theorem State.jumpKeepState_power (s : State) (v : Word) : (s.jumpKeepState v).power = s.power := rfl
@[simp] theorem State.jumpKeepState_dbg (s : State) (v : Word) : (s.jumpKeepState v).dbg = s.dbg := rfl
@[simp] theorem State.jumpKeepState_trace (s : State) (v : Word) : (s.jumpKeepState v).trace = s.trace := rfl
@[simp] theorem State.jumpKeepState_icu (s : State) (v : Word) : (s.jumpKeepState v).icu = s.icu := rfl
@[simp] theorem State.jumpKeepState_bcu (s : State) (v : Word) : (s.jumpKeepState v).bcu = s.bcu := rfl
@[simp] theorem State.jumpKeepState_jtag (s : State) (v : Word) : (s.jumpKeepState v).jtag = s.jtag := rfl
@[simp] theorem State.jumpKeepState_resetPin (s : State) (v : Word) : (s.jumpKeepState v).resetPin = s.resetPin := rfl
@[simp] theorem State.jumpKeepState_inReset (s : State) (v : Word) : (s.jumpKeepState v).inReset = s.inReset := rfl
@[simp] theorem State.jumpKeepState_bus32 (s : State) (v : Word) : (s.jumpKeepState v).bus32 = s.bus32 := rfl
@[simp] theorem State.jumpKeepState_pendingAbort (s : State) (v : Word) : (s.jumpKeepState v).pendingAbort = s.pendingAbort := rfl
@[simp] theorem State.jumpKeepState_board (s : State) (v : Word) : (s.jumpKeepState v).board = s.board := rfl
@[simp] theorem State.jumpKeepState_freeCount (s : State) (v : Word) : (s.jumpKeepState v).freeCount = s.freeCount := rfl
@[simp] theorem State.jumpKeepState_hostEvents (s : State) (v : Word) : (s.jumpKeepState v).hostEvents = s.hostEvents := rfl

@[simp] theorem State.recordFault_regs (s : State) (f : DataFault) : (s.recordFault f).regs = s.regs := rfl
@[simp] theorem State.recordFault_spsrs (s : State) (f : DataFault) : (s.recordFault f).spsrs = s.spsrs := rfl
@[simp] theorem State.recordFault_cpsr (s : State) (f : DataFault) : (s.recordFault f).cpsr = s.cpsr := rfl
@[simp] theorem State.recordFault_pc (s : State) (f : DataFault) : (s.recordFault f).pc = s.pc := rfl
@[simp] theorem State.recordFault_acc0 (s : State) (f : DataFault) : (s.recordFault f).acc0 = s.acc0 := rfl
@[simp] theorem State.recordFault_mem (s : State) (f : DataFault) : (s.recordFault f).mem = s.mem := rfl
@[simp] theorem State.recordFault_synced (s : State) (f : DataFault) : (s.recordFault f).synced = s.synced := rfl
@[simp] theorem State.recordFault_overwritten (s : State) (f : DataFault) : (s.recordFault f).overwritten = s.overwritten := rfl
@[simp] theorem State.recordFault_itlb (s : State) (f : DataFault) : (s.recordFault f).itlb = s.itlb := rfl
@[simp] theorem State.recordFault_dtlb (s : State) (f : DataFault) : (s.recordFault f).dtlb = s.dtlb := rfl
@[simp] theorem State.recordFault_icache (s : State) (f : DataFault) : (s.recordFault f).icache = s.icache := rfl
@[simp] theorem State.recordFault_lockPhase (s : State) (f : DataFault) : (s.recordFault f).lockPhase = s.lockPhase := rfl
@[simp] theorem State.recordFault_minic (s : State) (f : DataFault) : (s.recordFault f).minic = s.minic := rfl
@[simp] theorem State.recordFault_fetchBufs (s : State) (f : DataFault) : (s.recordFault f).fetchBufs = s.fetchBufs := rfl
@[simp] theorem State.recordFault_dcache (s : State) (f : DataFault) : (s.recordFault f).dcache = s.dcache := rfl
@[simp] theorem State.recordFault_minid (s : State) (f : DataFault) : (s.recordFault f).minid = s.minid := rfl
@[simp] theorem State.recordFault_btb (s : State) (f : DataFault) : (s.recordFault f).btb = s.btb := rfl
@[simp] theorem State.recordFault_pmu (s : State) (f : DataFault) : (s.recordFault f).pmu = s.pmu := rfl
@[simp] theorem State.recordFault_power (s : State) (f : DataFault) : (s.recordFault f).power = s.power := rfl
@[simp] theorem State.recordFault_dbg (s : State) (f : DataFault) : (s.recordFault f).dbg = s.dbg := rfl
@[simp] theorem State.recordFault_trace (s : State) (f : DataFault) : (s.recordFault f).trace = s.trace := rfl
@[simp] theorem State.recordFault_icu (s : State) (f : DataFault) : (s.recordFault f).icu = s.icu := rfl
@[simp] theorem State.recordFault_bcu (s : State) (f : DataFault) : (s.recordFault f).bcu = s.bcu := rfl
@[simp] theorem State.recordFault_jtag (s : State) (f : DataFault) : (s.recordFault f).jtag = s.jtag := rfl
@[simp] theorem State.recordFault_resetPin (s : State) (f : DataFault) : (s.recordFault f).resetPin = s.resetPin := rfl
@[simp] theorem State.recordFault_inReset (s : State) (f : DataFault) : (s.recordFault f).inReset = s.inReset := rfl
@[simp] theorem State.recordFault_bus32 (s : State) (f : DataFault) : (s.recordFault f).bus32 = s.bus32 := rfl
@[simp] theorem State.recordFault_pendingAbort (s : State) (f : DataFault) : (s.recordFault f).pendingAbort = s.pendingAbort := rfl
@[simp] theorem State.recordFault_board (s : State) (f : DataFault) : (s.recordFault f).board = s.board := rfl
@[simp] theorem State.recordFault_hostEvents (s : State) (f : DataFault) : (s.recordFault f).hostEvents = s.hostEvents := rfl
@[simp] theorem State.recordFault_scratch (s : State) (f : DataFault) : (s.recordFault f).scratch = s.scratch := rfl

@[simp] theorem State.setSticky_regs (s : State) : (s.setSticky).regs = s.regs := rfl
@[simp] theorem State.setSticky_spsrs (s : State) : (s.setSticky).spsrs = s.spsrs := rfl
@[simp] theorem State.setSticky_cpsr (s : State) : (s.setSticky).cpsr = s.cpsr := rfl
@[simp] theorem State.setSticky_pc (s : State) : (s.setSticky).pc = s.pc := rfl
@[simp] theorem State.setSticky_acc0 (s : State) : (s.setSticky).acc0 = s.acc0 := rfl
@[simp] theorem State.setSticky_mem (s : State) : (s.setSticky).mem = s.mem := rfl
@[simp] theorem State.setSticky_synced (s : State) : (s.setSticky).synced = s.synced := rfl
@[simp] theorem State.setSticky_overwritten (s : State) : (s.setSticky).overwritten = s.overwritten := rfl
@[simp] theorem State.setSticky_cp15 (s : State) : (s.setSticky).cp15 = s.cp15 := rfl
@[simp] theorem State.setSticky_itlb (s : State) : (s.setSticky).itlb = s.itlb := rfl
@[simp] theorem State.setSticky_dtlb (s : State) : (s.setSticky).dtlb = s.dtlb := rfl
@[simp] theorem State.setSticky_icache (s : State) : (s.setSticky).icache = s.icache := rfl
@[simp] theorem State.setSticky_lockPhase (s : State) : (s.setSticky).lockPhase = s.lockPhase := rfl
@[simp] theorem State.setSticky_minic (s : State) : (s.setSticky).minic = s.minic := rfl
@[simp] theorem State.setSticky_fetchBufs (s : State) : (s.setSticky).fetchBufs = s.fetchBufs := rfl
@[simp] theorem State.setSticky_dcache (s : State) : (s.setSticky).dcache = s.dcache := rfl
@[simp] theorem State.setSticky_minid (s : State) : (s.setSticky).minid = s.minid := rfl
@[simp] theorem State.setSticky_btb (s : State) : (s.setSticky).btb = s.btb := rfl
@[simp] theorem State.setSticky_pmu (s : State) : (s.setSticky).pmu = s.pmu := rfl
@[simp] theorem State.setSticky_power (s : State) : (s.setSticky).power = s.power := rfl
@[simp] theorem State.setSticky_trace (s : State) : (s.setSticky).trace = s.trace := rfl
@[simp] theorem State.setSticky_icu (s : State) : (s.setSticky).icu = s.icu := rfl
@[simp] theorem State.setSticky_bcu (s : State) : (s.setSticky).bcu = s.bcu := rfl
@[simp] theorem State.setSticky_jtag (s : State) : (s.setSticky).jtag = s.jtag := rfl
@[simp] theorem State.setSticky_resetPin (s : State) : (s.setSticky).resetPin = s.resetPin := rfl
@[simp] theorem State.setSticky_inReset (s : State) : (s.setSticky).inReset = s.inReset := rfl
@[simp] theorem State.setSticky_bus32 (s : State) : (s.setSticky).bus32 = s.bus32 := rfl
@[simp] theorem State.setSticky_pendingAbort (s : State) : (s.setSticky).pendingAbort = s.pendingAbort := rfl
@[simp] theorem State.setSticky_board (s : State) : (s.setSticky).board = s.board := rfl
@[simp] theorem State.setSticky_freeCount (s : State) : (s.setSticky).freeCount = s.freeCount := rfl
@[simp] theorem State.setSticky_hostEvents (s : State) : (s.setSticky).hostEvents = s.hostEvents := rfl
@[simp] theorem State.setSticky_scratch (s : State) : (s.setSticky).scratch = s.scratch := rfl

@[simp] theorem State.pend_regs (s : State) (k : AbortKind) : (s.pend k).regs = s.regs := rfl
@[simp] theorem State.pend_spsrs (s : State) (k : AbortKind) : (s.pend k).spsrs = s.spsrs := rfl
@[simp] theorem State.pend_cpsr (s : State) (k : AbortKind) : (s.pend k).cpsr = s.cpsr := rfl
@[simp] theorem State.pend_pc (s : State) (k : AbortKind) : (s.pend k).pc = s.pc := rfl
@[simp] theorem State.pend_acc0 (s : State) (k : AbortKind) : (s.pend k).acc0 = s.acc0 := rfl
@[simp] theorem State.pend_mem (s : State) (k : AbortKind) : (s.pend k).mem = s.mem := rfl
@[simp] theorem State.pend_synced (s : State) (k : AbortKind) : (s.pend k).synced = s.synced := rfl
@[simp] theorem State.pend_overwritten (s : State) (k : AbortKind) : (s.pend k).overwritten = s.overwritten := rfl
@[simp] theorem State.pend_cp15 (s : State) (k : AbortKind) : (s.pend k).cp15 = s.cp15 := rfl
@[simp] theorem State.pend_itlb (s : State) (k : AbortKind) : (s.pend k).itlb = s.itlb := rfl
@[simp] theorem State.pend_dtlb (s : State) (k : AbortKind) : (s.pend k).dtlb = s.dtlb := rfl
@[simp] theorem State.pend_icache (s : State) (k : AbortKind) : (s.pend k).icache = s.icache := rfl
@[simp] theorem State.pend_lockPhase (s : State) (k : AbortKind) : (s.pend k).lockPhase = s.lockPhase := rfl
@[simp] theorem State.pend_minic (s : State) (k : AbortKind) : (s.pend k).minic = s.minic := rfl
@[simp] theorem State.pend_fetchBufs (s : State) (k : AbortKind) : (s.pend k).fetchBufs = s.fetchBufs := rfl
@[simp] theorem State.pend_dcache (s : State) (k : AbortKind) : (s.pend k).dcache = s.dcache := rfl
@[simp] theorem State.pend_minid (s : State) (k : AbortKind) : (s.pend k).minid = s.minid := rfl
@[simp] theorem State.pend_btb (s : State) (k : AbortKind) : (s.pend k).btb = s.btb := rfl
@[simp] theorem State.pend_pmu (s : State) (k : AbortKind) : (s.pend k).pmu = s.pmu := rfl
@[simp] theorem State.pend_power (s : State) (k : AbortKind) : (s.pend k).power = s.power := rfl
@[simp] theorem State.pend_dbg (s : State) (k : AbortKind) : (s.pend k).dbg = s.dbg := rfl
@[simp] theorem State.pend_trace (s : State) (k : AbortKind) : (s.pend k).trace = s.trace := rfl
@[simp] theorem State.pend_icu (s : State) (k : AbortKind) : (s.pend k).icu = s.icu := rfl
@[simp] theorem State.pend_bcu (s : State) (k : AbortKind) : (s.pend k).bcu = s.bcu := rfl
@[simp] theorem State.pend_jtag (s : State) (k : AbortKind) : (s.pend k).jtag = s.jtag := rfl
@[simp] theorem State.pend_resetPin (s : State) (k : AbortKind) : (s.pend k).resetPin = s.resetPin := rfl
@[simp] theorem State.pend_inReset (s : State) (k : AbortKind) : (s.pend k).inReset = s.inReset := rfl
@[simp] theorem State.pend_bus32 (s : State) (k : AbortKind) : (s.pend k).bus32 = s.bus32 := rfl
@[simp] theorem State.pend_board (s : State) (k : AbortKind) : (s.pend k).board = s.board := rfl
@[simp] theorem State.pend_freeCount (s : State) (k : AbortKind) : (s.pend k).freeCount = s.freeCount := rfl
@[simp] theorem State.pend_hostEvents (s : State) (k : AbortKind) : (s.pend k).hostEvents = s.hostEvents := rfl
@[simp] theorem State.pend_scratch (s : State) (k : AbortKind) : (s.pend k).scratch = s.scratch := rfl

@[simp] theorem State.setEcc_regs (s : State) (b : Nat) (e : EccState) : (s.setEcc b e).regs = s.regs := rfl
@[simp] theorem State.setEcc_spsrs (s : State) (b : Nat) (e : EccState) : (s.setEcc b e).spsrs = s.spsrs := rfl
@[simp] theorem State.setEcc_cpsr (s : State) (b : Nat) (e : EccState) : (s.setEcc b e).cpsr = s.cpsr := rfl
@[simp] theorem State.setEcc_pc (s : State) (b : Nat) (e : EccState) : (s.setEcc b e).pc = s.pc := rfl
@[simp] theorem State.setEcc_acc0 (s : State) (b : Nat) (e : EccState) : (s.setEcc b e).acc0 = s.acc0 := rfl
@[simp] theorem State.setEcc_mem (s : State) (b : Nat) (e : EccState) : (s.setEcc b e).mem = s.mem := rfl
@[simp] theorem State.setEcc_synced (s : State) (b : Nat) (e : EccState) : (s.setEcc b e).synced = s.synced := rfl
@[simp] theorem State.setEcc_overwritten (s : State) (b : Nat) (e : EccState) : (s.setEcc b e).overwritten = s.overwritten := rfl
@[simp] theorem State.setEcc_cp15 (s : State) (b : Nat) (e : EccState) : (s.setEcc b e).cp15 = s.cp15 := rfl
@[simp] theorem State.setEcc_itlb (s : State) (b : Nat) (e : EccState) : (s.setEcc b e).itlb = s.itlb := rfl
@[simp] theorem State.setEcc_dtlb (s : State) (b : Nat) (e : EccState) : (s.setEcc b e).dtlb = s.dtlb := rfl
@[simp] theorem State.setEcc_icache (s : State) (b : Nat) (e : EccState) : (s.setEcc b e).icache = s.icache := rfl
@[simp] theorem State.setEcc_lockPhase (s : State) (b : Nat) (e : EccState) : (s.setEcc b e).lockPhase = s.lockPhase := rfl
@[simp] theorem State.setEcc_minic (s : State) (b : Nat) (e : EccState) : (s.setEcc b e).minic = s.minic := rfl
@[simp] theorem State.setEcc_fetchBufs (s : State) (b : Nat) (e : EccState) : (s.setEcc b e).fetchBufs = s.fetchBufs := rfl
@[simp] theorem State.setEcc_dcache (s : State) (b : Nat) (e : EccState) : (s.setEcc b e).dcache = s.dcache := rfl
@[simp] theorem State.setEcc_minid (s : State) (b : Nat) (e : EccState) : (s.setEcc b e).minid = s.minid := rfl
@[simp] theorem State.setEcc_btb (s : State) (b : Nat) (e : EccState) : (s.setEcc b e).btb = s.btb := rfl
@[simp] theorem State.setEcc_pmu (s : State) (b : Nat) (e : EccState) : (s.setEcc b e).pmu = s.pmu := rfl
@[simp] theorem State.setEcc_power (s : State) (b : Nat) (e : EccState) : (s.setEcc b e).power = s.power := rfl
@[simp] theorem State.setEcc_dbg (s : State) (b : Nat) (e : EccState) : (s.setEcc b e).dbg = s.dbg := rfl
@[simp] theorem State.setEcc_trace (s : State) (b : Nat) (e : EccState) : (s.setEcc b e).trace = s.trace := rfl
@[simp] theorem State.setEcc_icu (s : State) (b : Nat) (e : EccState) : (s.setEcc b e).icu = s.icu := rfl
@[simp] theorem State.setEcc_bcu (s : State) (b : Nat) (e : EccState) : (s.setEcc b e).bcu = s.bcu := rfl
@[simp] theorem State.setEcc_jtag (s : State) (b : Nat) (e : EccState) : (s.setEcc b e).jtag = s.jtag := rfl
@[simp] theorem State.setEcc_resetPin (s : State) (b : Nat) (e : EccState) : (s.setEcc b e).resetPin = s.resetPin := rfl
@[simp] theorem State.setEcc_inReset (s : State) (b : Nat) (e : EccState) : (s.setEcc b e).inReset = s.inReset := rfl
@[simp] theorem State.setEcc_bus32 (s : State) (b : Nat) (e : EccState) : (s.setEcc b e).bus32 = s.bus32 := rfl
@[simp] theorem State.setEcc_pendingAbort (s : State) (b : Nat) (e : EccState) : (s.setEcc b e).pendingAbort = s.pendingAbort := rfl
@[simp] theorem State.setEcc_freeCount (s : State) (b : Nat) (e : EccState) : (s.setEcc b e).freeCount = s.freeCount := rfl
@[simp] theorem State.setEcc_hostEvents (s : State) (b : Nat) (e : EccState) : (s.setEcc b e).hostEvents = s.hostEvents := rfl
@[simp] theorem State.setEcc_scratch (s : State) (b : Nat) (e : EccState) : (s.setEcc b e).scratch = s.scratch := rfl

@[simp] theorem State.noteOverwritten_regs (s : State) (pa : Word) (n : Nat) : (s.noteOverwritten pa n).regs = s.regs := rfl
@[simp] theorem State.noteOverwritten_spsrs (s : State) (pa : Word) (n : Nat) : (s.noteOverwritten pa n).spsrs = s.spsrs := rfl
@[simp] theorem State.noteOverwritten_cpsr (s : State) (pa : Word) (n : Nat) : (s.noteOverwritten pa n).cpsr = s.cpsr := rfl
@[simp] theorem State.noteOverwritten_pc (s : State) (pa : Word) (n : Nat) : (s.noteOverwritten pa n).pc = s.pc := rfl
@[simp] theorem State.noteOverwritten_acc0 (s : State) (pa : Word) (n : Nat) : (s.noteOverwritten pa n).acc0 = s.acc0 := rfl
@[simp] theorem State.noteOverwritten_mem (s : State) (pa : Word) (n : Nat) : (s.noteOverwritten pa n).mem = s.mem := rfl
@[simp] theorem State.noteOverwritten_synced (s : State) (pa : Word) (n : Nat) : (s.noteOverwritten pa n).synced = s.synced := rfl
@[simp] theorem State.noteOverwritten_cp15 (s : State) (pa : Word) (n : Nat) : (s.noteOverwritten pa n).cp15 = s.cp15 := rfl
@[simp] theorem State.noteOverwritten_itlb (s : State) (pa : Word) (n : Nat) : (s.noteOverwritten pa n).itlb = s.itlb := rfl
@[simp] theorem State.noteOverwritten_dtlb (s : State) (pa : Word) (n : Nat) : (s.noteOverwritten pa n).dtlb = s.dtlb := rfl
@[simp] theorem State.noteOverwritten_icache (s : State) (pa : Word) (n : Nat) : (s.noteOverwritten pa n).icache = s.icache := rfl
@[simp] theorem State.noteOverwritten_lockPhase (s : State) (pa : Word) (n : Nat) : (s.noteOverwritten pa n).lockPhase = s.lockPhase := rfl
@[simp] theorem State.noteOverwritten_minic (s : State) (pa : Word) (n : Nat) : (s.noteOverwritten pa n).minic = s.minic := rfl
@[simp] theorem State.noteOverwritten_fetchBufs (s : State) (pa : Word) (n : Nat) : (s.noteOverwritten pa n).fetchBufs = s.fetchBufs := rfl
@[simp] theorem State.noteOverwritten_dcache (s : State) (pa : Word) (n : Nat) : (s.noteOverwritten pa n).dcache = s.dcache := rfl
@[simp] theorem State.noteOverwritten_minid (s : State) (pa : Word) (n : Nat) : (s.noteOverwritten pa n).minid = s.minid := rfl
@[simp] theorem State.noteOverwritten_btb (s : State) (pa : Word) (n : Nat) : (s.noteOverwritten pa n).btb = s.btb := rfl
@[simp] theorem State.noteOverwritten_pmu (s : State) (pa : Word) (n : Nat) : (s.noteOverwritten pa n).pmu = s.pmu := rfl
@[simp] theorem State.noteOverwritten_power (s : State) (pa : Word) (n : Nat) : (s.noteOverwritten pa n).power = s.power := rfl
@[simp] theorem State.noteOverwritten_dbg (s : State) (pa : Word) (n : Nat) : (s.noteOverwritten pa n).dbg = s.dbg := rfl
@[simp] theorem State.noteOverwritten_trace (s : State) (pa : Word) (n : Nat) : (s.noteOverwritten pa n).trace = s.trace := rfl
@[simp] theorem State.noteOverwritten_icu (s : State) (pa : Word) (n : Nat) : (s.noteOverwritten pa n).icu = s.icu := rfl
@[simp] theorem State.noteOverwritten_bcu (s : State) (pa : Word) (n : Nat) : (s.noteOverwritten pa n).bcu = s.bcu := rfl
@[simp] theorem State.noteOverwritten_jtag (s : State) (pa : Word) (n : Nat) : (s.noteOverwritten pa n).jtag = s.jtag := rfl
@[simp] theorem State.noteOverwritten_resetPin (s : State) (pa : Word) (n : Nat) : (s.noteOverwritten pa n).resetPin = s.resetPin := rfl
@[simp] theorem State.noteOverwritten_inReset (s : State) (pa : Word) (n : Nat) : (s.noteOverwritten pa n).inReset = s.inReset := rfl
@[simp] theorem State.noteOverwritten_bus32 (s : State) (pa : Word) (n : Nat) : (s.noteOverwritten pa n).bus32 = s.bus32 := rfl
@[simp] theorem State.noteOverwritten_pendingAbort (s : State) (pa : Word) (n : Nat) : (s.noteOverwritten pa n).pendingAbort = s.pendingAbort := rfl
@[simp] theorem State.noteOverwritten_board (s : State) (pa : Word) (n : Nat) : (s.noteOverwritten pa n).board = s.board := rfl
@[simp] theorem State.noteOverwritten_freeCount (s : State) (pa : Word) (n : Nat) : (s.noteOverwritten pa n).freeCount = s.freeCount := rfl
@[simp] theorem State.noteOverwritten_hostEvents (s : State) (pa : Word) (n : Nat) : (s.noteOverwritten pa n).hostEvents = s.hostEvents := rfl
@[simp] theorem State.noteOverwritten_scratch (s : State) (pa : Word) (n : Nat) : (s.noteOverwritten pa n).scratch = s.scratch := rfl

/-! ## setLock -/

@[simp] theorem State.setLock_regs (s : State) (l : BusLock) : (s.setLock l).regs = s.regs := rfl
@[simp] theorem State.setLock_spsrs (s : State) (l : BusLock) : (s.setLock l).spsrs = s.spsrs := rfl
@[simp] theorem State.setLock_cpsr (s : State) (l : BusLock) : (s.setLock l).cpsr = s.cpsr := rfl
@[simp] theorem State.setLock_pc (s : State) (l : BusLock) : (s.setLock l).pc = s.pc := rfl
@[simp] theorem State.setLock_acc0 (s : State) (l : BusLock) : (s.setLock l).acc0 = s.acc0 := rfl
@[simp] theorem State.setLock_mem (s : State) (l : BusLock) : (s.setLock l).mem = s.mem := rfl
@[simp] theorem State.setLock_synced (s : State) (l : BusLock) : (s.setLock l).synced = s.synced := rfl
@[simp] theorem State.setLock_cp15 (s : State) (l : BusLock) : (s.setLock l).cp15 = s.cp15 := rfl
@[simp] theorem State.setLock_itlb (s : State) (l : BusLock) : (s.setLock l).itlb = s.itlb := rfl
@[simp] theorem State.setLock_dtlb (s : State) (l : BusLock) : (s.setLock l).dtlb = s.dtlb := rfl
@[simp] theorem State.setLock_icache (s : State) (l : BusLock) : (s.setLock l).icache = s.icache := rfl
@[simp] theorem State.setLock_lockPhase (s : State) (l : BusLock) : (s.setLock l).lockPhase = s.lockPhase := rfl
@[simp] theorem State.setLock_minic (s : State) (l : BusLock) : (s.setLock l).minic = s.minic := rfl
@[simp] theorem State.setLock_fetchBufs (s : State) (l : BusLock) : (s.setLock l).fetchBufs = s.fetchBufs := rfl
@[simp] theorem State.setLock_dcache (s : State) (l : BusLock) : (s.setLock l).dcache = s.dcache := rfl
@[simp] theorem State.setLock_minid (s : State) (l : BusLock) : (s.setLock l).minid = s.minid := rfl
@[simp] theorem State.setLock_btb (s : State) (l : BusLock) : (s.setLock l).btb = s.btb := rfl
@[simp] theorem State.setLock_pmu (s : State) (l : BusLock) : (s.setLock l).pmu = s.pmu := rfl
@[simp] theorem State.setLock_power (s : State) (l : BusLock) : (s.setLock l).power = s.power := rfl
@[simp] theorem State.setLock_dbg (s : State) (l : BusLock) : (s.setLock l).dbg = s.dbg := rfl
@[simp] theorem State.setLock_trace (s : State) (l : BusLock) : (s.setLock l).trace = s.trace := rfl
@[simp] theorem State.setLock_icu (s : State) (l : BusLock) : (s.setLock l).icu = s.icu := rfl
@[simp] theorem State.setLock_bcu (s : State) (l : BusLock) : (s.setLock l).bcu = s.bcu := rfl
@[simp] theorem State.setLock_jtag (s : State) (l : BusLock) : (s.setLock l).jtag = s.jtag := rfl
@[simp] theorem State.setLock_resetPin (s : State) (l : BusLock) : (s.setLock l).resetPin = s.resetPin := rfl
@[simp] theorem State.setLock_inReset (s : State) (l : BusLock) : (s.setLock l).inReset = s.inReset := rfl
@[simp] theorem State.setLock_bus32 (s : State) (l : BusLock) : (s.setLock l).bus32 = s.bus32 := rfl
@[simp] theorem State.setLock_pendingAbort (s : State) (l : BusLock) : (s.setLock l).pendingAbort = s.pendingAbort := rfl
@[simp] theorem State.setLock_board (s : State) (l : BusLock) : (s.setLock l).board = s.board := rfl
@[simp] theorem State.setLock_freeCount (s : State) (l : BusLock) : (s.setLock l).freeCount = s.freeCount := rfl
@[simp] theorem State.setLock_hostEvents (s : State) (l : BusLock) : (s.setLock l).hostEvents = s.hostEvents := rfl
@[simp] theorem State.setLock_overwritten (s : State) (l : BusLock) : (s.setLock l).overwritten = s.overwritten := rfl

/-! ## The register write -/

@[simp] theorem State.setReg_spsrs (s : State) (r : Reg) (v : Word) : (s.setReg r v).spsrs = s.spsrs := by
  unfold State.setReg; split <;> rfl
@[simp] theorem State.setReg_cpsr (s : State) (r : Reg) (v : Word) : (s.setReg r v).cpsr = s.cpsr := by
  unfold State.setReg; split <;> rfl
@[simp] theorem State.setReg_pc (s : State) (r : Reg) (v : Word) : (s.setReg r v).pc = s.pc := by
  unfold State.setReg; split <;> rfl
@[simp] theorem State.setReg_acc0 (s : State) (r : Reg) (v : Word) : (s.setReg r v).acc0 = s.acc0 := by
  unfold State.setReg; split <;> rfl
@[simp] theorem State.setReg_mem (s : State) (r : Reg) (v : Word) : (s.setReg r v).mem = s.mem := by
  unfold State.setReg; split <;> rfl
@[simp] theorem State.setReg_synced (s : State) (r : Reg) (v : Word) : (s.setReg r v).synced = s.synced := by
  unfold State.setReg; split <;> rfl
@[simp] theorem State.setReg_overwritten (s : State) (r : Reg) (v : Word) : (s.setReg r v).overwritten = s.overwritten := by
  unfold State.setReg; split <;> rfl
@[simp] theorem State.setReg_cp15 (s : State) (r : Reg) (v : Word) : (s.setReg r v).cp15 = s.cp15 := by
  unfold State.setReg; split <;> rfl
@[simp] theorem State.setReg_itlb (s : State) (r : Reg) (v : Word) : (s.setReg r v).itlb = s.itlb := by
  unfold State.setReg; split <;> rfl
@[simp] theorem State.setReg_dtlb (s : State) (r : Reg) (v : Word) : (s.setReg r v).dtlb = s.dtlb := by
  unfold State.setReg; split <;> rfl
@[simp] theorem State.setReg_icache (s : State) (r : Reg) (v : Word) : (s.setReg r v).icache = s.icache := by
  unfold State.setReg; split <;> rfl
@[simp] theorem State.setReg_lockPhase (s : State) (r : Reg) (v : Word) : (s.setReg r v).lockPhase = s.lockPhase := by
  unfold State.setReg; split <;> rfl
@[simp] theorem State.setReg_minic (s : State) (r : Reg) (v : Word) : (s.setReg r v).minic = s.minic := by
  unfold State.setReg; split <;> rfl
@[simp] theorem State.setReg_fetchBufs (s : State) (r : Reg) (v : Word) : (s.setReg r v).fetchBufs = s.fetchBufs := by
  unfold State.setReg; split <;> rfl
@[simp] theorem State.setReg_dcache (s : State) (r : Reg) (v : Word) : (s.setReg r v).dcache = s.dcache := by
  unfold State.setReg; split <;> rfl
@[simp] theorem State.setReg_minid (s : State) (r : Reg) (v : Word) : (s.setReg r v).minid = s.minid := by
  unfold State.setReg; split <;> rfl
@[simp] theorem State.setReg_btb (s : State) (r : Reg) (v : Word) : (s.setReg r v).btb = s.btb := by
  unfold State.setReg; split <;> rfl
@[simp] theorem State.setReg_pmu (s : State) (r : Reg) (v : Word) : (s.setReg r v).pmu = s.pmu := by
  unfold State.setReg; split <;> rfl
@[simp] theorem State.setReg_power (s : State) (r : Reg) (v : Word) : (s.setReg r v).power = s.power := by
  unfold State.setReg; split <;> rfl
@[simp] theorem State.setReg_dbg (s : State) (r : Reg) (v : Word) : (s.setReg r v).dbg = s.dbg := by
  unfold State.setReg; split <;> rfl
@[simp] theorem State.setReg_trace (s : State) (r : Reg) (v : Word) : (s.setReg r v).trace = s.trace := by
  unfold State.setReg; split <;> rfl
@[simp] theorem State.setReg_icu (s : State) (r : Reg) (v : Word) : (s.setReg r v).icu = s.icu := by
  unfold State.setReg; split <;> rfl
@[simp] theorem State.setReg_bcu (s : State) (r : Reg) (v : Word) : (s.setReg r v).bcu = s.bcu := by
  unfold State.setReg; split <;> rfl
@[simp] theorem State.setReg_jtag (s : State) (r : Reg) (v : Word) : (s.setReg r v).jtag = s.jtag := by
  unfold State.setReg; split <;> rfl
@[simp] theorem State.setReg_resetPin (s : State) (r : Reg) (v : Word) : (s.setReg r v).resetPin = s.resetPin := by
  unfold State.setReg; split <;> rfl
@[simp] theorem State.setReg_inReset (s : State) (r : Reg) (v : Word) : (s.setReg r v).inReset = s.inReset := by
  unfold State.setReg; split <;> rfl
@[simp] theorem State.setReg_bus32 (s : State) (r : Reg) (v : Word) : (s.setReg r v).bus32 = s.bus32 := by
  unfold State.setReg; split <;> rfl
@[simp] theorem State.setReg_pendingAbort (s : State) (r : Reg) (v : Word) : (s.setReg r v).pendingAbort = s.pendingAbort := by
  unfold State.setReg; split <;> rfl
@[simp] theorem State.setReg_board (s : State) (r : Reg) (v : Word) : (s.setReg r v).board = s.board := by
  unfold State.setReg; split <;> rfl
@[simp] theorem State.setReg_freeCount (s : State) (r : Reg) (v : Word) : (s.setReg r v).freeCount = s.freeCount := by
  unfold State.setReg; split <;> rfl
@[simp] theorem State.setReg_hostEvents (s : State) (r : Reg) (v : Word) : (s.setReg r v).hostEvents = s.hostEvents := by
  unfold State.setReg; split <;> rfl
@[simp] theorem State.setReg_scratch (s : State) (r : Reg) (v : Word) : (s.setReg r v).scratch = s.scratch := by
  unfold State.setReg; split <;> rfl

/-! ## Taking an exception -/

@[simp] theorem takeException_acc0 (e : Exc) (l : Word) (c : Bool) (s : State) : (takeException e l c s).acc0 = s.acc0 := rfl
@[simp] theorem takeException_mem (e : Exc) (l : Word) (c : Bool) (s : State) : (takeException e l c s).mem = s.mem := rfl
@[simp] theorem takeException_synced (e : Exc) (l : Word) (c : Bool) (s : State) : (takeException e l c s).synced = s.synced := rfl
@[simp] theorem takeException_overwritten (e : Exc) (l : Word) (c : Bool) (s : State) : (takeException e l c s).overwritten = s.overwritten := rfl
@[simp] theorem takeException_cp15 (e : Exc) (l : Word) (c : Bool) (s : State) : (takeException e l c s).cp15 = s.cp15 := rfl
@[simp] theorem takeException_itlb (e : Exc) (l : Word) (c : Bool) (s : State) : (takeException e l c s).itlb = s.itlb := rfl
@[simp] theorem takeException_dtlb (e : Exc) (l : Word) (c : Bool) (s : State) : (takeException e l c s).dtlb = s.dtlb := rfl
@[simp] theorem takeException_icache (e : Exc) (l : Word) (c : Bool) (s : State) : (takeException e l c s).icache = s.icache := rfl
@[simp] theorem takeException_lockPhase (e : Exc) (l : Word) (c : Bool) (s : State) : (takeException e l c s).lockPhase = s.lockPhase := rfl
@[simp] theorem takeException_minic (e : Exc) (l : Word) (c : Bool) (s : State) : (takeException e l c s).minic = s.minic := rfl
@[simp] theorem takeException_fetchBufs (e : Exc) (l : Word) (c : Bool) (s : State) : (takeException e l c s).fetchBufs = s.fetchBufs := rfl
@[simp] theorem takeException_dcache (e : Exc) (l : Word) (c : Bool) (s : State) : (takeException e l c s).dcache = s.dcache := rfl
@[simp] theorem takeException_minid (e : Exc) (l : Word) (c : Bool) (s : State) : (takeException e l c s).minid = s.minid := rfl
@[simp] theorem takeException_btb (e : Exc) (l : Word) (c : Bool) (s : State) : (takeException e l c s).btb = s.btb := rfl
@[simp] theorem takeException_pmu (e : Exc) (l : Word) (c : Bool) (s : State) : (takeException e l c s).pmu = s.pmu := rfl
@[simp] theorem takeException_power (e : Exc) (l : Word) (c : Bool) (s : State) : (takeException e l c s).power = s.power := rfl
@[simp] theorem takeException_dbg (e : Exc) (l : Word) (c : Bool) (s : State) : (takeException e l c s).dbg = s.dbg := rfl
@[simp] theorem takeException_trace (e : Exc) (l : Word) (c : Bool) (s : State) : (takeException e l c s).trace = s.trace := rfl
@[simp] theorem takeException_icu (e : Exc) (l : Word) (c : Bool) (s : State) : (takeException e l c s).icu = s.icu := rfl
@[simp] theorem takeException_bcu (e : Exc) (l : Word) (c : Bool) (s : State) : (takeException e l c s).bcu = s.bcu := rfl
@[simp] theorem takeException_jtag (e : Exc) (l : Word) (c : Bool) (s : State) : (takeException e l c s).jtag = s.jtag := rfl
@[simp] theorem takeException_resetPin (e : Exc) (l : Word) (c : Bool) (s : State) : (takeException e l c s).resetPin = s.resetPin := rfl
@[simp] theorem takeException_inReset (e : Exc) (l : Word) (c : Bool) (s : State) : (takeException e l c s).inReset = s.inReset := rfl
@[simp] theorem takeException_bus32 (e : Exc) (l : Word) (c : Bool) (s : State) : (takeException e l c s).bus32 = s.bus32 := rfl
@[simp] theorem takeException_pendingAbort (e : Exc) (l : Word) (c : Bool) (s : State) : (takeException e l c s).pendingAbort = s.pendingAbort := rfl
@[simp] theorem takeException_board (e : Exc) (l : Word) (c : Bool) (s : State) : (takeException e l c s).board = s.board := rfl
@[simp] theorem takeException_freeCount (e : Exc) (l : Word) (c : Bool) (s : State) : (takeException e l c s).freeCount = s.freeCount := rfl
@[simp] theorem takeException_hostEvents (e : Exc) (l : Word) (c : Bool) (s : State) : (takeException e l c s).hostEvents = s.hostEvents := rfl

/-! ## What an update sets -/

@[simp] theorem State.advance_pc (s : State) (n : Word) : (s.advance n).pc = s.pc + n := rfl
@[simp] theorem State.setCpsr_cpsr (s : State) (p : Word) : (s.setCpsr p).cpsr = p &&& psrMask := rfl
@[simp] theorem State.jump_pc (s : State) (t : Word) (f : Flow) : (s.jump t f).pc = t := rfl
@[simp] theorem State.draw_freeCount (s : State) (n : Nat) : (s.draw n).freeCount = s.freeCount + n := rfl
@[simp] theorem State.setByteAt_mem (s : State) (pa : Word) (b : Byte) :
    (s.setByteAt pa b).mem = memSet s.mem pa.toNat b := rfl
@[simp] theorem State.pend_pendingAbort (s : State) (k : AbortKind) : (s.pend k).pendingAbort
    = some (if s.pendingAbort = some .external then .external else k) := rfl
@[simp] theorem takeException_cpsr (e : Exc) (l : Word) (c : Bool) (s : State) :
    (takeException e l c s).cpsr = entryCpsr s.cpsr e.mode e.setsF := rfl
@[simp] theorem takeException_spsrs (e : Exc) (l : Word) (c : Bool) (s : State) :
    (takeException e l c s).spsrs = s.spsrs.set e.spsr s.cpsr := rfl
@[simp] theorem takeException_regs (e : Exc) (l : Word) (c : Bool) (s : State) :
    (takeException e l c s).regs = s.regs.set (bankIndex e.mode 14) l := rfl
@[simp] theorem takeException_pc (e : Exc) (l : Word) (c : Bool) (s : State) :
    (takeException e l c s).pc = s.vectorBase + e.offset := rfl

/-! ## Views that depend on few fields -/

@[simp] theorem State.advance_mode (s : State) (n : Word) : (s.advance n).mode = s.mode := rfl
@[simp] theorem State.setReg_mode (s : State) (r : Reg) (v : Word) : (s.setReg r v).mode = s.mode := by
  simp [State.mode]
@[simp] theorem State.setReg_thumb (s : State) (r : Reg) (v : Word) : (s.setReg r v).thumb = s.thumb := by
  simp [State.thumb]
@[simp] theorem State.setReg_isize (s : State) (r : Reg) (v : Word) : (s.setReg r v).isize = s.isize := by
  simp [State.isize]
theorem State.byteAt_of_mem {s t : State} (h : s.mem = t.mem) (pa : Word) : s.byteAt pa = t.byteAt pa := by
  simp [State.byteAt, h]

/-- Reading back a register that was written, and any other register. -/
theorem State.bankReg_setBankReg (s : State) (m m' : BitVec 5) (r r' : Reg) (v : Word) :
    (s.setBankReg m r v).bankReg m' r' = if bankIndex m r = bankIndex m' r' then v else s.bankReg m' r' := by
  by_cases h : bankIndex m r = bankIndex m' r'
  · simp [State.setBankReg, State.bankReg, h]
  · rw [if_neg h]
    have h' : (bankIndex m r).val ≠ (bankIndex m' r').val := fun e => h (Fin.ext e)
    simp [State.setBankReg, State.bankReg, h']

end Sys2Proof.Machine
end

