-- ==== Sys2Proof/Laws/Access.lean ====
section
/-!
SUPPORT. What an access of memory can change: external memory, the caches, the TLBs, the fetch buffers, the record of
words written over, the bus controller's log, the board's error states and what other masters are still to write, a pending abort, the free-value counter and the scratch; nothing else.
Said once for a predicate that those changes keep (`Closed`), for every operation down from an instruction's access.
-/

namespace Sys2Proof.Machine

/-- A predicate that the changes a memory access makes keep. -/
structure Closed (P : State → Prop) : Prop where
  scratch : ∀ s x, P s → P { s with scratch := x }
  freeCount : ∀ s x, P s → P { s with freeCount := x }
  bcu : ∀ s x, P s → P { s with bcu := x }
  ecc : ∀ s x, P s → P { s with board := { s.board with ecc := x } }
  between : ∀ s x, P s → P { s with board := { s.board with between := x } }
  pendingAbort : ∀ s x, P s → P { s with pendingAbort := x }
  itlb : ∀ s x, P s → P { s with itlb := x }
  dtlb : ∀ s x, P s → P { s with dtlb := x }
  icache : ∀ s x, P s → P { s with icache := x }
  lockPhase : ∀ s x, P s → P { s with lockPhase := x }
  overwritten : ∀ s x, P s → P { s with overwritten := x }
  fetchBufs : ∀ s x, P s → P { s with fetchBufs := x }
  dcache : ∀ s x, P s → P { s with dcache := x }
  minid : ∀ s x, P s → P { s with minid := x }
  mem : ∀ s pa b, P s → P (s.setByteAt pa b)

/-- A predicate holds of the state a result carries, if it carries one. -/
def Acc.All {α : Type} (P : State → Prop) : Acc α → Prop
  | .ok _ s => P s
  | .abort _ s => P s
  | .fault _ => True
  | .refused _ => True

variable {α β : Type} {P : State → Prop}

theorem Acc.All.bind {x : Acc α} {k : α → State → Acc β} (hx : x.All P) (hk : ∀ v s, P s → (k v s).All P) :
    (x.bind k).All P := by
  cases x with
  | ok v s => exact hk v s hx
  | abort f s => exact hx
  | fault e => trivial
  | refused e => trivial

theorem Acc.All.ok {x : Acc α} {v : α} {t : State} (hx : x.All P) (h : x = .ok v t) : P t := by
  subst h; exact hx

theorem Acc.All.abort {x : Acc α} {f : DataFault} {t : State} (hx : x.All P) (h : x = .abort f t) : P t := by
  subst h; exact hx

/-! ## The bus controller -/

theorem Closed.note (h : Closed P) {s : State} (hs : P s) (ev : BitVec 8) : P (s.note ev) := h.scratch _ _ hs
theorem Closed.draw (h : Closed P) {s : State} (hs : P s) (n : Nat) : P (s.draw n) := h.freeCount _ _ hs
theorem Closed.pend (h : Closed P) {s : State} (hs : P s) (k : AbortKind) : P (s.pend k) := h.pendingAbort _ _ hs

theorem Closed.setBytesAt (h : Closed P) (bs : List Byte) :
    ∀ {s : State} (_ : P s) (pa : Word), P (s.setBytesAt pa bs) := by
  induction bs with
  | nil => intro s hs pa; exact hs
  | cons b bs ih => intro s hs pa; exact ih (h.mem _ _ _ hs) _

theorem Closed.logError (h : Closed P) {s : State} (hs : P s) (w : Bool) (et : BitVec 2) (y : BitVec 8) (pa : Word) :
    P (s.logError w et y pa) := by
  unfold State.logError
  split
  · exact h.bcu _ _ hs
  · split
    · exact h.bcu _ _ hs
    · dsimp only
      split
      · exact h.bcu _ _ hs
      · exact h.note (h.bcu _ _ hs) _

theorem Closed.logAbort (h : Closed P) {s : State} (hs : P s) (w : Bool) (pa : Word) : P (s.logAbort w pa) :=
  h.draw (h.logError hs _ _ _ _) _

/-- Without CWF the blocks of a read arrive in rising order (62_platform R872). -/
theorem readBlocks_rising {s : State} {pa : Word} (h : s.cwfAt pa = false) (req : Word) (n : Nat) :
    s.readBlocks pa req n = blocksOf pa n := by
  simp [State.readBlocks, State.firstCycle, h]

/-- The order in which the blocks of a read arrive leaves out none and repeats none (62_platform R872). -/
theorem readBlocks_perm (s : State) (pa req : Word) (n : Nat) : (s.readBlocks pa req n).Perm (blocksOf pa n) := by
  unfold State.readBlocks List.rotateLeft
  dsimp only
  split
  · exact .refl _
  · refine List.perm_append_comm.trans ?_
    rw [List.take_append_drop]

theorem Closed.eccCheck (h : Closed P) (req : Word) (bs : List Nat) :
    ∀ {s : State} (_ : P s), P (eccCheck req bs s).2 := by
  induction bs with
  | nil => intro s hs; exact hs
  | cons b bs ih =>
    intro s hs
    unfold Machine.eccCheck
    split
    · exact ih hs
    · exact ih (h.note (h.logError hs _ _ _ _) _)
    · exact ih (h.note (h.logError hs _ _ _ _) _)
    · exact h.logError hs _ _ _ _

theorem Closed.noteOverwritten (h : Closed P) {s : State} (hs : P s) (pa : Word) (n : Nat) : P (s.noteOverwritten pa n) :=
  h.overwritten _ _ hs

theorem Closed.otherWrite (h : Closed P) {s : State} (hs : P s) (pa : Word) (b : Byte) : P (s.otherWrite pa b) :=
  h.mem _ _ _ (h.noteOverwritten hs _ _)

theorem Closed.otherWrites (h : Closed P) (ws : List (Word × Byte)) :
    ∀ {s : State} (_ : P s), P (ws.foldl (fun t w => t.otherWrite w.1 w.2) s) := by
  induction ws with
  | nil => intro s hs; exact hs
  | cons w ws ih => intro s hs; exact ih (h.otherWrite hs _ _)

/-- Where no other master is to write, nothing happens before a request. -/
@[simp] theorem othersWrite_of_none {s : State} (hb : s.board.between = []) : s.othersWrite = s := by
  simp [State.othersWrite, hb]

/-- All that other masters change before a request: memory, the record of words written over, and what is still to come. -/
theorem othersWrite_eq (s : State) : ∃ m o b, s.othersWrite
    = { s with mem := m, overwritten := o, board := { s.board with between := b } } := by
  have hf : ∀ (ws : List (Word × Byte)) (t : State), ∃ m o, ws.foldl (fun t w => t.otherWrite w.1 w.2) t
      = { t with mem := m, overwritten := o } := by
    intro ws
    induction ws with
    | nil => intro t; exact ⟨_, _, rfl⟩
    | cons w ws ih =>
      intro t
      obtain ⟨m, o, e⟩ := ih (t.otherWrite w.1 w.2)
      exact ⟨m, o, e⟩
  unfold State.othersWrite
  split
  · exact ⟨_, _, _, rfl⟩
  · obtain ⟨m, o, e⟩ := hf _ _
    exact ⟨m, o, _, e⟩

theorem Closed.othersWrite (h : Closed P) {s : State} (hs : P s) : P s.othersWrite := by
  unfold State.othersWrite
  split
  · exact hs
  · exact h.otherWrites _ (h.between _ _ hs)

/-- Asserting Lock changes the step's record only. -/
theorem assertLock_eq (s : State) : ∃ x, s.assertLock = { s with scratch := x } := by
  unfold State.assertLock
  split <;> exact ⟨_, rfl⟩

theorem Closed.assertLock (h : Closed P) {s : State} (hs : P s) : P s.assertLock := by
  unfold State.assertLock
  split
  · exact h.scratch _ _ hs
  · exact hs
  · exact hs

theorem Closed.abortedRead (h : Closed P) {s : State} (hs : P s) (pa req : Word) (n : Nat) (p : Bool) :
    (abortedRead pa req n p s).All P := by
  have hr : P (if s.eccOn p then Machine.eccCheck req (s.receivedBlocks pa req n) s else (true, s)).2 := by
    split
    · exact h.eccCheck _ _ hs
    · exact hs
  unfold Machine.abortedRead
  generalize (if s.eccOn p then Machine.eccCheck req (s.receivedBlocks pa req n) s else (true, s)) = r at hr
  dsimp only
  split
  · exact h.logAbort hr _ _
  · exact hr

theorem Closed.busRead (h : Closed P) {s : State} (hs : P s) (pa req : Word) (n : Nat) (p : Bool) :
    (busRead pa req n p s).All P := by
  have h0 := h.note (h.assertLock (h.othersWrite hs)) 0x10
  unfold Machine.busRead
  dsimp only
  split
  · trivial
  · split
    · exact h.abortedRead h0 _ _ _ _
    · split
      · exact h.eccCheck _ _ h0
      · exact h0

theorem Closed.setEcc (h : Closed P) {s : State} (hs : P s) (b : Nat) (e : EccState) : P (s.setEcc b e) := h.ecc _ _ hs

theorem Closed.setEccBlocks (h : Closed P) (e : EccState) (bs : List Nat) :
    ∀ {s : State} (_ : P s), P (setEccBlocks e bs s) := by
  induction bs with
  | nil => intro s hs; exact hs
  | cons b bs ih => intro s hs; exact ih (h.setEcc hs _ _)

theorem Closed.clearZeroBlocks (h : Closed P) (bs : List Nat) :
    ∀ {s : State} (_ : P s), P (State.clearZeroBlocks bs s) := by
  induction bs with
  | nil => intro s hs; exact hs
  | cons b bs ih =>
    intro s hs
    refine ih ?_
    split
    · exact h.setEcc hs _ _
    · exact hs

theorem Closed.abortData (h : Closed P) {s : State} (hs : P s) (w : Bool) (pa : Word) : P (s.abortData w pa) :=
  h.pend (h.logAbort hs _ _) _

theorem Closed.rmwRead (h : Closed P) {s : State} (hs : P s) (b : Nat) : P (rmwRead b s).2 := by
  unfold Machine.rmwRead
  dsimp only
  split
  · exact h.abortData hs _ _
  · split
    · exact hs
    · exact h.note (h.logError hs _ _ _ _) _
    · exact h.note (h.logError hs _ _ _ _) _
    · exact h.pend (h.logError hs _ _ _ _) _

theorem Closed.repairBlock (h : Closed P) {s : State} (hs : P s) (b : Nat) : P (s.repairBlock b) := by
  unfold State.repairBlock
  split
  · split
    · exact h.mem _ _ _ hs
    · exact hs
  · exact hs
  · exact hs
  · exact hs

theorem Closed.rmwWrite (h : Closed P) {s : State} (hs : P s) (pa : Word) (bs : List Byte) : P (rmwWrite pa bs s) := by
  have hr := h.rmwRead (h.note hs 0x16) (blockOf pa)
  unfold Machine.rmwWrite
  dsimp only
  split
  · exact h.abortData hr _ _
  · split
    · exact h.setEcc (h.setBytesAt _ (h.repairBlock hr _) _) _ _
    · exact hr

theorem Closed.writeCheckBits (h : Closed P) {s : State} (hs : P s) (pa : Word) (n : Nat) (p : Bool) :
    P (s.writeCheckBits pa n p) := by
  unfold State.writeCheckBits
  split
  · split
    · split
      · exact hs
      · exact h.setEccBlocks _ _ hs
    · exact h.setEccBlocks _ _ hs
  · exact h.clearZeroBlocks _ hs

theorem Closed.busWrite (h : Closed P) {s : State} (hs : P s) (u : Bool) (pa : Word) (bs : List Byte) (p : Bool) :
    (busWrite u pa bs p s).All P := by
  have h0 := h.note (h.othersWrite hs) 0x10
  unfold Machine.busWrite
  dsimp only
  split
  · trivial
  · split
    · exact h.rmwWrite h0 _ _
    · have h1 (k : Nat) : P (if k = 0 then s.othersWrite.note 0x10
          else ((s.othersWrite.note 0x10).setBytesAt pa (bs.take k)).writeCheckBits pa k p) := by
        split
        · exact h0
        · exact h.writeCheckBits (h.setBytesAt _ h0 _) _ _ _
      simp only [Acc.All]
      split
      · exact h.abortData (h1 _) _ _
      · exact h1 _

/-! ## Translation -/

theorem Closed.readDescriptor (h : Closed P) {s : State} (hs : P s) (pa : Word) (c : FaultCode) (m : Word)
    (d : BitVec 4) : (readDescriptor pa c m d s).All P := by
  unfold Machine.readDescriptor
  refine (h.busRead hs _ _ _ _).bind fun r s1 h1 => ?_
  split <;> exact h1

theorem Closed.walk (h : Closed P) {s : State} (hs : P s) (m : Word) : (walk m s).All P := by
  unfold Machine.walk
  refine (h.readDescriptor hs _ _ _ _).bind fun l1 s1 h1 => ?_
  dsimp only
  split
  · exact h1
  · split
    · exact h1
    · refine (h.readDescriptor h1 _ _ _ _).bind fun l2 s2 h2 => ?_
      split <;> exact h2

theorem Closed.checkAccess {s : State} (hs : P s) (e : TlbEntry) (m : Word) (w pr : Bool) :
    (checkAccess e m w pr s).All P := by
  unfold Machine.checkAccess
  dsimp only
  split
  · exact hs
  · split
    · split
      · trivial
      · exact hs
      · exact hs
    · exact hs

theorem Closed.setTlb (h : Closed P) {s : State} (hs : P s) (i : Bool) (t : Tlb) : P (s.setTlb i t) := by
  unfold State.setTlb
  split
  · exact h.itlb _ _ hs
  · exact h.dtlb _ _ hs

theorem Closed.translate (h : Closed P) {s : State} (hs : P s) (i : Bool) (m : Word) (w pr : Bool) :
    (translate i m w pr s).All P := by
  unfold Machine.translate
  split
  · exact hs
  · split
    · refine (h.walk (h.note hs _) m).bind fun e s1 h1 => ?_
      refine (Closed.checkAccess (h.setTlb h1 _ _) e m w pr).bind fun _ s2 h2 => ?_
      exact h2
    · exact (Closed.checkAccess hs _ m w pr).bind fun _ s2 h2 => h2
    · trivial

theorem Acc.All.lockAbort {α : Type} {x : Acc α} (h : x.All P) : x.lockAbort.All P := by
  cases x <;> exact h

theorem Closed.translateAndLock (h : Closed P) {s : State} (hs : P s) (i : Bool) (m : Word) :
    (translateAndLock i m s).All P := by
  unfold Machine.translateAndLock
  split
  · trivial
  · split
    · exact hs
    · refine Acc.All.lockAbort ?_
      refine (h.walk hs m).bind fun e s1 h1 => ?_
      exact (Closed.checkAccess h1 e m _ _).bind fun _ s2 h2 => h.setTlb h2 _ _

/-! ## Data caches and data accesses -/

theorem Closed.setDataCache (h : Closed P) {s : State} (hs : P s) (m : Bool) (c : Cache) : P (s.setDataCache m c) := by
  unfold State.setDataCache
  split
  · exact h.minid _ _ hs
  · exact h.dcache _ _ hs

theorem Closed.freeLoad (h : Closed P) {s : State} (hs : P s) (n : Nat) : (freeLoad n s).All P := h.draw hs _

theorem Closed.evictHalf (h : Closed P) {s : State} (hs : P s) (l : CacheLine) (hi : Bool) :
    (evictHalf l hi s).All P := h.busWrite (h.noteOverwritten (h.note hs _) _ _) _ _ _ _

theorem Closed.evict (h : Closed P) {s : State} (hs : P s) (l : CacheLine) : (evict l s).All P := by
  unfold Machine.evict
  have h1 : (if l.dirtyLo = true then Machine.evictHalf l false s else Acc.ok () s).All P := by
    split
    · exact h.evictHalf hs _ _
    · exact hs
  refine h1.bind fun _ s1 hs1 => ?_
  split
  · exact h.evictHalf hs1 _ _
  · exact hs1

theorem Closed.evictVictim (h : Closed P) {s : State} (hs : P s) (l : Option CacheLine) :
    (evictVictim l s).All P := by
  unfold Machine.evictVictim
  split
  · split
    · exact h.evict hs _
    · exact hs
  · exact hs

theorem Closed.allocateLine (h : Closed P) {s : State} (hs : P s) (m : Bool) (x : Xlat) (a : Word)
    (d : Vector Byte 32) : (allocateLine m x a d s).All P := by
  unfold Machine.allocateLine
  dsimp only
  refine (h.evictVictim hs _).bind fun _ s1 h1 => ?_
  exact h.setDataCache h1 _ _

theorem Closed.fillLine (h : Closed P) {s : State} (hs : P s) (x : Xlat) (a : Word) : (fillLine x a s).All P := by
  unfold Machine.fillLine
  split
  · trivial
  · refine (h.busRead hs _ _ _ _).bind fun r s1 h1 => ?_
    split
    · exact h.pend h1 _
    · exact (h.allocateLine h1 _ _ _ _).bind fun _ s2 h2 => h2

theorem Closed.noteAccess (h : Closed P) {s : State} (hs : P s) (x : Xlat) : P (s.noteAccess x) := by
  unfold State.noteAccess
  split
  · exact h.note (h.note hs _) _
  · exact h.note hs _

theorem Closed.readLine (h : Closed P) {s : State} (hs : P s) (l : CacheLine) (a : Word) (n : Nat) :
    (readLine l a n s).All P := by
  unfold Machine.readLine
  split
  · exact hs
  · exact h.freeLoad (h.pend hs _) _

theorem Closed.dataRead (h : Closed P) {s : State} (hs : P s) (x : Xlat) (a : Word) (n : Nat) :
    (dataRead x a n s).All P := by
  have h0 := h.noteAccess hs x
  unfold Machine.dataRead
  split
  · trivial
  · dsimp only
    split
    · exact h.readLine h0 _ _ _
    · split
      · refine (h.fillLine (h.note h0 _) _ _).bind fun r s1 h1 => ?_
        split
        · exact h.readLine h1 _ _ _
        · exact h.freeLoad h1 _
      · refine (h.busRead (h.note h0 _) _ _ _ _).bind fun r s1 h1 => ?_
        split
        · exact h1
        · exact h.freeLoad (h.pend h1 _) _

theorem Closed.dataWrite (h : Closed P) {s : State} (hs : P s) (x : Xlat) (a : Word) (bs : List Byte) :
    (dataWrite x a bs s).All P := by
  have h0 := h.noteOverwritten (h.noteAccess hs x) x.pa bs.length
  unfold Machine.dataWrite
  split
  · trivial
  · dsimp only
    split
    · split
      · exact h.busWrite (h.setDataCache h0 _ _) _ _ _ _
      · exact h.setDataCache h0 _ _
    · split
      · refine (h.fillLine (h.note h0 _) _ _).bind fun r s1 h1 => ?_
        split
        · exact h.setDataCache h1 _ _
        · exact h1
      · exact h.busWrite (h.note h0 _) _ _ _ _

theorem Closed.noteBreak (h : Closed P) {s : State} (hs : P s) (a : Word) (n : Nat) (st : Bool) :
    P (s.noteBreak a n st) := by
  unfold State.noteBreak
  split
  · exact h.scratch _ _ hs
  · exact hs

theorem Acc.All.faultAt {x : Acc α} (hx : x.All P) (m : Word) : (x.faultAt m).All P := by
  cases x <;> exact hx

theorem Closed.translateData (h : Closed P) {s : State} (hs : P s) (a va : Word) (w pr : Bool) :
    (translateData a va w pr s).All P := (h.translate hs _ _ _ _).faultAt _

theorem Closed.alignData {s : State} (hs : P s) (n : Nat) (va : Word) : (alignData n va s).All P := by
  unfold Machine.alignData alignmentAbort
  repeat' split
  all_goals first | exact hs | trivial

theorem Closed.alignDouble {s : State} (hs : P s) (va : Word) : (alignDouble va s).All P := by
  unfold Machine.alignDouble alignmentAbort
  repeat' split
  all_goals first | exact hs | trivial

/-- A read of memory. -/
theorem Closed.readMem (h : Closed P) {s : State} (hs : P s) (n : Nat) (va : Word) (pr : Bool) :
    (readMem n va pr s).All P := by
  unfold Machine.readMem
  refine (Closed.alignData hs n va).bind fun a s1 h1 => ?_
  refine (h.translateData h1 _ _ _ _).bind fun x s2 h2 => ?_
  exact (h.dataRead (h.noteBreak h2 _ _ _) _ _ _).bind fun bs s3 h3 => h3

theorem Closed.checkStore (h : Closed P) {s : State} (hs : P s) (n : Nat) (va : Word) (pr : Bool) :
    (checkStore n va pr s).All P := by
  unfold Machine.checkStore
  refine (Closed.alignData hs n va).bind fun a s1 h1 => ?_
  exact (h.translateData h1 _ _ _ _).bind fun x s2 h2 => h2

theorem Closed.storeChecked (h : Closed P) {s : State} (hs : P s) (n : Nat) (v : Word) (p : Word × Xlat) :
    (storeChecked n v p s).All P := h.dataWrite (h.noteBreak hs _ _ _) _ _ _

/-- A write of memory. -/
theorem Closed.writeMem (h : Closed P) {s : State} (hs : P s) (n : Nat) (va v : Word) (pr : Bool) :
    (writeMem n va v pr s).All P := (h.checkStore hs n va pr).bind fun _ _ h1 => h.storeChecked h1 _ _ _

theorem Closed.readWord (h : Closed P) {s : State} (hs : P s) (va : Word) (pr : Bool) :
    (readWord va pr s).All P := (h.readMem hs 4 va pr).bind fun _ _ h1 => h1

theorem Closed.setLock (h : Closed P) {s : State} (hs : P s) (l : BusLock) : P (s.setLock l) := h.scratch _ _ hs

theorem Closed.swapMem (h : Closed P) {s : State} (hs : P s) (n : Nat) (va v : Word) :
    (swapMem n va v s).All P := by
  unfold Machine.swapMem
  refine (Closed.alignData hs n va).bind fun a s1 h1 => ?_
  refine (h.translateData h1 _ _ _ _).bind fun x s2 h2 => ?_
  refine (h.dataRead (h.setLock (h.noteBreak h2 _ _ _) _) _ _ _).bind fun bs s3 h3 => ?_
  exact (h.dataWrite h3 _ _ _).bind fun _ s4 h4 => h.setLock h4 _

theorem Closed.preload (h : Closed P) {s : State} (hs : P s) (va : Word) : (preload va s).All P := by
  unfold Machine.preload
  dsimp only
  split
  · exact hs
  · split
    · split
      · split
        · split
          · exact (h.fillLine (h.note (h.note hs _) _) _ _).bind fun _ s1 h1 => h1
          · exact hs
        · exact hs
      · exact hs
    · exact hs

theorem Closed.storeWords (h : Closed P) (pr : Bool) (vs : List Word) :
    ∀ {s : State} (_ : P s) (a : Word), (storeWords pr vs a s).All P := by
  induction vs with
  | nil => intro s hs a; exact hs
  | cons v vs ih =>
    intro s hs a
    exact (h.writeMem hs 4 a v pr).bind fun _ s1 h1 => ih h1 _

/-! ## Cache functions -/

theorem Closed.cleanDLine (h : Closed P) {s : State} (hs : P s) (a : Word) : (cleanDLine a s).All P := by
  unfold Machine.cleanDLine
  split
  · exact hs
  · rename_i mini l _
    have h1 : P (if l.bad = 0 then s else s.pend .parity) := by
      split
      · exact hs
      · exact h.pend hs _
    exact (h.evict h1 l).bind fun _ s1 hs1 => h.setDataCache hs1 _ _

theorem Closed.lineAllocate (h : Closed P) {s : State} (hs : P s) (rd : Word) : (lineAllocate rd s).All P := by
  have ht : (translateUnchecked (rd &&& 0xFFFFFFE0) s).All P := by
    unfold translateUnchecked
    split
    · exact hs
    · split
      · exact (h.walk (h.note hs _) _).bind fun e s1 h1 => h.setTlb h1 _ _
      · exact hs
      · trivial
  unfold Machine.lineAllocate
  refine ht.bind fun x s1 h1 => ?_
  split
  · exact h1
  · exact (h.allocateLine (h.draw h1 _) _ _ _ _).bind fun _ s2 h2 => h2

/-! ## The instruction side -/

theorem Closed.icacheStep (h : Closed P) {s : State} (hs : P s) (c : Cache) (p : LockPhase) :
    P { s with icache := c, lockPhase := p } := h.lockPhase _ p (h.icache s c hs)

theorem Closed.fetchPartly (h : Closed P) {s : State} (hs : P s) (x : Xlat) (a : Word) : (fetchPartly x a s).All P := by
  unfold Machine.fetchPartly
  dsimp only
  split
  · exact h.fetchBufs s _ hs
  · exact h.fetchBufs s _ hs

/-- All that `fetchPartly` can do: the words that came are in a fetch buffer, and the instruction is delivered if it is one of
them, else it takes a prefetch abort. -/
theorem fetchPartly_cases (x : Xlat) (a : Word) (s : State) : ∃ f,
    let d := lineOfBytes (s.readBytes (x.pa &&& 0xFFFFFFE0) 32 x.p)
    fetchPartly x a s = (if (s.goodWords x.pa x.p).getLsbD (offsetOf a / 4) then .ok (s.instrOf d a) { s with fetchBufs := f }
      else fetchAbort .external a { s with fetchBufs := f }) := ⟨_, rfl⟩

theorem Closed.fetchMiss (h : Closed P) {s : State} (hs : P s) (x : Xlat) (a : Word) : (fetchMiss x a s).All P := by
  unfold Machine.fetchMiss
  refine (h.busRead (h.note hs _) _ _ _ _).bind fun r s1 h1 => ?_
  split
  · exact h.fetchPartly h1 _ _
  · dsimp only
    rename_i bs _
    have h2 := fun k => h.fetchBufs s1 (s1.fetchBufs.fill a (lineOfBytes bs) k) h1
    split
    · exact h.icacheStep (h2 _) _ _
    · exact h2 _

theorem Closed.fetchHeld (h : Closed P) {s : State} (hs : P s) (x : Xlat) (a : Word) : (fetchHeld x a s).All P := by
  unfold Machine.fetchHeld
  split
  · split
    · exact hs
    · exact hs
  · split
    · exact hs
    · exact h.fetchMiss hs _ _

/-- All that `changedWord` can do: the word found, or where the code was changed one of `codeChoices` and a free value drawn. -/
theorem changedWord_cases (pa : Word) (w : Nat) (s : State) :
    (s.codeChanged pa s.isize.toNat = false ∧ changedWord pa w s = .ok w s)
    ∨ (s.codeChanged pa s.isize.toNat = true ∧ ∃ v ∈ s.codeChoices pa w, changedWord pa w s = .ok v (s.draw 1)) := by
  cases hc : s.codeChanged pa s.isize.toNat
  · exact .inl ⟨rfl, if_neg (by simp [hc])⟩
  · have hl : s.fresh.toNat % (s.codeChoices pa w).length < (s.codeChoices pa w).length :=
      Nat.mod_lt _ (by simp [State.codeChoices])
    refine .inr ⟨rfl, _, ?_, if_pos hc⟩
    rw [List.getD_eq_getElem _ _ hl]
    exact List.getElem_mem hl

theorem Closed.changedWord (h : Closed P) {s : State} (hs : P s) (pa : Word) (w : Nat) : (changedWord pa w s).All P := by
  obtain ⟨-, e⟩ | ⟨-, v, -, e⟩ := changedWord_cases pa w s
  · rw [e]; exact hs
  · rw [e]; exact h.draw hs 1

theorem Closed.fetchAt (h : Closed P) {s : State} (hs : P s) (x : Xlat) (a : Word) : (fetchAt x a s).All P := by
  unfold Machine.fetchAt
  split
  · exact h.fetchHeld hs x a
  · exact (h.fetchHeld hs x a).bind fun w _ h1 => h.changedWord h1 _ w

theorem Closed.fetchWord (h : Closed P) {s : State} (hs : P s) : (fetchWord s).All P := by
  have hat : ∀ (x : Xlat) (a : Word) {t : State}, P t → (Machine.fetchAt x a t).All P := fun x a _ ht => h.fetchAt ht x a
  unfold Machine.fetchWord
  dsimp only
  split
  · exact hat _ _ hs
  · have htr := h.translate hs true s.fetchAddress false s.priv
    split
    · rename_i e; exact hat _ _ (htr.ok e)
    · rename_i e
      split
      · exact htr.abort e
      · exact htr.abort e
    · trivial
    · trivial

theorem Closed.staleWord (h : Closed P) {s : State} (hs : P s) (w : Nat) : (staleWord w s).All P := by
  unfold Machine.staleWord
  split
  · split
    · split
      · exact h.draw hs _
      · exact hs
    · exact hs
  · exact hs

/-- A fetch. -/
theorem Closed.fetch (h : Closed P) {s : State} (hs : P s) : (fetch s).All P :=
  (h.fetchWord hs).bind fun w _ h1 => h.staleWord h1 w

theorem Closed.fetchAndLockI (h : Closed P) {s : State} (hs : P s) (rd : Word) : (fetchAndLockI rd s).All P := by
  unfold Machine.fetchAndLockI
  dsimp only
  split
  · trivial
  · have htr := h.translate hs true (rd &&& 0xFFFFFFE0) false s.priv
    split
    · rename_i e
      split
      · trivial
      · refine (h.busRead (h.note (htr.ok e) _) _ _ _ _).bind fun r s2 h2 => ?_
        split
        · exact h2
        · exact h.icacheStep h2 _ _
    · rename_i e; exact htr.abort e
    · trivial
    · trivial

/-! ## What no access changes -/

theorem SameCore.refl (s : State) : SameCore s s := by constructor <;> rfl

theorem closed_sameCore (s : State) : Closed (SameCore s) := by
  constructor
  case mem =>
    intro t pa b h
    exact
      ⟨h.regs, h.spsrs, h.cpsr, h.pc, h.acc0, h.synced, h.cp15, h.minic, h.btb, h.pmu, h.power, h.dbg, h.trace, h.icu,
      h.jtag, h.resetPin, h.inReset, h.bus32, h.hostEvents, h.abortRegions, h.cwf, h.boardBus32, h.pllcfg⟩
  all_goals
    intro t x h
    exact
      ⟨h.regs, h.spsrs, h.cpsr, h.pc, h.acc0, h.synced, h.cp15, h.minic, h.btb, h.pmu, h.power, h.dbg, h.trace, h.icu,
      h.jtag, h.resetPin, h.inReset, h.bus32, h.hostEvents, h.abortRegions, h.cwf, h.boardBus32, h.pllcfg⟩

theorem SameCore.mode {s t : State} (h : SameCore s t) : t.mode = s.mode := by simp [State.mode, h.cpsr]

theorem SameCore.thumb {s t : State} (h : SameCore s t) : t.thumb = s.thumb := by simp [State.thumb, h.cpsr]

theorem SameCore.isize {s t : State} (h : SameCore s t) : t.isize = s.isize := by simp only [State.isize, h.thumb]

theorem SameCore.priv {s t : State} (h : SameCore s t) : t.priv = s.priv := by simp only [State.priv, h.mode]

theorem SameCore.trans {s t u : State} (h : SameCore s t) (k : SameCore t u) : SameCore s u := by
  constructor
  · exact k.regs.trans h.regs
  · exact k.spsrs.trans h.spsrs
  · exact k.cpsr.trans h.cpsr
  · exact k.pc.trans h.pc
  · exact k.acc0.trans h.acc0
  · exact k.synced.trans h.synced
  · exact k.cp15.trans h.cp15
  · exact k.minic.trans h.minic
  · exact k.btb.trans h.btb
  · exact k.pmu.trans h.pmu
  · exact k.power.trans h.power
  · exact k.dbg.trans h.dbg
  · exact k.trace.trans h.trace
  · exact k.icu.trans h.icu
  · exact k.jtag.trans h.jtag
  · exact k.resetPin.trans h.resetPin
  · exact k.inReset.trans h.inReset
  · exact k.bus32.trans h.bus32
  · exact k.hostEvents.trans h.hostEvents
  · exact k.abortRegions.trans h.abortRegions
  · exact k.cwf.trans h.cwf
  · exact k.boardBus32.trans h.boardBus32
  · exact k.pllcfg.trans h.pllcfg

/-- The memory list stays in any set of lists that writing a byte keeps. -/
theorem closed_mem {Q : List Host.Cell → Prop} (hQ : ∀ m (a : Word) b, Q m → Q (memSet m a.toNat b)) :
    Closed fun s => Q s.mem := by
  constructor
  case mem => intro s pa b h; exact hQ _ _ _ h
  all_goals intro s x h; exact h

end Sys2Proof.Machine
end

