-- ==== Sys2Proof/Laws/Memory.lean ====
section
/-!
SUPPORT. Memory: reading back what was written, every other byte unchanged, the canonical form kept by every memory
operation; byte order there and back.
-/

namespace Sys2Proof.Machine

/-! ## One byte -/

theorem memGet_below {m : List Host.Cell} : ∀ {lo a : Nat}, memWfFrom lo m = true → a < lo → memGet m a = unlistedByte := by
  induction m with
  | nil => intro lo a _ _; rfl
  | cons c t ih =>
    obtain ⟨k, b⟩ := c
    intro lo a h ha
    simp only [memWfFrom, Bool.and_eq_true, decide_eq_true_eq] at h
    have hk : k ≠ a := by omega
    simp only [memGet, hk, if_false]
    exact ih h.2 (by omega)

theorem memWfFrom_mono {m : List Host.Cell} {lo lo' : Nat} (h : memWfFrom lo m = true) (hl : lo' ≤ lo) :
    memWfFrom lo' m = true := by
  cases m with
  | nil => rfl
  | cons c t =>
    obtain ⟨k, b⟩ := c
    simp only [memWfFrom, Bool.and_eq_true, decide_eq_true_eq] at h ⊢
    exact ⟨⟨⟨by omega, h.1.1.2⟩, h.1.2⟩, h.2⟩

/-- Writing a byte keeps the canonical form. -/
theorem memWfFrom_memSet {m : List Host.Cell} : ∀ {lo a : Nat} (v : Byte), memWfFrom lo m = true → lo ≤ a → a < 2 ^ 32 →
    memWfFrom lo (memSet m a v) = true := by
  induction m with
  | nil =>
    intro lo a v _ hl ha
    simp only [memSet]
    split
    · rfl
    · rename_i hv
      simpa [memWfFrom, hl, hv] using ha
  | cons c t ih =>
    obtain ⟨k, b⟩ := c
    intro lo a v h hl ha
    have h' := h
    simp only [memWfFrom, Bool.and_eq_true, decide_eq_true_eq] at h'
    obtain ⟨⟨⟨h1, h2⟩, h3⟩, h4⟩ := h'
    simp only [memSet]
    split
    · split
      · exact h
      · rename_i hak hv
        simp only [memWfFrom, Bool.and_eq_true, decide_eq_true_eq]
        exact ⟨⟨⟨hl, ha⟩, by simpa using hv⟩, ⟨⟨⟨by omega, h2⟩, h3⟩, h4⟩⟩
    · split
      · split
        · exact memWfFrom_mono h4 (by omega)
        · rename_i _ hak hv
          simp only [memWfFrom, Bool.and_eq_true, decide_eq_true_eq]
          exact ⟨⟨⟨hl, ha⟩, by simpa using hv⟩, by rw [hak]; exact h4⟩
      · simp only [memWfFrom, Bool.and_eq_true, decide_eq_true_eq]
        exact ⟨⟨⟨h1, h2⟩, h3⟩, ih v h4 (by omega) ha⟩

/-- Reading a byte after writing one. -/
theorem memGet_memSet {m : List Host.Cell} : ∀ {lo : Nat} (a : Nat) (v : Byte) (a' : Nat), memWfFrom lo m = true →
    memGet (memSet m a v) a' = if a = a' then v else memGet m a' := by
  induction m with
  | nil =>
    intro lo a v a' _
    simp only [memSet]
    split
    · rename_i hv; simp [memGet, hv]
    · simp [memGet]
  | cons c t ih =>
    obtain ⟨k, b⟩ := c
    intro lo a v a' h
    have h' := h
    simp only [memWfFrom, Bool.and_eq_true, decide_eq_true_eq] at h'
    obtain ⟨⟨⟨h1, h2⟩, h3⟩, h4⟩ := h'
    simp only [memSet]
    split
    · rename_i hak
      split
      · rename_i hv
        by_cases e : a = a'
        · subst e
          have hk : k ≠ a := by omega
          simp [memGet, hk, memGet_below h4 (show a < k + 1 by omega), hv]
        · simp [e]
      · by_cases e : a = a' <;> simp [memGet, e]
    · split
      · rename_i hak
        subst hak
        split
        · rename_i hv
          by_cases e : a = a'
          · subst e; simp [memGet_below h4 (Nat.lt_succ_self _), hv]
          · simp [memGet, e]
        · by_cases e : a = a' <;> simp [memGet, e]
      · rename_i hlt hne
        by_cases e : a = a'
        · subst e
          have hk : k ≠ a := fun x => hne x.symm
          simp [memGet, hk, ih a v a h4]
        · by_cases ek : k = a'
          · simp [memGet, ek, e]
          · simp [memGet, ek, ih a v a' h4, e]

/-- Memory is in canonical form. -/
def State.MemOk (s : State) : Prop := memWf s.mem = true

theorem bytesAt_eq_map (s : State) : ∀ (n : Nat) (pa : Word),
    s.bytesAt pa n = (List.range n).map fun i => s.byteAt (pa + BitVec.ofNat 32 i) := by
  intro n
  induction n with
  | zero => intro pa; rfl
  | succ n ih =>
    intro pa
    rw [State.bytesAt, ih, List.range_succ_eq_map]
    simp only [List.map_cons, List.map_map, BitVec.ofNat_eq_ofNat, BitVec.add_zero]
    congr 1
    apply List.map_congr_left
    intro i _
    simp only [Function.comp]
    congr 1
    bv_omega

/-- Where no data cache holds unwritten data, only external memory's bytes stand at an address. -/
theorem standingBytes_of_noDirtyLine {s : State} (hd : s.noDirtyLine = true) (pa : Word) (n : Nat) :
    s.standingBytes pa n = [s.bytesAt pa n] := by
  simp only [State.noDirtyLine, Bool.and_eq_true, List.all_eq_true, Bool.not_eq_true'] at hd
  have hn : (s.dcache.lines ++ s.minid.lines).filter (fun l => l.dirtyAt pa) = [] := by
    rw [List.filter_eq_nil_iff]
    intro l hl
    rcases List.mem_append.mp hl with hl | hl
    · simp [CacheLine.dirtyAt, hd.1 l hl]
    · simp [CacheLine.dirtyAt, hd.2 l hl]
  simp [State.standingBytes, hn]

/-- Bytes that no write reached since the instruction cache was invalidated are not `codeChanged`, when no data cache holds
unwritten data. -/
theorem codeChanged_of_synced {s : State} (h : s.synced = s.mem) (ho : s.overwritten = []) (hd : s.noDirtyLine = true) (pa : Word)
    (n : Nat) : s.codeChanged pa n = false := by
  have e : s.syncedBytes pa n = s.bytesAt pa n := by
    simp only [State.syncedBytes, bytesAt_eq_map, State.byteAt, h]
  simp [State.codeChanged, State.codeBytes, standingBytes_of_noDirtyLine hd, State.overwrittenBytes, e, ho]

/-- Memory's own bytes are among those a fetch of changed code may deliver, whatever a data cache holds. -/
theorem bytesAt_mem_codeBytes (s : State) (pa : Word) (n : Nat) : s.bytesAt pa n ∈ s.codeBytes pa n := by
  simp [State.codeBytes, State.standingBytes]

/-- A write remembers each word that stands where it goes: whatever is stored there later, a fetch of it may still deliver that
word. -/
theorem mem_overwritten_noteOverwritten (s : State) {pa : Word} {n k : Nat} {bs : List Byte} (hk : k ∈ wordsOf pa n)
    (hb : bs ∈ s.standingBytes (BitVec.ofNat 32 (4 * k)) 4) : (k, bs) ∈ (s.noteOverwritten pa n).overwritten := by
  refine List.mem_union_iff.mpr (.inl (List.mem_flatMap.mpr ⟨k, hk, List.mem_map.mpr ⟨bs, hb, rfl⟩⟩))

theorem memOk_setByteAt {s : State} (h : s.MemOk) (pa : Word) (b : Byte) : (s.setByteAt pa b).MemOk :=
  memWfFrom_memSet b h (Nat.zero_le _) pa.isLt

/-- Every memory access keeps the canonical form: see `Closed`. -/
theorem closed_memOk : Closed State.MemOk := by
  constructor
  case mem => intro s pa b h; exact memOk_setByteAt h pa b
  all_goals intro s x h; exact h

theorem reset_memOk : State.reset.MemOk := rfl

theorem byteAt_setByteAt {s : State} (h : s.MemOk) (pa : Word) (b : Byte) (pa' : Word) :
    (s.setByteAt pa b).byteAt pa' = if pa = pa' then b else s.byteAt pa' := by
  simp only [State.byteAt, State.setByteAt_mem]
  rw [memGet_memSet _ _ _ h]
  simp [BitVec.toNat_inj]

/-- A byte that no other master is to write is as it was after what they write. -/
theorem byteAt_othersWrite {s : State} (h : s.MemOk) {pa : Word} (hp : s.othersMayWrite pa = false) :
    s.othersWrite.byteAt pa = s.byteAt pa := by
  have hf : ∀ (ws : List (Word × Byte)) (t : State), t.MemOk → (∀ w ∈ ws, w.1 ≠ pa) →
      (ws.foldl (fun t w => t.otherWrite w.1 w.2) t).byteAt pa = t.byteAt pa := by
    intro ws
    induction ws with
    | nil => intro t _ _; rfl
    | cons w ws ih =>
      intro t ht hw
      have h1 : (t.noteOverwritten w.1 1).MemOk := ht
      have h2 : (t.otherWrite w.1 w.2).byteAt pa = t.byteAt pa :=
        (byteAt_setByteAt h1 _ _ _).trans (if_neg (hw w List.mem_cons_self))
      exact (ih _ (memOk_setByteAt h1 _ _) fun v hv => hw v (List.mem_cons_of_mem _ hv)).trans h2
  unfold State.othersWrite
  split
  · rfl
  · rename_i ws rest hb
    refine hf _ _ h fun w hw e => ?_
    have hm := (List.mem_filter.mp hw).1
    simp only [State.othersMayWrite, hb, List.any_cons, Bool.or_eq_false_iff, List.any_eq_false] at hp
    exact hp.1 w hm (by simp [e])

/-! ## Several bytes -/

/-- The bytes outside those written are as they were. -/
theorem byteAt_setBytesAt_other (bs : List Byte) : ∀ {s : State} (_ : s.MemOk) (pa a : Word),
    bs.length ≤ (a - pa).toNat → (s.setBytesAt pa bs).byteAt a = s.byteAt a := by
  induction bs with
  | nil => intro s _ pa a _; rfl
  | cons b bs ih =>
    intro s h pa a ha
    have hne : pa ≠ a := by
      rintro rfl; simp at ha
    have hs : bs.length ≤ (a - (pa + 1)).toNat := by
      simp only [List.length_cons] at ha
      bv_omega
    rw [State.setBytesAt, ih (memOk_setByteAt h _ _) _ _ hs, byteAt_setByteAt h, if_neg hne]

/-- The bytes written read back. -/
theorem byteAt_setBytesAt_self (bs : List Byte) : ∀ {s : State} (_ : s.MemOk) (pa : Word) (i : Nat) (hi : i < bs.length),
    bs.length ≤ 2 ^ 32 → (s.setBytesAt pa bs).byteAt (pa + BitVec.ofNat 32 i) = bs[i] := by
  induction bs with
  | nil => intro s _ pa i hi; simp at hi
  | cons b bs ih =>
    intro s h pa i hi hl
    simp only [List.length_cons] at hi hl
    rw [State.setBytesAt]
    cases i with
    | zero =>
      rw [byteAt_setBytesAt_other bs (memOk_setByteAt h _ _)]
      · simp [byteAt_setByteAt h]
      · bv_omega
    | succ i =>
      have e : pa + BitVec.ofNat 32 (i + 1) = (pa + 1) + BitVec.ofNat 32 i := by bv_omega
      rw [e, ih (memOk_setByteAt h _ _) _ i (by omega) (by omega)]
      simp

/-- Bytes read after bytes written at the same address. -/
theorem bytesAt_setBytesAt {s : State} (h : s.MemOk) (pa : Word) (bs : List Byte) (hl : bs.length ≤ 2 ^ 32) :
    (s.setBytesAt pa bs).bytesAt pa bs.length = bs := by
  rw [bytesAt_eq_map]
  apply List.ext_getElem
  · simp
  · intro i h1 h2
    simp only [List.getElem_map, List.getElem_range]
    exact byteAt_setBytesAt_self bs h pa i h2 hl

/-! ## Byte order -/

theorem leBytes_length : ∀ n v, (leBytes n v).length = n := by
  intro n; induction n with
  | zero => intro v; rfl
  | succ n ih => intro v; simp [leBytes, ih]

theorem leValue_leBytes : ∀ n v, leValue (leBytes n v) = v % 256 ^ n := by
  intro n
  induction n with
  | zero => intro v; simp [leBytes, leValue, Nat.mod_one]
  | succ n ih =>
    intro v
    simp only [leBytes, leValue, ih, BitVec.toNat_ofNat]
    rw [show 256 ^ (n + 1) = 256 * 256 ^ n by ring, Nat.mod_mul]

theorem disassemble_length (big : Bool) (n v : Nat) : (disassemble big n v).length = n := by
  unfold disassemble; split <;> simp [leBytes_length]

/-- A value stored in a byte order reads back in the same order. -/
theorem assemble_disassemble (big : Bool) (n v : Nat) : assemble big (disassemble big n v) = v % 256 ^ n := by
  cases big <;> simp [assemble, disassemble, leValue_leBytes]

end Sys2Proof.Machine
end

