-- ==== Sys2Proof/Laws/Exec.lean ====
section
/-!
SUPPORT. What each shared operation answers, said once: registers, conditions and refused registers, writes of results,
the arithmetic of the flags, exceptions and returns, accesses. The meanings are stated over these.
-/

namespace Sys2Proof.Machine

/-! ## Registers -/

theorem reg_of_ne {s : State} {r : Reg} (h : r ≠ 15) : s.reg r = s.regs[bankIndex s.mode r] := if_neg h

theorem reg_pc (s : State) : s.reg 15 = s.pcOperand := rfl

theorem setReg_of_ne {s : State} {r : Reg} {v : Word} (h : r ≠ 15) :
    s.setReg r v = { s with regs := s.regs.set (bankIndex s.mode r) v } := if_neg h

theorem setReg_pc (s : State) (v : Word) : s.setReg 15 v = s := rfl

theorem lowReg_ne (r : LowReg) : lowReg r ≠ 15 := by revert r; decide

theorem isize_arm {s : State} (h : s.thumb = false) : s.isize = 4 := by simp [State.isize, h]

theorem isize_thumb {s : State} (h : s.thumb = true) : s.isize = 2 := by simp [State.isize, h]

/-- The bits of an appended word, the widths given as a sum or not. -/
theorem getLsbD_append' {n m k : Nat} (x : BitVec n) (y : BitVec m) (h : n + m = k) (i : Nat) :
    (BitVec.cast h (x ++ y)).getLsbD i = if i < m then y.getLsbD i else x.getLsbD (i - m) := by
  subst h
  simp [BitVec.getLsbD_append]

theorem getLsbD_withNZCV (p : Word) (n z c v : Bool) (i : Nat) (hi : i < 28) :
    (withNZCV p n z c v).getLsbD i = p.getLsbD i := by
  refine (getLsbD_append' (k := 32) (BitVec.ofBool n ++ BitVec.ofBool z ++ BitVec.ofBool c ++ BitVec.ofBool v)
    (p.extractLsb' 0 28) rfl i).trans ?_
  simp [hi]

theorem mode_withNZCV (p : Word) (n z c v : Bool) : modeBits (withNZCV p n z c v) = modeBits p := by
  refine BitVec.eq_of_getLsbD_eq fun i hi => ?_
  simp only [modeBits, BitVec.getLsbD_extractLsb', hi, decide_true, Bool.true_and, Nat.zero_add]
  exact getLsbD_withNZCV p n z c v i (by omega)

/-! ## Conditions and refusals -/

theorem armCond_pass {c : Cond} {s : State} {k : Out} (h : condPassed c s.cpsr = true) : armCond c s k = k := if_pos h

theorem armCond_fail {c : Cond} {s : State} {k : Out} (h : condPassed c s.cpsr = false) :
    armCond c s k = .next { s with pc := s.pc + 4 } := by simp [armCond, h, State.advance]

theorem anyR15_iff (l : List Reg) : anyR15 l = true ↔ 15 ∈ l := by
  simp only [anyR15, List.any_eq_true, beq_iff_eq]
  exact ⟨fun ⟨x, hx, e⟩ => e ▸ hx, fun h => ⟨15, h, rfl⟩⟩

theorem noR15_stop {l : List Reg} {k : Out} (h : 15 ∈ l) : noR15 l k = .refused .r15Operand :=
  if_pos ((anyR15_iff l).2 h)

theorem noR15_run {l : List Reg} {k : Out} (h : 15 ∉ l) : noR15 l k = k :=
  if_neg (mt (anyR15_iff l).1 h)

/-! ## Results -/

theorem writeReg_of_ne {s : State} {rd : Reg} {v : Word} (h : rd ≠ 15) :
    writeReg rd v s = .next (s.wrote rd v s.cpsr s.isize) := by
  rw [writeReg, setReg_of_ne h]; rfl

theorem writeAlu_eq (sb : Bool) (rd : Reg) (r : AluResult) (s : State) :
    writeAlu sb rd r s = if rd = 15 then (if sb then exceptionReturn r.value s else .next (s.jumpKeepState r.value))
      else .next (s.wrote rd r.value (if sb then r.psr else s.cpsr) s.isize) := by
  unfold writeAlu
  split
  · rfl
  · rename_i h; rw [setReg_of_ne h]; rfl

theorem writeFlags_eq (r : AluResult) (s : State) :
    writeFlags r s = .next { s with cpsr := r.psr, pc := s.pc + s.isize } := rfl

theorem jumpKeepState_eq (v : Word) (s : State) : ∃ x, s.jumpKeepState v
    = { s with pc := if s.thumb then v &&& 0xFFFFFFFE else v &&& 0xFFFFFFFC, scratch := x } := ⟨_, rfl⟩

/-- Bits 1:0 of a target are 10: bit 0 clear, bit 1 set. -/
theorem and_three_eq_two (v : Word) : v &&& 3 = 2 ↔ (!v.getLsbD 0 && v.getLsbD 1) = true := by
  have h0 : v.getLsbD 0 = decide (v.toNat % 2 = 1) := by
    rw [BitVec.getLsbD, Nat.testBit_zero]
  have h1 : v.getLsbD 1 = decide (v.toNat / 2 % 2 = 1) := by
    rw [BitVec.getLsbD, Nat.testBit_succ, Nat.testBit_zero]
  have h3 : (v &&& 3).toNat = v.toNat % 4 := by
    rw [BitVec.toNat_and]
    exact Nat.and_two_pow_sub_one_eq_mod v.toNat 2
  rw [h0, h1]
  constructor
  · intro h
    rw [h] at h3
    have : v.toNat % 4 = 2 := h3.symm
    simp
    omega
  · intro h
    apply BitVec.eq_of_toNat_eq
    rw [h3]
    simp at h
    show _ = 2
    omega

theorem branchExchange_run {v : Word} (h : v &&& 3 ≠ 2) (s : State) : ∃ x, branchExchange v s
    = .next { s with cpsr := withT s.cpsr (v.getLsbD 0), pc := v &&& 0xFFFFFFFE, scratch := x } :=
  ⟨_, by rw [branchExchange, if_neg (mt (and_three_eq_two v).2 h)]; rfl⟩

theorem branchExchange_stop {v : Word} (h : v &&& 3 = 2) (s : State) :
    branchExchange v s = .fault .armTargetUnaligned := by
  rw [branchExchange, if_pos ((and_three_eq_two v).1 h)]

/-! ## The arithmetic of the flags (40_arm R382) -/

/-- Signed overflow of an addition is two operands of one sign and a result of the other. -/
theorem addWithCarry_ovf (x y : Word) (c : Bool) : (addWithCarry x y c).ovf
    = ((x.msb == y.msb) && ((addWithCarry x y c).value.msb != x.msb)) := by
  have hx := x.isLt
  have hy := y.isLt
  have hc : c.toNat ≤ 1 := by cases c <;> decide
  simp only [addWithCarry]
  generalize c.toNat = k at *
  rw [Bool.eq_iff_iff]
  simp only [BitVec.msb_eq_decide, BitVec.toInt_eq_toNat_cond, BitVec.toNat_ofNat, Bool.and_eq_true, bne_iff_ne,
    beq_iff_eq, ne_eq, decide_eq_decide, Bool.not_eq_true', decide_eq_false_iff_not]
  omega

theorem addWithCarry_value (x y : Word) (c : Bool) :
    (addWithCarry x y c).value = x + y + (if c then 1 else 0) := by
  apply BitVec.eq_of_toNat_eq
  cases c <;> simp [addWithCarry, BitVec.toNat_add]

theorem addWithCarry_sub (x y : Word) (c : Bool) :
    (addWithCarry x (~~~y) c).value = x - y - (if c then 0 else 1) := by
  rw [addWithCarry_value]
  cases c <;> simp <;> bv_omega

/-- No borrow in a subtraction done as an addition of the complement. -/
theorem addWithCarry_sub_carry (x y : Word) (c : Bool) :
    (addWithCarry x (~~~y) c).carry = decide (y.toNat + (!c).toNat ≤ x.toNat) := by
  have := x.isLt
  have := y.isLt
  simp only [addWithCarry, BitVec.toNat_not, decide_eq_decide]
  cases c <;> simp <;> omega

/-! ## Exceptions -/

theorem raiseUndef_run {s : State} (h : s.dbg.sds = false) : raiseUndef s = .next { s with
    regs := s.regs.set (bankIndex modeUnd 14) (s.pc + s.isize)
    spsrs := s.spsrs.set 4 s.cpsr
    cpsr := entryCpsr s.cpsr modeUnd false
    pc := s.vectorBase + 4
    scratch := { s.scratch with flow := .exception 1 false, dataBreak := false } } := by
  rw [raiseUndef, if_neg (by simp [h])]; rfl

theorem raiseSwi_run {s : State} (h : s.dbg.sds = false) : raiseSwi s = .next { s with
    regs := s.regs.set (bankIndex modeSvc 14) (s.pc + s.isize)
    spsrs := s.spsrs.set 2 s.cpsr
    cpsr := entryCpsr s.cpsr modeSvc false
    pc := s.vectorBase + 8
    scratch := { s.scratch with
      flow := .exception 2 false, dataBreak := false
      events := if s.mode = modeSvc then 0x0D :: s.scratch.events else s.scratch.events } } := by
  rw [raiseSwi, if_neg (by simp [h])]
  by_cases hm : s.mode = modeSvc <;> simp [hm] <;> rfl

theorem mode_setBit (p : Word) (i : Nat) (hi : 5 ≤ i) (b : Bool) : modeBits (setBit p i b) = modeBits p := by
  refine BitVec.eq_of_getLsbD_eq fun j hj => ?_
  have hne : j ≠ i := by omega
  have h32 : j < 32 := by omega
  cases b <;> simp [modeBits, setBit, hne, h32]

theorem mode_withMode (p : Word) (m : BitVec 5) : modeBits (withMode p m) = m := by
  refine BitVec.eq_of_getLsbD_eq fun j hj => ?_
  simp only [modeBits, BitVec.getLsbD_extractLsb', hj, decide_true, Bool.true_and, Nat.zero_add]
  refine (getLsbD_append' (k := 32) (p.extractLsb' 5 27) m rfl j).trans ?_
  simp [hj]

theorem mode_entryCpsr (p : Word) (m : BitVec 5) (f : Bool) : modeBits (entryCpsr p m f) = m := by
  unfold entryCpsr
  cases f <;> simp [mode_setBit, mode_withMode]

theorem exceptionReturn_run {s : State} {p : Word} (h : s.spsr = some p) (hl : modeLegal (modeBits p) = true)
    (hd : modeBits p ≠ modeDbg) (v : Word) : ∃ x, exceptionReturn v s = .next { s with
      cpsr := p &&& psrMask
      dbg := { s.dbg with sds := false }
      pc := if bitT p then v &&& 0xFFFFFFFE else v &&& 0xFFFFFFFC
      scratch := x } := by
  have : returnPsr s = .ok p := by simp [returnPsr, h, hl, hd]
  exact ⟨_, by rw [exceptionReturn, this]⟩

/-! ## R13_dbg in Special Debug State -/

/-- Outside Special Debug State, or for an instruction that may use R13_dbg, nothing. -/
theorem hide13_of_kept {i : Instr} {s : State} (h : s.dbg.sds = false ∨ keepsScratch13 i = true) : s.hide13 i = s := by
  rcases h with h | h <;> simp [State.hide13, h]

theorem hide13_of_lost {i : Instr} {s : State} (h : s.dbg.sds = true) (hk : keepsScratch13 i = false) :
    s.hide13 i = s.scramble13 := by simp [State.hide13, h, hk]

/-- Only R13_dbg and the count of free values change. -/
theorem hide13_eq (i : Instr) (s : State) : ∃ v n, s.hide13 i
    = { s with regs := s.regs.set (bankIndex modeDbg 13) v, freeCount := n } := by
  unfold State.hide13
  split
  · exact ⟨_, _, rfl⟩
  · exact ⟨s.regs[bankIndex modeDbg 13], s.freeCount, by simp⟩

/-! ## Accesses -/

theorem Acc.finish_ok {α : Type} (v : α) (t : State) (c : Bool) (wb : State → State) (k : α → State → Out) :
    (Acc.ok v t).finish c wb k = k v t := rfl

theorem Acc.finish_abort {α : Type} {t : State} (h : t.dbg.sds = false) (f : DataFault) (c : Bool) (wb : State → State)
    (k : α → State → Out) : (Acc.abort f t).finish c wb k = .next (takeDataAbort f c t) := if_neg (by simp [h])

theorem readMem_sameCore {n : Nat} {va v : Word} {priv : Bool} {s t : State} (h : readMem n va priv s = .ok v t) :
    SameCore s t := ((closed_sameCore s).readMem (SameCore.refl s) n va priv).ok h

theorem writeMem_sameCore {n : Nat} {va v : Word} {priv : Bool} {s t : State} (h : writeMem n va v priv s = .ok () t) :
    SameCore s t := ((closed_sameCore s).writeMem (SameCore.refl s) n va v priv).ok h

end Sys2Proof.Machine
end

