-- ==== Sys2Proof/Laws/Transfer.lean ====
section
/-!
SUPPORT. What the transfers that loads and stores share answer when their accesses succeed.
-/

namespace Sys2Proof.Machine

/-- The write-back of a base on a state an access left. -/
theorem Addr.apply_of {s t : State} (h : SameCore s t) (a : Addr) (rn : Reg) (hn : a.wb ≠ none → rn ≠ 15) :
    a.apply rn t = { t with regs := s.regsAfterBase rn a.wb } := by
  unfold Addr.apply State.regsAfterBase
  cases hw : a.wb with
  | none => simp only; rw [← h.regs]
  | some w =>
    have := hn (by simp [hw])
    simp only [setReg_of_ne this, h.regs, h.mode]

/-- LDR (43_arm R483). -/
theorem loadWord_ok {s s1 : State} {priv : Bool} {a : Addr} {rn rd : Reg} {v : Word} (hn : a.wb ≠ none → rn ≠ 15)
    (h : readMem 4 a.addr priv s = .ok v s1) (hd : rd ≠ 15) : loadWord priv a rn rd s = .next { s1 with
      regs := (s.regsAfterBase rn a.wb).set (bankIndex s.mode rd) (rotateLoaded a.addr v)
      pc := s.pc + s.isize } := by
  have hc := readMem_sameCore h
  simp only [loadWord, readWord, h, Acc.bind, Acc.finish_ok, writeLoaded, if_neg hd, writeReg, Addr.apply_of hc a rn hn,
    setReg_of_ne hd, State.advance, State.mode, State.isize, State.thumb, hc.cpsr, hc.pc]
  rfl

/-- LDR of the PC (43_arm R483, 10_state R37). -/
theorem loadWord_pc {s s1 : State} {priv : Bool} {a : Addr} {rn : Reg} {v : Word} (hn : a.wb ≠ none → rn ≠ 15)
    (h : readMem 4 a.addr priv s = .ok v s1) : loadWord priv a rn 15 s
      = loadPc (rotateLoaded a.addr v) { s1 with regs := s.regsAfterBase rn a.wb } := by
  have hc := readMem_sameCore h
  simp only [loadWord, readWord, h, Acc.bind, Acc.finish_ok, writeLoaded, if_true, Addr.apply_of hc a rn hn]

/-- A byte or halfword load (43_arm R484, R491 to R493). -/
theorem loadSmall_ok {s s1 : State} {n : Nat} {sg priv : Bool} {a : Addr} {rn rd : Reg} {v : Word}
    (hn : a.wb ≠ none → rn ≠ 15) (h : readMem n a.addr priv s = .ok v s1) (hd : rd ≠ 15) :
    loadSmall n sg priv a rn rd s = .next { s1 with
      regs := (s.regsAfterBase rn a.wb).set (bankIndex s.mode rd)
        (if sg then (v.setWidth (8 * n)).signExtend 32 else (v.setWidth (8 * n)).setWidth 32)
      pc := s.pc + s.isize } := by
  have hc := readMem_sameCore h
  simp only [loadSmall, h, Acc.finish_ok, writeLoaded, if_neg hd, writeReg, Addr.apply_of hc a rn hn, setReg_of_ne hd, State.advance, State.mode,
    State.isize, State.thumb, hc.cpsr, hc.pc]
  rfl

/-- A small load of the PC (43_arm R493, log 53). -/
theorem loadSmall_pc {s s1 : State} {n : Nat} {sg priv : Bool} {a : Addr} {rn : Reg} {v : Word}
    (hn : a.wb ≠ none → rn ≠ 15) (h : readMem n a.addr priv s = .ok v s1) :
    loadSmall n sg priv a rn 15 s
      = loadPc (if sg then (v.setWidth (8 * n)).signExtend 32 else (v.setWidth (8 * n)).setWidth 32)
          { s1 with regs := s.regsAfterBase rn a.wb } := by
  have hc := readMem_sameCore h
  simp only [loadSmall, h, Acc.finish_ok, writeLoaded, if_true, Addr.apply_of hc a rn hn]

/-- A store (43_arm R485, R486, R494). -/
theorem store_ok {s s1 : State} {n : Nat} {v : Word} {priv : Bool} {a : Addr} {rn : Reg} (hn : a.wb ≠ none → rn ≠ 15)
    (h : writeMem n a.addr v priv s = .ok () s1) :
    store n v priv a rn s = .next { s1 with regs := s.regsAfterBase rn a.wb, pc := s.pc + s.isize } := by
  have hc := writeMem_sameCore h
  simp only [store, h, Acc.finish_ok, Addr.apply_of hc a rn hn, State.advance, State.isize, State.thumb, hc.cpsr, hc.pc]
  rfl

end Sys2Proof.Machine
end

