-- ==== Sys2Proof/Tests/Slice0.lean ====
section
/-!
SUPPORT. Tests: the ill-formed terms that WellFormed refuses; one word of every row, written out from the formats of
30_encoding, and the term it decodes to; single steps with the results 95_test_vectors and the rules' own examples give;
for each statement with hypotheses a concrete state and operands that meet them.
-/

namespace Sys2Proof.Tests

open Sys2Proof.Machine

/-! ## WellFormed: a term refused by each check -/

/-- A PLD word as a term of the unallocated unconditional space. -/
theorem test_wf_uncond : (Instr.undefUncond 0x551F000).wf = false := by decide
/-- SWP's bits as a term of the unallocated words with bits 7:4 = 1001. -/
theorem test_wf_undef_mul : (Instr.undefMul .al 0b10000000000000000 0).wf = false := by decide
/-- BX's bits as a term of the remaining miscellaneous space. -/
theorem test_wf_undef_misc : (Instr.undefMisc .al 1 0xFFF 0b0010000).wf = false := by decide
/-- MCRR and MRRC of coprocessor 0 are MAR and MRA. -/
theorem test_wf_two_reg : (Instr.mcrr .al 1 2 0 0 0).wf = false ∧ (Instr.mrrc .al 1 2 0 0 0).wf = false := by decide
/-- P = U = W = 0, N = 1 is MCRR or MRRC, not STC or LDC. -/
theorem test_wf_mode5 : (Instr.ldc .al ⟨false, false, true, false, 1⟩ 0 14 0).wf = false
    ∧ (Instr.stc .al ⟨false, false, true, false, 1⟩ 0 14 0).wf = false := by decide
/-- MIA's bits as an MCR of coprocessor 0. -/
theorem test_wf_mcr : (Instr.mcr .al 1 0 1 0 0 2).wf = false := by decide
/-- A Thumb B(1) has no AL condition. -/
theorem test_wf_thumb_cond : (Instr.tB1 .al 0).wf = false := by decide
/-- PUSH's bits as a term of the remaining Thumb 1011 space. -/
theorem test_wf_thumb_misc : (Instr.tUndefMisc 0x410).wf = false := by decide

/-! ## Decoding: one word of every row -/

/-- R345, immediate shift: cond 000 opcode S Rn Rd shift_imm shift 0 Rm. -/
theorem test_decode_data_processing_shift :
    decodeArm 0b0001_000_0000_0_0101_1010_10110_01_0_0011#32 = some (.andShift .ne false 5 10 ⟨22, .lsr, 3⟩)
    ∧ decodeArm 0b0001_000_0001_1_0101_1010_10110_01_0_0011#32 = some (.eorShift .ne true 5 10 ⟨22, .lsr, 3⟩)
    ∧ decodeArm 0b0001_000_0010_0_0101_1010_10110_01_0_0011#32 = some (.subShift .ne false 5 10 ⟨22, .lsr, 3⟩)
    ∧ decodeArm 0b0001_000_0011_1_0101_1010_10110_01_0_0011#32 = some (.rsbShift .ne true 5 10 ⟨22, .lsr, 3⟩)
    ∧ decodeArm 0b0001_000_0100_0_0101_1010_10110_01_0_0011#32 = some (.addShift .ne false 5 10 ⟨22, .lsr, 3⟩)
    ∧ decodeArm 0b0001_000_0101_1_0101_1010_10110_01_0_0011#32 = some (.adcShift .ne true 5 10 ⟨22, .lsr, 3⟩)
    ∧ decodeArm 0b0001_000_0110_0_0101_1010_10110_01_0_0011#32 = some (.sbcShift .ne false 5 10 ⟨22, .lsr, 3⟩)
    ∧ decodeArm 0b0001_000_0111_1_0101_1010_10110_01_0_0011#32 = some (.rscShift .ne true 5 10 ⟨22, .lsr, 3⟩)
    ∧ decodeArm 0b0001_000_1000_1_0101_0000_10110_01_0_0011#32 = some (.tstShift .ne 5 ⟨22, .lsr, 3⟩)
    ∧ decodeArm 0b0001_000_1001_1_0101_0000_10110_01_0_0011#32 = some (.teqShift .ne 5 ⟨22, .lsr, 3⟩)
    ∧ decodeArm 0b0001_000_1010_1_0101_0000_10110_01_0_0011#32 = some (.cmpShift .ne 5 ⟨22, .lsr, 3⟩)
    ∧ decodeArm 0b0001_000_1011_1_0101_0000_10110_01_0_0011#32 = some (.cmnShift .ne 5 ⟨22, .lsr, 3⟩)
    ∧ decodeArm 0b0001_000_1100_0_0101_1010_10110_01_0_0011#32 = some (.orrShift .ne false 5 10 ⟨22, .lsr, 3⟩)
    ∧ decodeArm 0b0001_000_1101_1_0000_1010_10110_01_0_0011#32 = some (.movShift .ne true 10 ⟨22, .lsr, 3⟩)
    ∧ decodeArm 0b0001_000_1110_0_0101_1010_10110_01_0_0011#32 = some (.bicShift .ne false 5 10 ⟨22, .lsr, 3⟩)
    ∧ decodeArm 0b0001_000_1111_1_0000_1010_10110_01_0_0011#32 = some (.mvnShift .ne true 10 ⟨22, .lsr, 3⟩) := by decide

/-- R345, register shift: cond 000 opcode S Rn Rd Rs 0 shift 1 Rm. -/
theorem test_decode_data_processing_register_shift :
    decodeArm 0b0001_000_0000_0_0101_1010_1001_0_10_1_0011#32 = some (.andRegShift .ne false 5 10 ⟨9, .asr, 3⟩)
    ∧ decodeArm 0b0001_000_0001_1_0101_1010_1001_0_10_1_0011#32 = some (.eorRegShift .ne true 5 10 ⟨9, .asr, 3⟩)
    ∧ decodeArm 0b0001_000_0010_0_0101_1010_1001_0_10_1_0011#32 = some (.subRegShift .ne false 5 10 ⟨9, .asr, 3⟩)
    ∧ decodeArm 0b0001_000_0011_1_0101_1010_1001_0_10_1_0011#32 = some (.rsbRegShift .ne true 5 10 ⟨9, .asr, 3⟩)
    ∧ decodeArm 0b0001_000_0100_0_0101_1010_1001_0_10_1_0011#32 = some (.addRegShift .ne false 5 10 ⟨9, .asr, 3⟩)
    ∧ decodeArm 0b0001_000_0101_1_0101_1010_1001_0_10_1_0011#32 = some (.adcRegShift .ne true 5 10 ⟨9, .asr, 3⟩)
    ∧ decodeArm 0b0001_000_0110_0_0101_1010_1001_0_10_1_0011#32 = some (.sbcRegShift .ne false 5 10 ⟨9, .asr, 3⟩)
    ∧ decodeArm 0b0001_000_0111_1_0101_1010_1001_0_10_1_0011#32 = some (.rscRegShift .ne true 5 10 ⟨9, .asr, 3⟩)
    ∧ decodeArm 0b0001_000_1000_1_0101_0000_1001_0_10_1_0011#32 = some (.tstRegShift .ne 5 ⟨9, .asr, 3⟩)
    ∧ decodeArm 0b0001_000_1001_1_0101_0000_1001_0_10_1_0011#32 = some (.teqRegShift .ne 5 ⟨9, .asr, 3⟩)
    ∧ decodeArm 0b0001_000_1010_1_0101_0000_1001_0_10_1_0011#32 = some (.cmpRegShift .ne 5 ⟨9, .asr, 3⟩)
    ∧ decodeArm 0b0001_000_1011_1_0101_0000_1001_0_10_1_0011#32 = some (.cmnRegShift .ne 5 ⟨9, .asr, 3⟩)
    ∧ decodeArm 0b0001_000_1100_0_0101_1010_1001_0_10_1_0011#32 = some (.orrRegShift .ne false 5 10 ⟨9, .asr, 3⟩)
    ∧ decodeArm 0b0001_000_1101_1_0000_1010_1001_0_10_1_0011#32 = some (.movRegShift .ne true 10 ⟨9, .asr, 3⟩)
    ∧ decodeArm 0b0001_000_1110_0_0101_1010_1001_0_10_1_0011#32 = some (.bicRegShift .ne false 5 10 ⟨9, .asr, 3⟩)
    ∧ decodeArm 0b0001_000_1111_1_0000_1010_1001_0_10_1_0011#32 = some (.mvnRegShift .ne true 10 ⟨9, .asr, 3⟩) := by decide

/-- R345, immediate: cond 001 opcode S Rn Rd rotate_imm immed_8. -/
theorem test_decode_data_processing_immediate :
    decodeArm 0b0001_001_0000_0_0101_1010_0110_10011100#32 = some (.andImm .ne false 5 10 ⟨6, 0x9C⟩)
    ∧ decodeArm 0b0001_001_0001_1_0101_1010_0110_10011100#32 = some (.eorImm .ne true 5 10 ⟨6, 0x9C⟩)
    ∧ decodeArm 0b0001_001_0010_0_0101_1010_0110_10011100#32 = some (.subImm .ne false 5 10 ⟨6, 0x9C⟩)
    ∧ decodeArm 0b0001_001_0011_1_0101_1010_0110_10011100#32 = some (.rsbImm .ne true 5 10 ⟨6, 0x9C⟩)
    ∧ decodeArm 0b0001_001_0100_0_0101_1010_0110_10011100#32 = some (.addImm .ne false 5 10 ⟨6, 0x9C⟩)
    ∧ decodeArm 0b0001_001_0101_1_0101_1010_0110_10011100#32 = some (.adcImm .ne true 5 10 ⟨6, 0x9C⟩)
    ∧ decodeArm 0b0001_001_0110_0_0101_1010_0110_10011100#32 = some (.sbcImm .ne false 5 10 ⟨6, 0x9C⟩)
    ∧ decodeArm 0b0001_001_0111_1_0101_1010_0110_10011100#32 = some (.rscImm .ne true 5 10 ⟨6, 0x9C⟩)
    ∧ decodeArm 0b0001_001_1000_1_0101_0000_0110_10011100#32 = some (.tstImm .ne 5 ⟨6, 0x9C⟩)
    ∧ decodeArm 0b0001_001_1001_1_0101_0000_0110_10011100#32 = some (.teqImm .ne 5 ⟨6, 0x9C⟩)
    ∧ decodeArm 0b0001_001_1010_1_0101_0000_0110_10011100#32 = some (.cmpImm .ne 5 ⟨6, 0x9C⟩)
    ∧ decodeArm 0b0001_001_1011_1_0101_0000_0110_10011100#32 = some (.cmnImm .ne 5 ⟨6, 0x9C⟩)
    ∧ decodeArm 0b0001_001_1100_0_0101_1010_0110_10011100#32 = some (.orrImm .ne false 5 10 ⟨6, 0x9C⟩)
    ∧ decodeArm 0b0001_001_1101_1_0000_1010_0110_10011100#32 = some (.movImm .ne true 10 ⟨6, 0x9C⟩)
    ∧ decodeArm 0b0001_001_1110_0_0101_1010_0110_10011100#32 = some (.bicImm .ne false 5 10 ⟨6, 0x9C⟩)
    ∧ decodeArm 0b0001_001_1111_1_0000_1010_0110_10011100#32 = some (.mvnImm .ne true 10 ⟨6, 0x9C⟩) := by decide

/-- R347, R349. -/
theorem test_decode_multiplies :
    decodeArm 0b0000_0000_000_1_0001_0000_0011_1001_0100#32 = some (.mul .eq true 1 3 4)
    ∧ decodeArm 0b0010_0000_001_0_0001_0010_0011_1001_0100#32 = some (.mla .cs false 1 2 3 4)
    ∧ decodeArm 0b0011_0000_100_1_0001_0010_0011_1001_0100#32 = some (.umull .cc true 1 2 3 4)
    ∧ decodeArm 0b0100_0000_101_0_0001_0010_0011_1001_0100#32 = some (.umlal .mi false 1 2 3 4)
    ∧ decodeArm 0b0101_0000_110_1_0001_0010_0011_1001_0100#32 = some (.smull .pl true 1 2 3 4)
    ∧ decodeArm 0b0110_0000_111_0_0001_0010_0011_1001_0100#32 = some (.smlal .vs false 1 2 3 4)
    ∧ decodeArm 0b0111_0001_0000_0001_0010_0000_0101_0100#32 = some (.qadd .vc 1 2 4)
    ∧ decodeArm 0b1000_0001_0010_0001_0010_0000_0101_0100#32 = some (.qsub .hi 1 2 4)
    ∧ decodeArm 0b1001_0001_0100_0001_0010_0000_0101_0100#32 = some (.qdadd .ls 1 2 4)
    ∧ decodeArm 0b1010_0001_0110_0001_0010_0000_0101_0100#32 = some (.qdsub .ge 1 2 4)
    ∧ decodeArm 0b1011_0001_0000_0001_0010_0011_1_0_1_0_0100#32 = some (.smlaxy .lt 1 2 3 false true 4)
    ∧ decodeArm 0b1100_0001_0010_0001_0010_0011_1_1_0_0_0100#32 = some (.smlawy .gt 1 2 3 true 4)
    ∧ decodeArm 0b1101_0001_0010_0001_0000_0011_1_0_1_0_0100#32 = some (.smulwy .le 1 3 false 4)
    ∧ decodeArm 0b1110_0001_0100_0001_0010_0011_1_1_0_0_0100#32 = some (.smlalxy .al 1 2 3 true false 4)
    ∧ decodeArm 0b0000_0001_0110_0001_0000_0011_1_1_1_0_0100#32 = some (.smulxy .eq 1 3 true true 4) := by decide

/-- R348, R354, R360. -/
theorem test_decode_status_branch_misc :
    decodeArm 0b0001_0001_0_1_00_1111_0110_000000000000#32 = some (.mrs .ne true 6)
    ∧ decodeArm 0b0010_0001_0_0_10_1001_1111_0000_0000_0110#32 = some (.msrReg .cs false 9 6)
    ∧ decodeArm 0b0010_0011_0_1_10_1000_1111_0100_11110000#32 = some (.msrImm .cs true 8 ⟨4, 0xF0⟩)
    ∧ decodeArm 0b0011_0001_0010_1111_1111_1111_0001_0110#32 = some (.bx .cc 6)
    ∧ decodeArm 0b0011_0001_0010_1111_1111_1111_0011_0110#32 = some (.blx2 .cc 6)
    ∧ decodeArm 0b0100_0001_0110_1111_0110_1111_0001_0111#32 = some (.clz .mi 6 7)
    ∧ decodeArm 0b1110_0001_0010_101010111100_0111_1101#32 = some (.bkpt .al 0xABCD)
    ∧ decodeArm 0b0101_1010_100000000000000000000010#32 = some (.b .pl 0x800002)
    ∧ decodeArm 0b0110_1011_000000000000000000111110#32 = some (.bl .vs 0x3E)
    ∧ decodeArm 0b0111_1111_000100100011010001010110#32 = some (.swi .vc 0x123456)
    ∧ decodeArm 0b1111_101_1_100000000000000000000011#32 = some (.blx1 true 0x800003)
    ∧ decodeArm 0b1111_01_0_1_1_101_0010_1111_000000100000#32 = some (.pldImm true 2 32)
    ∧ decodeArm 0b1111_01_1_1_0_101_0010_1111_00100_11_0_0111#32 = some (.pldReg false 2 ⟨4, .ror, 7⟩) := by decide

/-- R350: cond 000 P U I W L Rn Rd high 1 S H 1 low. -/
theorem test_decode_mode_3 :
    decodeArm 0b1000_000_1_0_1_1_0_0010_0100_1010_1_0_1_1_0101#32 = some (.strhImm .hi ⟨true, false, true, 2⟩ 4 0xA5)
    ∧ decodeArm 0b1001_000_0_1_0_0_0_0010_0100_0000_1_0_1_1_0101#32 = some (.strhReg .ls ⟨false, true, false, 2⟩ 4 5)
    ∧ decodeArm 0b1000_000_1_0_1_1_1_0010_0100_1010_1_0_1_1_0101#32 = some (.ldrhImm .hi ⟨true, false, true, 2⟩ 4 0xA5)
    ∧ decodeArm 0b1001_000_0_1_0_0_1_0010_0100_0000_1_0_1_1_0101#32 = some (.ldrhReg .ls ⟨false, true, false, 2⟩ 4 5)
    ∧ decodeArm 0b1000_000_1_0_1_1_1_0010_0100_1010_1_1_0_1_0101#32 = some (.ldrsbImm .hi ⟨true, false, true, 2⟩ 4 0xA5)
    ∧ decodeArm 0b1001_000_0_1_0_0_1_0010_0100_0000_1_1_0_1_0101#32 = some (.ldrsbReg .ls ⟨false, true, false, 2⟩ 4 5)
    ∧ decodeArm 0b1000_000_1_0_1_1_1_0010_0100_1010_1_1_1_1_0101#32 = some (.ldrshImm .hi ⟨true, false, true, 2⟩ 4 0xA5)
    ∧ decodeArm 0b1001_000_0_1_0_0_1_0010_0100_0000_1_1_1_1_0101#32 = some (.ldrshReg .ls ⟨false, true, false, 2⟩ 4 5)
    ∧ decodeArm 0b1000_000_1_0_1_1_0_0010_0100_1010_1_1_0_1_0101#32 = some (.ldrdImm .hi ⟨true, false, true, 2⟩ 4 0xA5)
    ∧ decodeArm 0b1001_000_0_1_0_0_0_0010_0100_0000_1_1_0_1_0101#32 = some (.ldrdReg .ls ⟨false, true, false, 2⟩ 4 5)
    ∧ decodeArm 0b1000_000_1_0_1_1_0_0010_0100_1010_1_1_1_1_0101#32 = some (.strdImm .hi ⟨true, false, true, 2⟩ 4 0xA5)
    ∧ decodeArm 0b1001_000_0_1_0_0_0_0010_0100_0000_1_1_1_1_0101#32 = some (.strdReg .ls ⟨false, true, false, 2⟩ 4 5) := by decide

/-- R351: cond 01I P U B W L Rn Rd offset; P = 0 and W = 1 are the user-access forms. -/
theorem test_decode_mode_2 :
    decodeArm 0b1010_010_1_0_0_1_1_0010_0011_100000000001#32 = some (.ldrImm .ge ⟨.pre, false, 2⟩ 3 0x801)
    ∧ decodeArm 0b1010_011_0_1_0_0_1_0010_0011_10001_01_0_0100#32 = some (.ldrReg .ge ⟨.post, true, 2⟩ 3 ⟨17, .lsr, 4⟩)
    ∧ decodeArm 0b1011_010_0_0_0_1_1_0010_0011_100000000001#32 = some (.ldrtImm .lt false 2 3 0x801)
    ∧ decodeArm 0b1011_011_0_1_0_1_1_0010_0011_10001_01_0_0100#32 = some (.ldrtReg .lt true 2 3 ⟨17, .lsr, 4⟩)
    ∧ decodeArm 0b1010_010_1_0_1_1_1_0010_0011_100000000001#32 = some (.ldrbImm .ge ⟨.pre, false, 2⟩ 3 0x801)
    ∧ decodeArm 0b1010_011_0_1_1_0_1_0010_0011_10001_01_0_0100#32 = some (.ldrbReg .ge ⟨.post, true, 2⟩ 3 ⟨17, .lsr, 4⟩)
    ∧ decodeArm 0b1011_010_0_0_1_1_1_0010_0011_100000000001#32 = some (.ldrbtImm .lt false 2 3 0x801)
    ∧ decodeArm 0b1011_011_0_1_1_1_1_0010_0011_10001_01_0_0100#32 = some (.ldrbtReg .lt true 2 3 ⟨17, .lsr, 4⟩)
    ∧ decodeArm 0b1010_010_1_0_0_1_0_0010_0011_100000000001#32 = some (.strImm .ge ⟨.pre, false, 2⟩ 3 0x801)
    ∧ decodeArm 0b1010_011_0_1_0_0_0_0010_0011_10001_01_0_0100#32 = some (.strReg .ge ⟨.post, true, 2⟩ 3 ⟨17, .lsr, 4⟩)
    ∧ decodeArm 0b1011_010_0_0_0_1_0_0010_0011_100000000001#32 = some (.strtImm .lt false 2 3 0x801)
    ∧ decodeArm 0b1011_011_0_1_0_1_0_0010_0011_10001_01_0_0100#32 = some (.strtReg .lt true 2 3 ⟨17, .lsr, 4⟩)
    ∧ decodeArm 0b1010_010_1_0_1_1_0_0010_0011_100000000001#32 = some (.strbImm .ge ⟨.pre, false, 2⟩ 3 0x801)
    ∧ decodeArm 0b1010_011_0_1_1_0_0_0010_0011_10001_01_0_0100#32 = some (.strbReg .ge ⟨.post, true, 2⟩ 3 ⟨17, .lsr, 4⟩)
    ∧ decodeArm 0b1011_010_0_0_1_1_0_0010_0011_100000000001#32 = some (.strbtImm .lt false 2 3 0x801)
    ∧ decodeArm 0b1011_011_0_1_1_1_0_0010_0011_10001_01_0_0100#32 = some (.strbtReg .lt true 2 3 ⟨17, .lsr, 4⟩)
    ∧ decodeArm 0b1110_010_1_1_0_0_1_0010_0011_000000000100#32 = some (.ldrImm .al ⟨.offset, true, 2⟩ 3 4) := by decide

/-- R352, R353. -/
theorem test_decode_block_and_swap :
    decodeArm 0b1100_100_1_0_0_1_1_1101_1000000000010000#32 = some (.ldm1 .gt ⟨true, false, true, 13⟩ 0x8010)
    ∧ decodeArm 0b1100_100_0_1_1_0_1_1101_0000000000010001#32 = some (.ldm2 .gt ⟨false, true, false, 13⟩ 0x0011)
    ∧ decodeArm 0b1100_100_0_1_1_1_1_1101_1000000000010001#32 = some (.ldm3 .gt ⟨false, true, true, 13⟩ 0x0011)
    ∧ decodeArm 0b1101_100_1_1_0_0_0_1101_1000000000010000#32 = some (.stm1 .le ⟨true, true, false, 13⟩ 0x8010)
    ∧ decodeArm 0b1101_100_0_0_1_0_0_1101_1000000000010001#32 = some (.stm2 .le ⟨false, false, false, 13⟩ 0x8011)
    ∧ decodeArm 0b1110_0001_0000_0010_0011_0000_1001_0100#32 = some (.swp .al 2 3 4)
    ∧ decodeArm 0b1110_0001_0100_0010_0011_0000_1001_0100#32 = some (.swpb .al 2 3 4) := by decide

/-- R355 to R359. -/
theorem test_decode_coprocessor :
    decodeArm 0b1110_1110_101_0_0001_0010_1110_011_1_0100#32 = some (.mcr .al 5 1 2 14 3 4)
    ∧ decodeArm 0b1110_1110_101_1_0001_0010_1110_011_1_0100#32 = some (.mrc .al 5 1 2 14 3 4)
    ∧ decodeArm 0b1110_110_1_0_0_1_1_0010_0101_1110_00001001#32 = some (.ldc .al ⟨true, false, false, true, 2⟩ 5 14 9)
    ∧ decodeArm 0b1110_110_0_1_0_1_0_0010_0101_1101_00001001#32 = some (.stc .al ⟨false, true, false, true, 2⟩ 5 13 9)
    ∧ decodeArm 0b1110_1110_1001_0010_0011_0100_101_0_0110#32 = some (.cdp .al 9 2 3 4 5 6)
    ∧ decodeArm 0b1110_1100_0100_0010_0011_0100_0101_0110#32 = some (.mcrr .al 2 3 4 5 6)
    ∧ decodeArm 0b1110_1100_0101_0010_0011_0100_0101_0110#32 = some (.mrrc .al 2 3 4 5 6)
    ∧ decodeArm 0b1110_1110_0010_0000_0011_0000_001_1_0100#32 = some (.mia .al 3 1 4)
    ∧ decodeArm 0b1110_1110_0010_1000_0011_0000_000_1_0100#32 = some (.miaph .al 3 0 4)
    ∧ decodeArm 0b1110_1110_0010_1100_0011_0000_000_1_0100#32 = some (.miabb .al 3 0 4)
    ∧ decodeArm 0b1110_1110_0010_1101_0011_0000_000_1_0100#32 = some (.miabt .al 3 0 4)
    ∧ decodeArm 0b1110_1110_0010_1110_0011_0000_000_1_0100#32 = some (.miatb .al 3 0 4)
    ∧ decodeArm 0b1110_1110_0010_1111_0011_0000_000_1_0100#32 = some (.miatt .al 3 0 4)
    ∧ decodeArm 0b1110_1100_010_0_0010_0011_0000_0000_0_010#32 = some (.mar .al 2 3 0 2)
    ∧ decodeArm 0b1110_1100_010_1_0010_0011_0000_0000_0_000#32 = some (.mra .al 2 3 0 0) := by decide

/-- R344 rows 5, 6, 10, 14; R360. -/
theorem test_decode_undefined_spaces :
    decodeArm 0b1111_0000_000000000000000000000001#32 = some (.undefUncond 1)
    ∧ decodeArm 0b1110_0001_1000_0010_0011_0100_1001_0101#32 = some (.undefMul .al 0b11000001000110100 5)
    ∧ decodeArm 0b1110_0001_0000_0010_0011_0100_0_010_0101#32 = some (.undefMisc .al 0 0b001000110100 0b0100101)
    ∧ decodeArm 0b1110_0011_0_1_00_00000000000000000111#32 = some (.undefMsr .al true 7)
    ∧ decodeArm 0b1110_011_00000000000000000001_1_0101#32 = some (.undefMedia .al 1 5) := by decide

/-- R371 rows 1 to 5, 11, 12. -/
theorem test_decode_thumb_data_processing :
    decodeThumb 0b000_00_10011_010_101#16 = some (.tLsl1 19 2 5)
    ∧ decodeThumb 0b000_01_10011_010_101#16 = some (.tLsr1 19 2 5)
    ∧ decodeThumb 0b000_10_10011_010_101#16 = some (.tAsr1 19 2 5)
    ∧ decodeThumb 0b000_11_0_0_110_010_101#16 = some (.tAdd3 6 2 5)
    ∧ decodeThumb 0b000_11_0_1_110_010_101#16 = some (.tSub3 6 2 5)
    ∧ decodeThumb 0b000_11_1_0_110_010_101#16 = some (.tAdd1 6 2 5)
    ∧ decodeThumb 0b000_11_1_1_110_010_101#16 = some (.tSub1 6 2 5)
    ∧ decodeThumb 0b001_00_101_10000001#16 = some (.tMov1 5 0x81)
    ∧ decodeThumb 0b001_01_101_10000001#16 = some (.tCmp1 5 0x81)
    ∧ decodeThumb 0b001_10_101_10000001#16 = some (.tAdd2 5 0x81)
    ∧ decodeThumb 0b001_11_101_10000001#16 = some (.tSub2 5 0x81)
    ∧ decodeThumb 0b010000_0000_010_101#16 = some (.tAnd 2 5)
    ∧ decodeThumb 0b010000_0001_010_101#16 = some (.tEor 2 5)
    ∧ decodeThumb 0b010000_0010_010_101#16 = some (.tLsl2 2 5)
    ∧ decodeThumb 0b010000_0011_010_101#16 = some (.tLsr2 2 5)
    ∧ decodeThumb 0b010000_0100_010_101#16 = some (.tAsr2 2 5)
    ∧ decodeThumb 0b010000_0101_010_101#16 = some (.tAdc 2 5)
    ∧ decodeThumb 0b010000_0110_010_101#16 = some (.tSbc 2 5)
    ∧ decodeThumb 0b010000_0111_010_101#16 = some (.tRor 2 5)
    ∧ decodeThumb 0b010000_1000_010_101#16 = some (.tTst 2 5)
    ∧ decodeThumb 0b010000_1001_010_101#16 = some (.tNeg 2 5)
    ∧ decodeThumb 0b010000_1010_010_101#16 = some (.tCmp2 2 5)
    ∧ decodeThumb 0b010000_1011_010_101#16 = some (.tCmn 2 5)
    ∧ decodeThumb 0b010000_1100_010_101#16 = some (.tOrr 2 5)
    ∧ decodeThumb 0b010000_1101_010_101#16 = some (.tMul 2 5)
    ∧ decodeThumb 0b010000_1110_010_101#16 = some (.tBic 2 5)
    ∧ decodeThumb 0b010000_1111_010_101#16 = some (.tMvn 2 5)
    ∧ decodeThumb 0b010001_00_1_0_010_101#16 = some (.tAdd4 13 2)
    ∧ decodeThumb 0b010001_01_1_0_010_101#16 = some (.tCmp3 13 2)
    ∧ decodeThumb 0b010001_10_1_0_010_101#16 = some (.tMov3 13 2)
    ∧ decodeThumb 0b1010_0_101_10000001#16 = some (.tAdd5 5 0x81)
    ∧ decodeThumb 0b1010_1_101_10000001#16 = some (.tAdd6 5 0x81)
    ∧ decodeThumb 0b1011_0000_0_1000001#16 = some (.tAdd7 0x41)
    ∧ decodeThumb 0b1011_0000_1_1000001#16 = some (.tSub4 0x41) := by decide

/-- R371 rows 6 to 10, 13, 16. -/
theorem test_decode_thumb_loads_and_stores :
    decodeThumb 0b01001_101_10000001#16 = some (.tLdr3 5 0x81)
    ∧ decodeThumb 0b0101_000_110_010_101#16 = some (.tStr2 6 2 5)
    ∧ decodeThumb 0b0101_001_110_010_101#16 = some (.tStrh2 6 2 5)
    ∧ decodeThumb 0b0101_010_110_010_101#16 = some (.tStrb2 6 2 5)
    ∧ decodeThumb 0b0101_011_110_010_101#16 = some (.tLdrsb 6 2 5)
    ∧ decodeThumb 0b0101_100_110_010_101#16 = some (.tLdr2 6 2 5)
    ∧ decodeThumb 0b0101_101_110_010_101#16 = some (.tLdrh2 6 2 5)
    ∧ decodeThumb 0b0101_110_110_010_101#16 = some (.tLdrb2 6 2 5)
    ∧ decodeThumb 0b0101_111_110_010_101#16 = some (.tLdrsh 6 2 5)
    ∧ decodeThumb 0b011_0_0_10011_010_101#16 = some (.tStr1 19 2 5)
    ∧ decodeThumb 0b011_0_1_10011_010_101#16 = some (.tLdr1 19 2 5)
    ∧ decodeThumb 0b011_1_0_10011_010_101#16 = some (.tStrb1 19 2 5)
    ∧ decodeThumb 0b011_1_1_10011_010_101#16 = some (.tLdrb1 19 2 5)
    ∧ decodeThumb 0b1000_0_10011_010_101#16 = some (.tStrh1 19 2 5)
    ∧ decodeThumb 0b1000_1_10011_010_101#16 = some (.tLdrh1 19 2 5)
    ∧ decodeThumb 0b1001_0_101_10000001#16 = some (.tStr3 5 0x81)
    ∧ decodeThumb 0b1001_1_101_10000001#16 = some (.tLdr4 5 0x81)
    ∧ decodeThumb 0b1011_0_10_1_10000001#16 = some (.tPush true 0x81)
    ∧ decodeThumb 0b1011_1_10_0_10000001#16 = some (.tPop false 0x81)
    ∧ decodeThumb 0b1100_0_101_10000001#16 = some (.tStmia 5 0x81)
    ∧ decodeThumb 0b1100_1_101_10000001#16 = some (.tLdmia 5 0x81) := by decide

/-- R371 rows 5, 14, 15, 17 to 23. -/
theorem test_decode_thumb_branches_and_rest :
    decodeThumb 0b010001_11_0_1_110_000#16 = some (.tBx 14)
    ∧ decodeThumb 0b010001_11_1_0_010_000#16 = some (.tBlx2 2)
    ∧ decodeThumb 0b1011_1110_10101011#16 = some (.tBkpt 0xAB)
    ∧ decodeThumb 0b1011_0001_00000001#16 = some (.tUndefMisc 0x101)
    ∧ decodeThumb 0b1101_1101_10000001#16 = some (.tB1 .le 0x81)
    ∧ decodeThumb 0b1101_1110_10000001#16 = some (.tUndefCond 0x81)
    ∧ decodeThumb 0b1101_1111_00010010#16 = some (.tSwi 0x12)
    ∧ decodeThumb 0b11100_10000000001#16 = some (.tB2 0x401)
    ∧ decodeThumb 0b11101_1000000001_0#16 = some (.tBlx1 0x201)
    ∧ decodeThumb 0b11101_1000000001_1#16 = some (.tUndefBlx 0x201)
    ∧ decodeThumb 0b11110_10000000001#16 = some (.tBlFirst 0x401)
    ∧ decodeThumb 0b11111_10000000001#16 = some (.tBl 0x401) := by decide

/-! ## Single steps (95_test_vectors V1 to V16 and the rules' examples) -/

/-- What `f` shows of a next state. -/
def after {α : Type} (f : State → α) : Out → Option α
  | .next t => some (f t)
  | .fault _ => none
  | .refused _ => none

/-- A state after reset with a pc, a CPSR, some registers and words of memory, access to the coprocessors, and the
instruction of `n` bits to run. -/
def start (pc cpsr : Word) (rs : List (Reg × Word)) (ms : List (Word × Nat)) (n w : Nat) : State :=
  (ms.foldl (fun (s : State) p => s.setBytesAt p.1 (leBytes 4 p.2))
    (rs.foldl (fun (s : State) p => s.setReg p.1 p.2)
      { State.reset with
        pc := pc
        cpsr := cpsr
        cp15 := { State.reset.cp15 with cpar := 0x2001 } })).withFetchWord n w

/-- One ARM instruction in Supervisor mode at 0x1000: N, Z, C, V, Q before it, what is seen after it. -/
def arm {α : Type} (nzcvq : Nat) (rs : List (Reg × Word)) (w : Nat) (f : State → α) : Option α :=
  after f (step (start 0x1000 (BitVec.ofNat 32 (nzcvq * 2 ^ 27 + 0xD3)) rs [] 32 w))

/-- One Thumb instruction in Supervisor mode at 0x1000. -/
def thumb {α : Type} (nzcvq : Nat) (rs : List (Reg × Word)) (ms : List (Word × Nat)) (w : Nat) (f : State → α) : Option α :=
  after f (step (start 0x1000 (BitVec.ofNat 32 (nzcvq * 2 ^ 27 + 0xF3)) rs ms 16 w))

/-- R0 and N, Z, C, V, Q. -/
def r0f (s : State) : Word × Nat := (s.reg 0, (s.cpsr >>> 27).toNat)
/-- Two registers. -/
def two (a b : Reg) (s : State) : Word × Word := (s.reg a, s.reg b)
/-- The word of memory at an address. -/
def wordAt (a : Word) (s : State) : Nat := leValue (s.bytesAt a 4)

theorem test_movs_lsl : arm 0 [(1, 0x80000001)] 0xE1B00081 r0f = some (2, 0b00100) := by decide
theorem test_movs_lsr_32 : arm 0 [(1, 0x80000000)] 0xE1B00021 r0f = some (0, 0b01100) := by decide
theorem test_movs_asr_reg_255 :
    arm 0 [(1, 0x80000001), (2, 255)] 0xE1B00251 r0f = some (0xFFFFFFFF, 0b10100) := by decide
theorem test_movs_rrx : arm 0b00100 [(1, 1)] 0xE1B00061 r0f = some (0x80000000, 0b10100) := by decide
theorem test_mov_imm : arm 0 [] 0xE3A00FFF r0f = some (0x3FC, 0) := by decide
theorem test_adds_wraps : arm 0 [(1, 0xFFFFFFFF), (2, 1)] 0xE0910002 r0f = some (0, 0b01100) := by decide
theorem test_subs_borrows : arm 0 [(1, 0), (2, 1)] 0xE0510002 r0f = some (0xFFFFFFFF, 0b10000) := by decide
theorem test_rsbs_overflows : arm 0 [(1, 0x80000000)] 0xE2710000 r0f = some (0x80000000, 0b10010) := by decide
theorem test_adcs : arm 0b00100 [(1, 0x7FFFFFFF), (2, 0)] 0xE0B10002 r0f = some (0x80000000, 0b10010) := by decide
theorem test_sbcs : arm 0 [(1, 0), (2, 0)] 0xE0D10002 r0f = some (0xFFFFFFFF, 0b10000) := by decide
theorem test_rscs : arm 0b00100 [(1, 1), (2, 0)] 0xE0F10002 r0f = some (0xFFFFFFFF, 0b10000) := by decide
theorem test_cmp : arm 0 [(1, 1), (2, 2)] 0xE1510002 r0f = some (0, 0b10000) := by decide
theorem test_cmn : arm 0 [(1, 0x7FFFFFFF), (2, 0x7FFFFFFF)] 0xE1710002 r0f = some (0, 0b10010) := by decide
theorem test_tst : arm 0 [(1, 0xFFFFFFFF)] 0xE3110102 r0f = some (0, 0b10100) := by decide
theorem test_teq_keeps_v : arm 0b00110 [(1, 0x80000000)] 0xE1310002 r0f = some (0, 0b10110) := by decide
theorem test_ands_shifter_carry :
    arm 0 [(1, 0xFFFFFFFF), (2, 3)] 0xE01100A2 r0f = some (1, 0b00100) := by decide
theorem test_condition_fails : arm 0 [(0, 9), (1, 1)] 0x00810002 r0f = some (9, 0) := by decide
theorem test_pc_operand : arm 0 [(1, 8)] 0xE04F0001 r0f = some (0x1000, 0) := by decide
theorem test_clz : arm 0 [(1, 0x00010000)] 0xE16F0F11 r0f = some (15, 0) := by decide
theorem test_muls_keeps_cv : arm 0b00110 [(1, 0x10000), (2, 0x10000)] 0xE0100291 r0f = some (0, 0b01110) := by decide
theorem test_mla : arm 0 [(1, 7), (2, 6), (3, 8)] 0xE0203291 r0f = some (50, 0) := by decide
theorem test_umull :
    arm 0 [(2, 0xFFFFFFFF), (3, 0xFFFFFFFF)] 0xE0810392 (two 1 0) = some (0xFFFFFFFE, 1) := by decide
theorem test_smull : arm 0 [(2, 0xFFFFFFFF), (3, 2)] 0xE0C10392 (two 1 0) = some (0xFFFFFFFF, 0xFFFFFFFE) := by decide
theorem test_umlal : arm 0 [(0, 0xFFFFFFFF), (2, 1), (3, 1)] 0xE0A10392 (two 1 0) = some (1, 0) := by decide
theorem test_smlal : arm 0 [(0, 5), (2, 0xFFFFFFFF), (3, 2)] 0xE0E10392 (two 1 0) = some (0, 3) := by decide
theorem test_smulbt : arm 0 [(1, 0x0003FFFE), (2, 0x00050004)] 0xE16002C1 r0f = some (0xFFFFFFF6, 0) := by decide
theorem test_smlabb_sets_q :
    arm 0 [(1, 0x7FFF), (2, 0x7FFF), (3, 0x7FFFFFFF)] 0xE1003281 r0f = some (0xBFFF0000, 1) := by decide
theorem test_smulwb : arm 0 [(1, 0xFFFFFFFF), (2, 1)] 0xE12002A1 r0f = some (0xFFFFFFFF, 0) := by decide
theorem test_smlawb : arm 0 [(1, 0x20000), (2, 4), (3, 10)] 0xE1203281 r0f = some (18, 0) := by decide
theorem test_smlalbb :
    arm 0 [(0, 1), (2, 0xFFFF), (3, 2)] 0xE1410382 (two 1 0) = some (0xFFFFFFFF, 0xFFFFFFFF) := by decide
theorem test_qadd : arm 0 [(1, 0x7FFFFFFF), (2, 1)] 0xE1020051 r0f = some (0x7FFFFFFF, 1) := by decide
theorem test_qsub : arm 0 [(1, 0x80000000), (2, 1)] 0xE1220051 r0f = some (0x80000000, 1) := by decide
theorem test_qdadd : arm 0 [(1, 1), (2, 0x40000000)] 0xE1420051 r0f = some (0x7FFFFFFF, 1) := by decide
theorem test_qdsub : arm 0 [(1, 0), (2, 0xC0000000)] 0xE1620051 r0f = some (0x7FFFFFFF, 1) := by decide
theorem test_mia : arm 0 [(1, 2), (2, 3)] 0xEE202011 (·.acc0) = some 6 := by decide
theorem test_miaph : arm 0 [(1, 0x00020003), (2, 0x00040005)] 0xEE282011 (·.acc0) = some 23 := by decide
theorem test_miabt : arm 0 [(1, 0x0003FFFE), (2, 0x00050004)] 0xEE2D2011 (·.acc0) = some 0xFFFFFFFFF6 := by decide
theorem test_mar : arm 0 [(0, 0x89ABCDEF), (1, 0x12345680)] 0xEC410000 (·.acc0) = some 0x8089ABCDEF := by decide
theorem test_bl : arm 0 [] 0xEB0003FE (fun s => (s.pc, s.reg 14)) = some (0x2000, 0x1004) := by decide
theorem test_bx_thumb : arm 0 [(1, 0x2001)] 0xE12FFF11 (fun s => (s.pc, s.thumb)) = some (0x2000, true) := by decide
theorem test_blx1 : arm 0 [] 0xFB0003FE (fun s => (s.pc, s.reg 14, s.thumb)) = some (0x2002, 0x1004, true) := by decide
theorem test_mrs : arm 0b10101 [] 0xE10F0000 (·.reg 0) = some 0xA80000D3 := by decide
theorem test_msr_flags : arm 31 [] 0xE328F000 (·.cpsr) = some 0xD3 := by decide
theorem test_mrc_cache_type : arm 0 [] 0xEE100F30 (·.reg 0) = some 0x0B1AA1AA := by decide
/-- LDR R0,[R1] of an unaligned address with A = 0 rotates (20_memory R225). -/
theorem test_ldr_rotates :
    after (·.reg 0) (step (start 0x1000 0xD3 [(1, 0x2001)] [(0x2000, 0x44332211)] 32 0xE5910000)) = some 0x11443322 := by
  decide
/-- LDRSB of 0x80 and STRB of a register's low byte (43_arm R491, R486). -/
theorem test_ldrsb :
    after (·.reg 0) (step (start 0x1000 0xD3 [(1, 0x2000)] [(0x2000, 0x180)] 32 0xE1D100D0)) = some 0xFFFFFF80 := by decide
theorem test_strb :
    after (wordAt 0x2000) (step (start 0x1000 0xD3 [(0, 0x1FF), (1, 0x2001)] [] 32 0xE5C10000)) = some 0xFF00 := by decide
/-- LDRSB of the PC is a load to the PC (log 53). -/
theorem test_ldrsb_pc :
    after (fun s => (s.pc, s.thumb)) (step (start 0x1000 0xD3 [(1, 0x2000)] [(0x2000, 0x85)] 32 0xE1D1F0D0))
      = some (0xFFFFFF84, true) := by decide
/-- BKPT under a condition that fails (30_encoding R361). -/
theorem test_bkpt_condition_fails : arm 0 [] 0x0120007D (fun s => (s.pc, s.cpsr)) = some (0x1004, 0xD3) := by decide
theorem test_ldr_post :
    after (two 3 2) (step (start 0x1000 0xD3 [(2, 0x2000)] [(0x2000, 7)] 32 0xE4923020)) = some (7, 0x2020) := by decide
theorem test_strd :
    after (fun s => (wordAt 0x2000 s, wordAt 0x2004 s)) (step (start 0x1000 0xD3 [(0, 1), (1, 2), (2, 0x2000)] [] 32 0xE1C200F0))
      = some (1, 2) := by decide
theorem test_swp :
    after (fun s => (s.reg 0, wordAt 0x2000 s)) (step (start 0x1000 0xD3 [(1, 9), (2, 0x2000)] [(0x2000, 5)] 32 0xE1020091))
      = some (5, 9) := by decide
theorem test_ldm_pc :
    after (fun s => (s.pc, s.reg 4, s.reg 13, s.thumb))
      (step (start 0x1000 0xD3 [(13, 0x2000)] [(0x2000, 68), (0x2004, 0x1235)] 32 0xE8BD8010))
      = some (0x1234, 68, 0x2008, true) := by decide
theorem test_swi_user :
    after (fun s => (s.pc, s.reg 14, s.spsr, s.cpsr)) (step (start 0x8008 0x60000010 [] [] 32 0xEF000011))
      = some (8, 0x800C, some 0x60000010, 0x60000093) := by decide
theorem test_undefined :
    after (fun s => (s.pc, s.reg 14, s.spsr, s.cpsr)) (step (start 0x8000 0xD3 [] [] 32 0xE7F000F0))
      = some (4, 0x8004, some 0xD3, 0xDB) := by decide
theorem test_mrc_user_traps :
    after (fun s => (s.pc, s.cpsr)) (step (start 0x8000 0x10 [] [] 32 0xEE100F10)) = some (4, 0x9B) := by decide
theorem test_bkpt_disabled : arm 0 [] 0xE12ABC7D (fun s => (s.pc, s.cpsr)) = some (0x1004, 0xD3) := by decide
theorem test_thumb_lsl : thumb 0 [(1, 0x40000001)] [] 0x0088 r0f = some (4, 0b00100) := by decide
theorem test_thumb_neg : thumb 0 [(1, 0x80000000)] [] 0x4248 r0f = some (0x80000000, 0b10010) := by decide
theorem test_thumb_sbc : thumb 0 [(0, 5), (1, 2)] [] 0x4188 r0f = some (2, 0b00100) := by decide
theorem test_thumb_push :
    thumb 0 [(4, 68), (13, 0x3000), (14, 0x1235)] [] 0xB510 (fun s => (s.reg 13, wordAt 0x2FF8 s, wordAt 0x2FFC s))
      = some (0x2FF8, 68, 0x1235) := by decide
theorem test_thumb_ldmia :
    thumb 0 [(0, 0x2000)] [(0x2000, 1), (0x2004, 2)] 0xC806 (fun s => (s.reg 0, s.reg 1, s.reg 2)) = some (0x2008, 1, 2) := by
  decide
theorem test_thumb_beq : thumb 0b01000 [] [] 0xD002 (·.pc) = some 0x1008 := by decide
theorem test_thumb_bl_second :
    thumb 0 [(14, 0x2004)] [] 0xF801 (fun s => (s.pc, s.reg 14)) = some (0x2006, 0x1003) := by decide

/-! ## Witnesses: the hypotheses of each statement can be met, clause by clause -/

/-- A next state is reached. -/
def completes (o : Out) : Bool := (after (fun _ => ()) o).isSome

theorem exists_next {o : Out} (h : completes o = true) : ∃ t, o = .next t := by
  cases o with
  | next t => exact ⟨t, rfl⟩
  | fault e => simp [completes, after] at h
  | refused e => simp [completes, after] at h

/-- An access answers, and `p` holds of the answer and the state. -/
def okAnd {α : Type} (p : α → State → Bool) : Acc α → Bool
  | .ok v s => p v s
  | _ => false

theorem exists_ok {α : Type} {x : Acc α} {p : α → State → Bool} (h : okAnd p x = true) :
    ∃ v s, x = .ok v s ∧ p v s = true := by
  cases x with
  | ok v s => exact ⟨v, s, rfl, h⟩
  | abort f s => simp [okAnd] at h
  | fault e => simp [okAnd] at h
  | refused e => simp [okAnd] at h

/-- An access aborts. -/
def aborts {α : Type} : Acc α → Bool
  | .abort _ _ => true
  | _ => false

theorem exists_abort {α : Type} {x : Acc α} (h : aborts x = true) : ∃ f s, x = .abort f s := by
  cases x with
  | abort f s => exact ⟨f, s, rfl⟩
  | ok v s => simp [aborts] at h
  | fault e => simp [aborts] at h
  | refused e => simp [aborts] at h

/-- After reset with R0 to R5 pointing into memory, in Supervisor mode, ARM state. -/
def sup : State := start 0x1000 0xD3 [(0, 7), (1, 0x2000), (2, 0x2002), (3, 0x2001), (4, 0x2004), (5, 4)] [(0x2000, 0x44332211)] 32 0
/-- The same in Thumb state. -/
def supT : State := { sup with cpsr := 0xF3 }
/-- The same in User mode. -/
def usr : State := { sup with cpsr := 0x10 }
/-- The same with Control.A set. -/
def aligned (s : State) : State := { s with cp15 := { s.cp15 with control := 0x7A } }
/-- The same with this DCSR. -/
def withDcsr (v : Word) (s : State) : State := { s with dbg := { s.dbg with dcsr := v } }

theorem witness_round_trip : (Instr.addImm .al true 1 2 ⟨15, 255⟩).wf = true ∧ (Instr.undefUncond 1).wf = true
    ∧ (Instr.mcr .al 7 15 15 15 7 15).wf = true ∧ (Instr.tUndefMisc 0x101).wf = true ∧ (Instr.tB1 .le 255).wf = true := by decide

theorem witness_step_runs : let s := start 0x1000 0xD3 [(1, 5)] [] 32 0xE2810001
    s.quiet = true ∧ ∃ w s1, fetch { s with scratch := .empty } = .ok w s1
      ∧ (s1.decodeFetched w == some (.addImm .al false 1 0 ⟨0, 1⟩)) = true :=
  ⟨by decide, exists_ok (p := fun w s1 => s1.decodeFetched w == some (.addImm .al false 1 0 ⟨0, 1⟩)) (by decide)⟩
/-- In Special Debug State, an instruction that may use R13_dbg and one that may not: MOV R13,#1 and STR R0,[R13]. -/
theorem witness_step_runs_sds : ∀ w ∈ [0xE3A0D001, 0xE58D0000],
    let s : State := { start 0x1000 0xD5 [] [] 32 w with dbg := { sup.dbg with sds := true } }
    s.quiet = true ∧ okAnd (fun v t => t.dbg.sds && t.decodeFetched v == decodeArm (BitVec.ofNat 32 w)
      && (t.decodeFetched v).map keepsScratch13 == some (w == 0xE3A0D001)) (fetch { s with scratch := .empty }) = true := by decide
theorem witness_step_runs_thumb : let s := start 0x1002 0xF3 [] [] 16 0x1E52
    s.quiet = true ∧ ∃ w s1, fetch { s with scratch := .empty } = .ok w s1
      ∧ (s1.decodeFetched w == some (.tSub1 1 2 2)) = true :=
  ⟨by decide, exists_ok (p := fun w s1 => s1.decodeFetched w == some (.tSub1 1 2 2)) (by decide)⟩

/-- A branch the debug handler left in the BTB is no old word of the application's code at the same address (21_mmu R330). -/
theorem test_no_stale_word_elsewhere :
    let s : State := { sup with
      cp15 := { sup.cp15 with control := 0x878 }
      btb := [⟨btbIndex 0x1000, btbTag 0x1000, 0, .wt, 0xEA000000, { sup.fetchPlace with sds := true }⟩] }
    okAnd (fun w _ => w == 0xE3A00000) (staleWord 0xE3A00000 s) = true := by decide

theorem witness_fetch_reads : let l : CacheLine := ⟨0, 3, 4, true, false, false, false, 0x1000, false, 0, lineOfBytes [1], false⟩
    let held : State := { sup with icache := { sup.icache with lines := [l] } }
    let buf : FetchBuf := { tag := 0x80, valid := 0xFF, data := lineOfBytes [1] }
    sup.mmuOn = false ∧ sup.dbg.sds = false ∧ sup.findMini sup.fetchAddress = none
      ∧ sup.icache.find sup.fetchAddress = none ∧ sup.fetchBufs.find sup.fetchAddress = none
      ∧ held.icache.find held.fetchAddress = some l ∧ l.badWord held.fetchAddress = false
      ∧ ({ sup.icache with lines := [{ l with downloaded := true }] } : Cache).find sup.fetchAddress = some { l with downloaded := true }
      ∧ ({ sup.fetchBufs with buf0 := buf } : FetchBufs).find sup.fetchAddress = some buf
      ∧ sup.btbOn = false ∧ sup.btbFind sup.pc = none ∧ sup.board.abortRegions = [] ∧ sup.board.between = []
      ∧ sup.codeChanged sup.fetchAddress 4 = false ∧ (sup.setByteAt 0x1000 5).codeChanged sup.fetchAddress 4 = true := by decide
/-- Code that was changed (20_memory R246, U3): a fetch draws a free value until the instruction cache is invalidated, and with
the new bytes in a data cache line not yet written back also after it; a word next to it is fetched as it is. -/
theorem test_changed_code : let s := sup.setByteAt 0x1003 0xE3
    let n (t : State) := match fetch t with
      | .ok _ u => u.freeCount - t.freeCount
      | _ => 9
    let l : CacheLine := ⟨0, 3, 4, true, false, true, false, 0x1000, false, 0, lineOfBytes [1], false⟩
    n sup = 0 ∧ n s = 1 ∧ n s.invalidateICache = 0 ∧ n { s with pc := 0x1004 } = 0
      ∧ okAnd (fun w _ => w == 0xE3000000) (fetch s.invalidateICache) = true
      ∧ n ({ sup with dcache := { sup.dcache with lines := [l] } } : State).invalidateICache = 1 := by decide

/-- A store instruction remembers the word it writes over: STR R0,[R1]. -/
theorem test_store_notes_overwritten :
    after (fun t => t.overwritten) (exec (.strImm .al ⟨.offset, true, 1⟩ 0 0) sup) = some [(0x800, [0x11, 0x22, 0x33, 0x44])] := by
  decide
/-- Code changed and changed back without the sequence, the word in between held by the instruction cache (20_memory R246, U3): a
fetch may deliver either, until the cache is invalidated. -/
theorem test_code_changed_back :
    let put (b : Byte) (s : State) : State := match applyEvent (.busWrite 0x1003 b) s with
      | .next t => t
      | _ => s
    let l : CacheLine := ⟨0, 3, 4, true, false, false, false, 0x1000, false, 0, lineOfBytes [0, 0, 0, 0xE3], false⟩
    let s1 := put 0xE3 sup
    let s := put 0 { s1 with icache := { s1.icache with lines := [l] } }
    s.codeChanged 0x1000 4 = true ∧ s.codeChoices 0x1000 (s.instrOf l.data 0x1000) = [0xE3000000, 0, 0, 0xE3000000, 0]
      ∧ s.codeChoices 0x1000 0 = [0, 0, 0, 0xE3000000, 0] ∧ s.codeChanged 0x1004 4 = false
      ∧ s.invalidateICache.codeChanged 0x1000 4 = false := by decide

/-- Another master writes memory's word under a dirty line that holds a later one (20_memory R246, U3): a fetch may deliver the word
found, the old one, memory's new one or the line's; memory's word stays among them when the line is written back over it. -/
theorem test_memory_under_dirty_line :
    let l : CacheLine := ⟨0, 3, 4, true, false, true, false, 0x1000, false, 0, lineOfBytes [0, 0, 0, 0xE1], false⟩
    let s0 : State := { sup with dcache := { sup.dcache with lines := [l] } }
    okAnd (fun _ t => t.codeChoices 0x1000 7 == [7, 0, 0xE1000000, 0xE3000000, 0, 0xE1000000])
        (match applyEvent (.busWrite 0x1003 0xE3) s0 with
          | .next s => cleanDLine 0x1000 s
          | _ => .fault .reservedAttributes) = true
      ∧ (match applyEvent (.busWrite 0x1003 0xE3) s0 with
          | .next s => s.codeChoices 0x1000 7
          | _ => []) = [7, 0, 0xE3000000, 0xE1000000, 0, 0xE1000000] := by decide

/-- A line that LDIC downloaded into the main instruction cache (61_debug R799) is fetched as it is, though the word in memory at
its address was changed. -/
theorem test_downloaded_line_fetched :
    let ws : List (Word × Bool) := List.replicate 8 (0xE3A00001, true)
    let s : State := ({ sup with jtag := { sup.jtag with ir := irLdic } } : State).ldicStore ⟨false, 0x80, ws⟩
    let t := s.setByteAt 0x1003 0xE3
    t.codeChanged 0x1000 4 = true ∧ okAnd (fun w u => w == 0xE3A00001 && u.freeCount == t.freeCount) (fetch t) = true := by decide

/-- LDIC's eighth packet finds its target line valid again: fetched in between (61_debug R800, R802; log 43). -/
theorem test_ldic_line_fetched_between :
    let l : CacheLine := ⟨0, 3, 4, true, false, false, false, 0x1000, false, 0, lineOfBytes [1], false⟩
    let load : LdicLoad := ⟨false, 0x80, List.replicate 7 (0xE3A00001, true)⟩
    let s : State := { sup with jtag := { sup.jtag with ir := irLdic, ldicFn := some load } }
    after (fun t => t.jtag.ldicFn) (ldicFunction 0 true s) = some none
      ∧ (match ldicFunction 0 true { s with icache := { s.icache with lines := [l] } } with
          | .refused e => e == .ldicMisused
          | _ => false) = true := by decide

/-- R13_dbg as a scratch register (61_debug R790): Thumb MOV R13,R0 may use it, and its value stays for the next instruction; STR
R0,[R13] finds a free value there, and MOV R0,R13,RRX. -/
theorem test_scratch_13 :
    let s : State := { sup with cpsr := 0xD5, dbg := { sup.dbg with sds := true } }
    let t : State := { s with cpsr := 0xF5 }
    after (fun t => (t.reg 13, t.freeCount)) (runDecoded t (.tMov3 13 0) t) = some (7, 0)
      ∧ (s.hide13 (.strImm .al ⟨.offset, true, 13⟩ 0 0)).freeCount = 1
      ∧ (s.hide13 (.movShift .al false 0 ⟨0, .ror, 13⟩)).freeCount = 1
      ∧ (s.hide13 (.movShift .al false 0 ⟨0, .lsl, 13⟩)).freeCount = 0
      ∧ (sup.hide13 (.strImm .al ⟨.offset, true, 13⟩ 0 0)).freeCount = 0 := by decide

/-- The hypotheses on the power mode, on Halt mode and on the JTAG instruction, both ways. -/
theorem witness_reset : (withDcsr 0xC0000000 sup).haltMode = true ∧ sup.haltMode = false ∧ sup.jtag.ir ≠ irLdic
    ∧ ({ sup with jtag := { sup.jtag with ir := 0b00111 } } : State).jtag.ir = irLdic ∧ sup.power.mode ≠ .sleep
    ∧ ({ sup with power := { sup.power with mode := .sleep } } : State).power.mode = .sleep := by decide

/-- The four invariants hold of a state with a step. -/
theorem witness_invariants : let s := start 0x1000 0xD3 [(1, 5), (2, 0x2000)] [] 32 0xE5821000
    memWf s.mem = true ∧ memWf s.synced = true ∧ s.statusWf = true ∧ s.registersWf = true ∧ s.pcWf = true ∧ ∃ t, step s = .next t :=
  ⟨by decide, by decide, by decide, by decide, by decide, exists_next (by decide)⟩

/-- User mode: an instruction that stays, one that takes an exception, one that makes the debug entry. -/
theorem witness_user_confined : usr.mode = modeUsr ∧ (∃ t, exec (.movImm .al true 1 ⟨0, 1⟩) usr = .next t)
    ∧ (∃ t, exec (.swi .al 1) usr = .next t) ∧ (withDcsr 0xC0000000 usr).mode = modeUsr
    ∧ ∃ t, exec (.bkpt .al 0) (withDcsr 0xC0000000 usr) = .next t :=
  ⟨by decide, exists_next (by decide), exists_next (by decide), by decide, exists_next (by decide)⟩

/-- Q set: an instruction that keeps it, a return that clears it. -/
theorem witness_sticky : let s : State := { sup with cpsr := 0x080000D3, spsrs := sup.spsrs.set 2 0x10 }
    flagQ s.cpsr = true ∧ (∃ t, exec (.qadd .al 1 2 3) s = .next t)
      ∧ ∃ t, exec (.movShift .al true 15 ⟨0, .lsl, 1⟩) s = .next t :=
  ⟨by decide, exists_next (by decide), exists_next (by decide)⟩

theorem witness_failed_branch : condOf (.b .eq 4) = some .eq ∧ condOf (.bl .eq 4) = some .eq
    ∧ condOf (.bx .eq 4) = some .eq ∧ condOf (.blx2 .eq 4) = some .eq ∧ sup.noDirtyLine = true := by decide
/-- LDM is none of the branches. -/
theorem witness_failed_plain (k : Cond) (off : BitVec 24) (rm : Reg) : let i := Instr.ldm1 .eq ⟨false, true, true, 1⟩ 4
    (i ≠ .b k off ∧ i ≠ .bl k off) ∧ i ≠ .bx k rm ∧ i ≠ .blx2 k rm := by simp
theorem witness_failed_condition : condOf (.ldm1 .eq ⟨false, true, true, 1⟩ 4) = some .eq
    ∧ condPassed .eq sup.cpsr = false ∧ sup.thumb = false := by decide

/-- ARM state with the condition passed: AL, and EQ with Z set; register operands that are not R15. -/
theorem witness_arm_state : condPassed .al sup.cpsr = true ∧ sup.thumb = false
    ∧ condPassed .eq ({ sup with cpsr := 0x400000D3 } : State).cpsr = true
    ∧ (0 : Reg) ≠ 15 ∧ (14 : Reg) ≠ 15 ∧ (⟨1, .ror, 2⟩ : RegShift).rm ≠ 15 ∧ (⟨1, .ror, 2⟩ : RegShift).rs ≠ 15 := by decide

/-- Shift amounts at the borders of the clauses. -/
theorem witness_shift_amounts : (0 < 1 ∧ 1 < 32) ∧ (0 < 31 ∧ 31 < 32) ∧ 32 < 33 ∧ 32 ≤ 32 ∧ 32 % 32 = 0 ∧ 33 % 32 ≠ 0 := by
  decide

/-- MSR: User mode; a privileged mode and a legal value, with and without the control byte; an SPSR. -/
theorem witness_msr : usr.mode = modeUsr ∧ sup.mode ≠ modeUsr ∧ sup.dbg.sds = false
    ∧ ((9 : BitVec 4).getLsbD 0 = true ∧ (rotImmValue ⟨0, 0x1F⟩).getLsbD 5 = false)
    ∧ modeLegal (modeBits (mergeMask sup.cpsr (msrByteMask 9) (rotImmValue ⟨0, 0x1F⟩))) = true
    ∧ modeBits (mergeMask sup.cpsr (msrByteMask 9) (rotImmValue ⟨0, 0x1F⟩)) ≠ modeDbg
    ∧ modeLegal (modeBits (mergeMask sup.cpsr (msrByteMask 8) 0)) = true
    ∧ sup.spsr = some 0 ∧ spsrIndex sup.mode = some 2 := by decide

/-- CLZ of zero, of one, of the top bit. -/
theorem witness_clz : condPassed .al sup.cpsr = true ∧ sup.thumb = false ∧ sup.reg 6 = 0 ∧ sup.reg 0 ≠ 0 := by decide

/-- The accumulator enabled. -/
theorem witness_accumulator : condPassed .al sup.cpsr = true ∧ sup.thumb = false ∧ sup.cp15.cpar.getLsbD 0 = true := by decide

/-- Branches: taken and not; targets of each kind. -/
theorem witness_branches : sup.thumb = false ∧ condPassed .al sup.cpsr = true ∧ condPassed .eq sup.cpsr = false
    ∧ sup.reg 1 &&& 3 ≠ 2 ∧ sup.reg 3 &&& 3 ≠ 2 ∧ sup.reg 2 &&& 3 = 2 ∧ supT.thumb = true ∧ supT.reg 2 &&& 3 = 2
    ∧ supT.reg 1 &&& 3 ≠ 2 := by decide

/-- A SWI of Supervisor mode counts as PMU event 0xD, one of User mode does not (12_state R145). -/
theorem test_swi_event : after (fun t => t.scratch.events.count 0x0D) (exec (.swi .al 0) sup) = some 1
    ∧ after (fun t => t.scratch.events.count 0x0D) (exec (.swi .al 0) usr) = some 0 := by decide

/-- SWI and undefined instructions, in both instruction sets, outside and inside Special Debug State. -/
theorem witness_swi : sup.dbg.sds = false ∧ sup.thumb = false ∧ supT.thumb = true
    ∧ ({ sup with dbg := { sup.dbg with sds := true } } : State).dbg.sds = true ∧ (13 : Reg).getLsbD 0 = true := by decide

/-- BKPT disabled, in monitor mode, in Halt mode. -/
theorem witness_breakpoint : sup.ge = false ∧ (withDcsr 0x80000000 sup).ge = true ∧ (withDcsr 0x80000000 sup).haltMode = false
    ∧ (withDcsr 0xC0000000 sup).ge = true ∧ (withDcsr 0xC0000000 sup).haltMode = true ∧ sup.dbg.sds = false
    ∧ supT.thumb = true := by decide
/-- A store to a data breakpoint, and the state after it with debug enabled or not. -/
theorem witness_data_breakpoint : let s : State := { sup with cp15 := { sup.cp15 with dbr0 := 0x2002, dbcon := 1 } }
    s.plainMemory = true ∧ (0x2000 : Word).toNat % 4 = 0
      ∧ (okAnd (fun _ t => t.scratch.dataBreak) (writeMem 4 0x2000 1 true s)) = true
      ∧ (okAnd (fun _ t => !t.scratch.dataBreak) (readMem 4 0x2000 true s)) = true
      ∧ ({ withDcsr 0x80000000 sup with scratch := { Scratch.empty with dataBreak := true } } : State).scratch.dataBreak = true := by
  decide

/-- A return: an SPSR with a legal mode; a mode without an SPSR. -/
theorem witness_return : let s : State := { sup with spsrs := sup.spsrs.set 2 0x30 }
    s.spsr = some 0x30 ∧ modeLegal (modeBits 0x30) = true ∧ modeBits 0x30 ≠ modeDbg ∧ usr.spsr = none := by decide

theorem witness_data_abort : FaultCode.domainValid .permSection = true ∧ FaultCode.farValid .permSection = true := by decide

/-- LDR of an address with bits 1:0 = 10, STRH of an odd one, LDRD of an address with bits 2:0 = 100 and of an odd one. -/
theorem witness_alignment :
    (LoadForm (aligned sup) (.ldrImm .al ⟨.offset, true, 2⟩ 0 0) 4 false true ⟨0x2002, none⟩ 2 0
      ∧ (aligned sup).alignCheckOn = true ∧ (0x2002 : Word) &&& 3 ≠ 0 ∧ (aligned sup).dbg.sds = false)
    ∧ StoreForm (aligned supT) (.tStrh1 0 3 0) 2 7 true ⟨0x2001, none⟩ 3
    ∧ (DoubleForm sup (.ldrdImm .al ⟨true, true, false, 4⟩ 0 0) false ⟨0x2004, none⟩ 4 0 ∧ (0x2004 : Word) &&& 7 = 4)
    ∧ DoubleForm (aligned sup) (.strdImm .al ⟨true, true, false, 3⟩ 0 0) true ⟨0x2001, none⟩ 3 0
    ∧ LoadList (aligned sup) (.ldm1 .al ⟨false, true, false, 2⟩ 0x8000) modeSvc 0x8000 ⟨0x2002, none⟩ 2
    ∧ StoreList (aligned supT) (.tStmia 2 1) modeSvc 1 ⟨0x2002, some 0x2006⟩ 2 :=
  ⟨⟨.ldrImm .al ⟨.offset, true, 2⟩ 0 0 (by decide) (by decide) (by decide) (by unfold Mode2Ok; decide), by decide⟩,
    .tStrh1 0 3 0 (by decide),
    ⟨.ldrdImm .al ⟨true, true, false, 4⟩ 0 0 (by decide) (by decide) (by decide) (by decide) (by unfold Mode3Ok; decide), by decide⟩,
    .strdImm .al ⟨true, true, false, 3⟩ 0 0 (by decide) (by decide) (by decide) (by decide) (by unfold Mode3Ok; decide),
    .ldm1 .al ⟨false, true, false, 2⟩ 0x8000 (by decide) (by decide) (by decide) (by decide) (by decide) (by decide),
    .tStmia 2 1 (by decide) (by decide)⟩
/-- LDM (3), SWP, LDC and STC of R2's misaligned address. -/
theorem witness_alignment_rest : (aligned sup).alignCheckOn = true ∧ (aligned sup).mode ≠ modeDbg
    ∧ (aligned sup).mode4 ⟨false, true, false, 2⟩ 1 = ⟨0x2002, none⟩ ∧ (1#1 ++ (0 : BitVec 15)).getLsbD (2 : Reg).toNat = false
    ∧ (aligned sup).reg 2 &&& 3 ≠ 0 ∧ (aligned sup).mode5 ⟨true, true, false, false, 2⟩ 0 = ⟨0x2002, none⟩
    ∧ (aligned sup).cpDenied 14 = false ∧ (aligned sup).debugAccessTraps 14 8 = false := by decide

/-- Nothing of higher priority; an enabled FIQ request; an enabled IRQ request without one. -/
theorem witness_interrupts :
    let f : State := { sup with cpsr := 0x13, icu := { sup.icu with intctl := 1, fiqPin := true } }
    let i : State := { sup with cpsr := 0x13, icu := { sup.icu with intctl := 2, irqPin := true } }
    f.hostEvents = [] ∧ f.inReset = false ∧ f.power.mode = .active ∧ f.pendingAbort = none ∧ f.vectorTrap = none
      ∧ f.ge = false ∧ f.dbg.sds = false ∧ f.fiqInternal = true ∧ bitF f.cpsr = false
      ∧ (i.fiqInternal && !bitF i.cpsr) = false ∧ i.irqInternal = true ∧ bitI i.cpsr = false := by decide

/-- Vector traps: of reset with GE = 0, of a SWI; an imprecise abort, in Special Debug State and not; an external break;
an instruction breakpoint in each instruction set. -/
theorem witness_pending :
    let trap : State := { withDcsr 0x40010000 sup with pc := 0 }
    let swi : State := { withDcsr 0xC0040000 sup with pc := 8 }
    let brk : State := { withDcsr 0x80000000 sup with dbg := { (withDcsr 0x80000000 sup).dbg with extBreak := true } }
    let ib : State := { withDcsr 0x80000000 sup with cp15 := { sup.cp15 with ibcr0 := 0x1001 } }
    (trap.haltMode = true ∧ trap.pc = trap.vectorBase ∧ trap.dbg.dcsr.getLsbD 16 = true ∧ trap.dbg.sds = false)
    ∧ (swi.haltMode = true ∧ swi.ge = true ∧ swi.dbg.dcsr.getLsbD 18 = true ∧ swi.pc = swi.vectorBase + 8)
    ∧ (({ sup with pendingAbort := some .parity } : State).pendingAbort = some .parity ∧ sup.vectorTrap = none
        ∧ ({ sup with dbg := { sup.dbg with sds := true } } : State).vectorTrap = none)
    ∧ (brk.ge = true ∧ brk.dbg.sds = false ∧ brk.haltMode = false ∧ brk.mode ≠ modeAbt ∧ brk.dbg.extBreak = true ∧ brk.vectorTrap = none
        ∧ brk.pendingAbort = none)
    ∧ (ib.ge = true ∧ ib.vectorTrap = none ∧ ib.dbg.extBreak = false ∧ ib.dbg.tbFull = false ∧ ib.irqInternal = false
        ∧ (0x1001 : Word).getLsbD 0 = true ∧ (0x1001 : Word).extractLsb' 2 30 = (ib.mvaOf ib.pc).extractLsb' 2 30
        ∧ (0x1001 : Word).extractLsb' 1 31 = (ib.mvaOf ib.pc).extractLsb' 1 31) := by decide

/-- An access aborts, and `p` holds of the fault. -/
def abortsWith {α : Type} (p : DataFault → Bool) : Acc α → Bool
  | .abort f _ => p f
  | _ => false

/-- A fetch that the board aborts; a fetch whose table walk meets a multi-bit ECC error. -/
theorem witness_prefetch_abort :
    let s : State := { sup with board := { sup.board with abortRegions := [⟨0x1000, 0x1FFF, true, false⟩] } }
    let e : State := { sup with
      cp15 := { sup.cp15 with control := 0x79, ttbr := 0x4000, auxControl := 2 }
      bcu := { sup.bcu with bcuctl := 8 }
      board := { sup.board with ecc := [(0x800, .multi 3)] } }
    s.quiet = true ∧ s.dbg.sds = false ∧ abortsWith (fun f => !f.fetchIsData) (fetch { s with scratch := .empty }) = true
      ∧ e.quiet = true ∧ e.dbg.sds = false ∧ abortsWith (fun f => f.fetchIsData) (fetch { e with scratch := .empty }) = true := by
  decide

/-- The process ID's two clauses at their border. -/
theorem witness_mva : (0x01FFFFFF : Word).toNat < 2 ^ 25 ∧ 2 ^ 25 ≤ (0x02000000 : Word).toNat := by decide

theorem witness_plain_memory : sup.plainMemory = true ∧ memWf sup.mem = true ∧ (0x2000 : Word).toNat % 4 = 0
    ∧ (0x2002 : Word).getLsbD 0 = false ∧ sup.alignCheckOn = false ∧ (0x2000 : Word) &&& 3 = 0 := by decide

/-- A store whose every hypothesis holds: STRB R0,[R3]. -/
theorem witness_store_frame : ∃ s1 s2 t va x,
    StoreForm sup (.strbImm .al ⟨.offset, true, 3⟩ 0 0) 1 7 true ⟨0x2001, none⟩ 3 ∧ alignData 1 0x2001 sup = .ok va s1
      ∧ translate false (s1.mvaOf va) true true s1 = .ok x s2 ∧ s2.findData (s2.mvaOf va) = none
      ∧ (s2.cacheable x && s2.writeAllocate x) = false ∧ x.p = false ∧ memWf sup.mem = true
      ∧ exec (.strbImm .al ⟨.offset, true, 3⟩ 0 0) sup = .next t ∧ s2.busAborts true x.pa 1 = false := by
  obtain ⟨t, ht⟩ := exists_next (o := exec (.strbImm .al ⟨.offset, true, 3⟩ 0 0) sup) (by decide)
  exact ⟨_, _, t, _, _, .strbImm .al ⟨.offset, true, 3⟩ 0 0 (by decide) (by decide) (by decide) (by unfold Mode2Ok; decide), rfl, rfl,
    by decide, by decide, by decide, by decide, ht, by decide⟩

/-- `sup`, with what other masters write before the coming requests. -/
def shared (ws : List (List (Word × Byte))) : State := { sup with board := { sup.board with between := ws } }

/-- LDMIA R1,{R4,R5} while another master is to write before its second word: a byte that write meets, and one it does not. -/
theorem witness_only_stores : storesData (.ldm1 .al ⟨false, true, true, 1⟩ 0x30) = false
    ∧ (shared [[], [(0x2004, 0xAA)]]).noDirtyLine = true ∧ memWf (shared [[], [(0x2004, 0xAA)]]).mem = true
    ∧ (shared [[], [(0x2004, 0xAA)]]).othersMayWrite 0x2004 = true ∧ (shared [[], [(0x2004, 0xAA)]]).othersMayWrite 0x2000 = false
    ∧ sup.othersMayWrite 0x2001 = false
    ∧ ∃ t, exec (.ldm1 .al ⟨false, true, true, 1⟩ 0x30) (shared [[], [(0x2004, 0xAA)]]) = .next t :=
  ⟨by decide, by decide, by decide, by decide, by decide, by decide, exists_next (by decide)⟩

/-- Another master's write of the second word lands between the two reads of an LDM (62_platform R875). -/
theorem test_ldm_between : after (fun t => (t.reg 4, t.reg 5, t.board.between.length))
    (exec (.ldm1 .al ⟨false, true, true, 1⟩ 0x30) (shared [[(0x2000, 0x99)], [(0x2004, 0xAA)], []]))
      = some (0x44332299, 0xAA, 1) := by decide

/-- The hypotheses of the clauses about other masters' writes. -/
theorem witness_between : let s := shared ([[(0x2005, 1)] ++ [((0x2000 : Word), (0x99 : Byte))], [(0x2040, 2)]])
    s.plainBus = true ∧ memWf s.mem = true ∧ s.scratch.lock = .free ∧ s.board.between = ([(0x2005, 1)] ++ [(0x2000, 0x99)]) :: [[(0x2040, 2)]]
      ∧ s.othersMayWrite 0x2001 = false ∧ (s.reg 1).toNat % 4 = 0 ∧ (0x201F : Word).toNat / 32 = (s.mvaOf (s.reg 1)).toNat / 32
      ∧ 4 ≤ ((0x201F : Word) - s.mvaOf (s.reg 1)).toNat := by decide

/-- SWP's read locks its 32-byte block: another master's write there waits for the request after the swap's write, one elsewhere
does not (20_memory R245; 62_platform R875). -/
theorem test_swp_lock :
    okAnd (fun v t => v == 0x44332299 && wordAt 0x2000 t == 7 && wordAt 0x201C t == 0 && wordAt 0x2020 t == 0x66
        && t.board.between == [[(0x201C, 0x55)]])
      (swapMem 4 0x2000 7 (shared [[(0x2000, 0x99)], [(0x201C, 0x55), (0x2020, 0x66)]])) = true := by decide

/-- The MMU on, with a first-level descriptor for MVA 0x1234 at 0x4000, a second-level word at `a`, and the DACR. -/
def walking (l1 : Nat) (a : Word) (l2 : Nat) (dacr : Word) : State :=
  { sup with
    mem := ((sup.setBytesAt 0x4000 (leBytes 4 l1)).setBytesAt a (leBytes 4 l2)).mem
    cp15 := { sup.cp15 with control := 0x79, ttbr := 0x4000, dacr := dacr } }
/-- The word a walk reads at an address. -/
def walkWord (s : State) (a : Word) : Word := BitVec.ofNat 32 (assemble s.bigEndian (s.bytesAt a 4))

/-- Faults of the fetch's translation: a multi-bit error, a bus abort, a descriptor without a translation. -/
theorem witness_fetch_walk :
    let w (l1 : Nat) : State := { walking l1 0x6000 0 1 with scratch := .empty }
    let tr (s : State) := translate true s.fetchAddress false s.priv s
    let b : State := { w 2 with board := { sup.board with abortRegions := [⟨0x4000, 0x4003, true, false⟩] } }
    let e : State := { w 2 with
      cp15 := { (w 2).cp15 with auxControl := 2 }, bcu := { sup.bcu with bcuctl := 8 }
      board := { sup.board with ecc := [(0x800, .multi 3)] } }
    b.quiet = true ∧ abortsWith (fun g => !g.ecc && g.code == .extL1) (tr b) = true
      ∧ e.quiet = true ∧ abortsWith (fun g => g.ecc && g.code == .extL1) (tr e) = true
      ∧ (w 0).quiet = true ∧ abortsWith (fun g => g.code == .xlatSection) (tr (w 0)) = true
      ∧ abortsWith (fun f => f.code == .instrMmu && !f.fetchIsData) (fetch (w 0)) = true := by decide

/-- Sections of a manager, of a client that may and one that may not, of no access; a large page in a coarse table; a tiny
page in a fine one; a descriptor without a translation. -/
theorem witness_walk :
    (∀ s ∈ [walking 0x000011E2 0x6000 0 0xC0000000, walking 0xC02 0x6000 0 1, walking 2 0x6000 0 1, walking 2 0x6000 0 2,
        walking 0x6001 0x6004 0x11 1, walking 0x6003 0x6010 0x33 1, walking 0 0x6000 0 1],
      s.mmuOn = true ∧ ((s.tlb false).entries.filter fun e => e.hits 0x1234) = [] ∧ s.board.abortRegions = []
        ∧ s.board.between = [] ∧ s.cp15.auxControl.getLsbD 1 = false)
    ∧ (walkWord (walking 0x000011E2 0x6000 0 0xC0000000) 0x4000).extractLsb' 0 2 = 0b10
    ∧ ((0xC0000000 : Word) >>> (2 * 15)).extractLsb' 0 2 = 0b11
    ∧ permitted 0b11 false false true false = some true ∧ permitted 0b00 false false true true = some false
    ∧ (walkWord (walking 0x6001 0x6004 0x11 1) 0x4000).extractLsb' 0 2 = 0b01
    ∧ (walkWord (walking 0x6001 0x6004 0x11 1) 0x6004).extractLsb' 0 2 = 0b01
    ∧ (walkWord (walking 0x6003 0x6010 0x33 1) 0x4000).extractLsb' 0 2 = 0b11
    ∧ (walkWord (walking 0x6003 0x6010 0x33 1) 0x6010).extractLsb' 0 2 = 0b11
    ∧ ((0x1234 : Word) >>> 20) <<< 2 = 0 ∧ (((0x1234 : Word).extractLsb' 12 8).setWidth 32 <<< 2 : Word) = 4
    ∧ (((0x1234 : Word).extractLsb' 10 10).setWidth 32 <<< 2 : Word) = 0x10 := by decide

/-- A TLB entry with each AP value, domain 3, and the DACR and Control values of each clause. -/
def entry (ap : BitVec 8) : TlbEntry := ⟨0, true, true, .sect, 0, 0, 3, ap, false, false, false, false⟩
theorem witness_permissions : (entry 0).apAt 0x1000 = 0b00 ∧ (entry 0x55).apAt 0x1000 = 0b01 ∧ (entry 0xAA).apAt 0x1000 = 0b10
    ∧ (entry 0xFF).apAt 0x1000 = 0b11
    ∧ ((0xC0 : Word) >>> (2 * (entry 0).domain.toNat)).extractLsb' 0 2 = 0b11
    ∧ ((0x80 : Word) >>> (2 * (entry 0).domain.toNat)).extractLsb' 0 2 = 0b10
    ∧ ((0x40 : Word) >>> (2 * (entry 0).domain.toNat)).extractLsb' 0 2 = 0b01
    ∧ ((0 : Word) >>> (2 * (entry 0).domain.toNat)).extractLsb' 0 2 = 0b00
    ∧ (0x378 : Word).getLsbD 8 = true ∧ (0x378 : Word).getLsbD 9 = true ∧ (0x78 : Word).getLsbD 8 = false := by decide
theorem witness_locked_entry : ∀ e ∈ [entry 0], e.locked = true ∧ e.valid = true := by decide
/-- A line that is already in the instruction cache is locked in the next way all the same (21_mmu R307). -/
theorem test_lock_again :
    let e (i : BitVec 5) (base : Word) (c : Bool) : TlbEntry := ⟨i, true, false, .sect, base, base, 15, 0, false, c, false, false⟩
    let lk : State := { sup with
      cp15 := { sup.cp15 with control := 0x1079, dacr := 0xC0000000 }
      itlb := { sup.itlb with entries := [e 0 0 false, e 1 0x100000 true] } }
    okAnd (fun _ t => okAnd (fun _ u => (u.icache.lines.map fun l => (l.way, l.locked)) == [(1, true), (0, true)])
      (fetchAndLockI 0x100000 t)) (fetchAndLockI 0x100000 lk) = true := by decide
/-- Supervisor mode, the MMU on and off; a walk that answers; no entry for the MVA; the instruction cache on and off; a
fetch and lock that may run. -/
theorem witness_functions_rest : let s (dacr : Word) := walking 0x000011E2 0x6000 0 dacr
    let in_ : State := { s 0 with itlb := { (s 0).itlb with entries := [entry 0] } }
    okAnd (fun e t => okAnd (fun _ _ => true) (checkAccess e 0x1234 false true t)) (walk 0x1234 (s 0xC0000000)) = true
      ∧ okAnd (fun e t => abortsWith (fun f => f.code == .domSection) (checkAccess e 0x1234 false true t)) (walk 0x1234 (s 0)) = true
      ∧ abortsWith (fun f => f.code == .xlatSection) (walk 0x1234 (walking 0 0x6000 0 1)) = true
      ∧ (in_.itlb.entries.any fun k => k.hits 0x1234) = true ∧ in_.mmuOn = true ∧ (s 0).dbg.sds = false := by decide
/-- Lock functions of the instruction TLB that do not lock (21_mmu R299; 60_exceptions R713): of a section whose domain or
permission bars a privileged read, Abort mode and no entry; of a resident MVA, nothing. -/
theorem test_tlb_lock : let f (l1 : Nat) (dacr : Word) := { walking l1 0x6000 0 dacr with regs := sup.regs.set 1 0x1234 }
    let lock (s : State) := after (fun t => (t.mode, t.itlb.entries.any fun e => e.hits 0x1234, t.itlb.lock))
      (exec (.mcr .al 0 10 1 15 0 4) s)
    lock (f 0x1E2 0) = some (modeAbt, false, 0) ∧ lock (f 0x1E2 0x40000000) = some (modeAbt, false, 0)
      ∧ lock (f 0x1E2 0xC0000000) = some (modeSvc, true, 1)
      ∧ lock { f 0 0 with itlb := { sup.itlb with entries := [entry 0] } } = some (modeSvc, true, 0)
      ∧ abortsWith (fun e => e.code == .lock) (translateAndLock true 0x1234 (f 0x1E2 0x40000000)) = true := by decide
theorem witness_functions : let s := walking 0x000011E2 0x6000 0 0xC0000000
    let lk : State := { s with
      cp15 := { s.cp15 with control := 0x1079 }
      itlb := { s.itlb with entries := [⟨0, true, false, .sect, 0, 0, 15, 0, false, false, false, false⟩,
        ⟨1, true, false, .sect, 0x100000, 0x100000, 15, 0, false, true, false, false⟩] } }
    s.thumb = false ∧ s.mode ≠ modeUsr ∧ s.mmuOn = true ∧ sup.mmuOn = false
      ∧ okAnd (fun _ _ => true) (walk 0x1234 s) = true ∧ (s.itlb.entries.any fun k => k.hits 0x1234) = false
      ∧ s.icacheOn = false ∧ lk.icacheOn = true ∧ okAnd (fun _ _ => true) (fetchAndLockI 0x100000 lk) = true
      ∧ condPassed .al s.cpsr = true := by decide

/-- A valid data cache line at 0x2000, dirty in both halves or clean. -/
def dline (d : Bool) : CacheLine := ⟨0, 3, 8, true, false, d, d, 0x8000, false, 0, lineOfBytes [1, 2, 3], false⟩
def cached (d : Bool) : State := { sup with dcache := { sup.dcache with lines := [dline d] } }
theorem witness_write_back : let x : Xlat := { pa := 0x8000, x := false, c := true, b := true, p := false }
    attributeFault x (cached false) = none ∧ (cached false).dcache.find 0x201F = some (dline false)
      ∧ (cached false).writeThrough x = false ∧ offsetOf 0x201F + 1 ≤ 32
      ∧ (cached true).dcache.find 0x2000 = some (dline true)
      ∧ (dline true).bad = 0 ∧ (dline true).ecc = false ∧ (cached true).board.abortRegions = []
      ∧ memWf (cached true).mem = true ∧ (cached true).othersMayWrite 0x8000 = false ∧ (cached true).findData 0x4000 = none ∧ (cached true).dcacheOn = false
      ∧ okAnd (fun _ t => (t.dcache.find 0x4000).isNone && t.noDirtyLine) (translateUnchecked 0x4000 (cached false)) = true
      ∧ okAnd (fun _ t => (t.dcache.find 0x2000).isSome) (translateUnchecked 0x2000 (cached false)) = true
      ∧ ({ sup with cp15 := { sup.cp15 with control := 0x7D } } : State).dcacheOn = true := by decide
/-- Misses that allocate: in the data cache, in lock mode, in the mini-data cache, with a dirty victim; a write-through hit; a
store that does not allocate. -/
theorem witness_fills :
    let on (s : State) : State := { s with cp15 := { s.cp15 with control := 0x7D } }
    let locking (s : State) : State := { s with cp15 := { s.cp15 with dcacheLock := true } }
    let victim : State := { on (cached true) with dcache := { (cached true).dcache with rr := Vector.replicate 32 3 } }
    let wb : Xlat := { pa := 0x401F, x := true, c := true, b := true, p := true }
    let mini : Xlat := { wb with b := false }
    let wt : Xlat := { wb with x := false, b := false }
    (∀ s ∈ [on sup, locking (on sup), victim], ∀ x ∈ [wb, wt], attributeFault x s = none ∧ s.findData 0x401F = none
        ∧ s.cacheable x = true ∧ x.toMini = false ∧ s.bcu.bcuctl.getLsbD 3 = false ∧ s.board.abortRegions = []
        ∧ s.board.between = [] ∧ memWf s.mem = true)
    ∧ mini.toMini = true ∧ (on sup).cacheable mini = true ∧ (on sup).cp15.dcacheLock = false ∧ attributeFault mini (on sup) = none
    ∧ (on sup).writeAllocate wb = true ∧ (on sup).writeAllocate wt = false ∧ (on sup).writeThrough wt = true
    ∧ victim.dcache.find 0x201F = some (dline true) ∧ victim.dcache.lineAt (setOf 0x401F) 3 = some (dline true)
    ∧ offsetOf 0x401F + 1 ≤ 32 := by decide
/-- A load that misses writes back the victim's dirty half only and fills its way (21_mmu R313, R319). -/
theorem test_fill_evicts :
    let s : State := { sup with
      cp15 := { sup.cp15 with control := 0x7D }
      dcache := { lines := [{ dline true with dirtyHi := false }], rr := Vector.replicate 32 3 } }
    okAnd (fun bs t => bs == [0x11, 0x22] && wordAt 0x8000 t == 0x030201 && wordAt 0x8010 t == 0
        && (t.dcache.lineAt 0 3).map (·.tag) == some 0x10 && t.dcache.rr[(0 : Fin 32)] == 4)
      (dataRead { pa := 0x2000, x := false, c := true, b := true, p := false } 0x4000 2 s) = true := by decide
/-- A line dirty in one half is written back in that half only (21_mmu R322). -/
theorem test_clean_one_half :
    okAnd (fun _ t => wordAt 0x8000 t == 0x030201 && wordAt 0x8010 t == 0 && (t.scratch.events.count 0x0C == 1))
      (cleanDLine 0x2000 { sup with dcache := { sup.dcache with lines := [{ dline true with dirtyHi := false }] } }) = true := by
  decide

/-- Loads whose access succeeds: with write-back, of the PC, as User, in Thumb state; LDRSB of the PC. -/
theorem witness_loads :
    (LoadForm sup (.ldrhReg .al ⟨false, true, false, 1⟩ 0 5) 2 false true ⟨0x2000, some 0x2004⟩ 1 0
      ∧ ∃ v s1, readMem 2 0x2000 true sup = .ok v s1 ∧ (v == 0x2211) = true)
    ∧ (LoadForm sup (.ldrImm .al ⟨.offset, true, 3⟩ 15 0) 4 false true ⟨0x2001, none⟩ 3 15
      ∧ ∃ v s1, readMem 4 0x2001 true sup = .ok v s1 ∧ (v == 0x44332211) = true)
    ∧ (LoadForm sup (.ldrtImm .al true 1 0 4) 4 false false ⟨0x2000, some 0x2004⟩ 1 0
      ∧ ∃ v s1, readMem 4 0x2000 false sup = .ok v s1 ∧ (v == 0x44332211) = true)
    ∧ LoadForm sup (.ldrsbImm .al ⟨true, true, false, 1⟩ 15 0) 1 true true ⟨0x2000, none⟩ 1 15
    ∧ (LoadForm supT (.tLdrsb 5 1 0) 1 true true ⟨0x2004, none⟩ 1 0
      ∧ ∃ v s1, readMem 1 0x2004 true supT = .ok v s1 ∧ (v == 0) = true) :=
  ⟨⟨.ldrhReg .al ⟨false, true, false, 1⟩ 0 5 (by decide) (by decide) (by decide) (by unfold Mode3Ok; decide), exists_ok (by decide)⟩,
    ⟨.ldrImm .al ⟨.offset, true, 3⟩ 15 0 (by decide) (by decide) (by decide) (by unfold Mode2Ok; decide), exists_ok (by decide)⟩,
    ⟨.ldrtImm .al true 1 0 4 (by decide) (by decide) (by decide) (by unfold Mode2Ok; decide), exists_ok (by decide)⟩,
    .ldrsbImm .al ⟨true, true, false, 1⟩ 15 0 (by decide) (by decide) (by unfold Mode3Ok; decide),
    ⟨.tLdrsb 5 1 0 (by decide), exists_ok (by decide)⟩⟩

/-- Stores whose access succeeds: pre-indexed, as User, of R15, in Thumb state. -/
theorem witness_stores :
    (StoreForm sup (.strImm .al ⟨.pre, false, 4⟩ 0 4) 4 7 true ⟨0x2000, some 0x2000⟩ 4
      ∧ ∃ u s1, writeMem 4 0x2000 7 true sup = .ok u s1 ∧ (wordAt 0x2000 s1 == 7) = true)
    ∧ (StoreForm sup (.strbtImm .al true 3 0 1) 1 7 false ⟨0x2001, some 0x2002⟩ 3
      ∧ ∃ u s1, writeMem 1 0x2001 7 false sup = .ok u s1 ∧ (wordAt 0x2000 s1 == 0x44330711) = true)
    ∧ StoreForm sup (.strtImm .al true 1 15 4) 4 (sup.storedReg sup.mode 15) false ⟨0x2000, some 0x2004⟩ 1
    ∧ StoreForm supT (.tStr3 0 255) 4 7 true ⟨0x3FC, none⟩ 13 :=
  ⟨⟨.strImm .al ⟨.pre, false, 4⟩ 0 4 (by decide) (by decide) (by unfold Mode2Ok; decide), exists_ok (by decide)⟩,
    ⟨.strbtImm .al true 3 0 1 (by decide) (by decide) (by decide) (by unfold Mode2Ok; decide), exists_ok (by decide)⟩,
    .strtImm .al true 1 15 4 (by decide) (by decide) (by unfold Mode2Ok; decide),
    .tStr3 0 255 (by decide)⟩

/-- A doubleword load and store at a doubleword address. -/
theorem witness_doublewords :
    (DoubleForm sup (.ldrdImm .al ⟨true, true, true, 1⟩ 6 8) false ⟨0x2008, some 0x2008⟩ 1 6
      ∧ DoubleForm sup (.strdReg .al ⟨false, true, false, 1⟩ 12 5) true ⟨0x2000, some 0x2004⟩ 1 12)
    ∧ (0x2008 : Word) &&& 7 = 0
    ∧ (okAnd (fun _ s1 => okAnd (fun _ _ => true) (readMem 4 0x200C true s1)) (readMem 4 0x2008 true sup)) = true
    ∧ (okAnd (fun _ s1 => okAnd (fun _ _ => true) (writeMem 4 0x2004 0 true s1)) (writeMem 4 0x2000 0 true sup)) = true :=
  ⟨⟨.ldrdImm .al ⟨true, true, true, 1⟩ 6 8 (by decide) (by decide) (by decide) (by decide) (by unfold Mode3Ok; decide),
    .strdReg .al ⟨false, true, false, 1⟩ 12 5 (by decide) (by decide) (by decide) (by decide) (by unfold Mode3Ok; decide)⟩,
    by decide, by decide, by decide⟩

/-- Block loads: with the PC in the list, into the user bank, POP, LDMIA with the base in the list, LDM (3). -/
theorem witness_block_loads :
    LoadList sup (.ldm1 .al ⟨false, true, true, 1⟩ 0x8030) modeSvc 0x8030 ⟨0x2000, some 0x200C⟩ 1
    ∧ LoadList sup (.ldm2 .al ⟨true, false, false, 1⟩ 0x6000) modeUsr 0x6000 ⟨0x1FF8, none⟩ 1
    ∧ LoadList supT (.tPop true 0) modeSvc 0x8000 ⟨0, some 4⟩ 13
    ∧ LoadList supT (.tLdmia 1 0x06) modeSvc 0x06 ⟨0x2000, none⟩ 1
    ∧ (okAnd (fun _ s1 => okAnd (fun _ _ => true) (readMem 4 0x2008 true s1))
        (loadRegs modeSvc true (lowList 0x8030) 0x2000 sup)) = true
    ∧ sup.spsr = some 0 ∧ ({ sup with spsrs := sup.spsrs.set 2 0x10 } : State).spsr = some 0x10
    ∧ modeLegal (modeBits 0x10) = true ∧ modeBits 0x10 ≠ modeDbg ∧ (1#1 ++ (0x30 : BitVec 15)).getLsbD (1 : Reg).toNat = false :=
  ⟨.ldm1 .al ⟨false, true, true, 1⟩ 0x8030 (by decide) (by decide) (by decide) (by decide) (by decide) (by decide),
    .ldm2 .al ⟨true, false, false, 1⟩ 0x6000 (by decide) (by decide) (by decide) (by decide) (by decide) (by decide) (by decide),
    .tPop true 0 (by decide) (by decide) (by decide), .tLdmia 1 0x06 (by decide) (by decide) (by decide),
    by decide, by decide, by decide, by decide, by decide, by decide⟩

/-- Block stores: with the base lowest and written back, from the user bank, PUSH, STMIA. -/
theorem witness_block_stores :
    StoreList sup (.stm1 .al ⟨true, false, true, 1⟩ 0x8002) modeSvc 0x8002 ⟨0x1FF8, some 0x1FF8⟩ 1
    ∧ StoreList sup (.stm2 .al ⟨false, true, false, 1⟩ 0x4001) modeUsr 0x4001 ⟨0x2000, none⟩ 1
    ∧ StoreList supT (.tPush true 1) modeSvc 0x4001 ⟨0xFFFFFFF8, some 0xFFFFFFF8⟩ 13
    ∧ StoreList supT (.tStmia 1 0x81) modeSvc 0x81 ⟨0x2000, some 0x2008⟩ 1
    ∧ (okAnd (fun _ _ => true) (storeWords true [1, 2] 0x1FF8 (sup.draw 1))) = true
    ∧ (regList 0x8002)[0]? = some 1 :=
  ⟨.stm1 .al ⟨true, false, true, 1⟩ 0x8002 (by decide) (by decide) (by decide) (by decide),
    .stm2 .al ⟨false, true, false, 1⟩ 0x4001 (by decide) (by decide) (by decide) (by decide) (by decide) (by decide),
    .tPush true 1 (by decide) (by decide), .tStmia 1 0x81 (by decide) (by decide), by decide, by decide⟩

theorem witness_block_memory : sup.plainMemory = true ∧ (0x2000 : Word) &&& 3 = 0 ∧ ([0, 4, 14] : List Reg).Nodup
    ∧ (15 : Reg) ∉ ([0, 4, 14] : List Reg) ∧ ([1, 2] : List Word).length ≤ 16 ∧ memWf sup.mem = true := by decide

/-- SWP of R1's word with R0 into R6. -/
theorem witness_swap : sup.thumb = false ∧ condPassed .al sup.cpsr = true ∧ sup.mode ≠ modeDbg ∧ (1 : Reg) ≠ 15
    ∧ (6 : Reg) ≠ 15 ∧ (0 : Reg) ≠ 15 ∧ (1 : Reg) ≠ 0 ∧ (1 : Reg) ≠ 6 ∧ (sup.reg 1).toNat % 4 = 0
    ∧ (okAnd (fun v _ => v == 0x44332211) (swapMem 4 (sup.reg 1) (sup.reg 0) sup)) = true := by decide

theorem witness_preload : sup.thumb = false ∧ sup.bus32 = false ∧ (⟨0, .lsl, 1⟩ : ImmShift).rm ≠ 15 := by decide

/-- MCR and MRC of TTBR and of PMNC, LDC and STC of TX and INTCTL. -/
theorem witness_coprocessor : sup.cpDenied 15 = false ∧ sup.cpDenied 14 = false ∧ sup.cpDenied 13 = false
    ∧ sup.debugAccessTraps 15 2 = false ∧ sup.debugAccessTraps 14 0 = false ∧ sup.debugAccessTraps 13 0 = false
    ∧ (okAnd (fun _ _ => true) (cpWrite 15 2 0 0 7 sup)) = true ∧ (okAnd (fun _ _ => true) (cpWrite 13 0 0 0 7 sup)) = true
    ∧ (okAnd (fun _ _ => true) (readMem 4 0x2000 true sup)) = true
    ∧ (okAnd (fun p s => okAnd (fun v t => okAnd (fun _ _ => true) (storeChecked 4 v p t)) (cpRead 14 8 0 0 s))
        (checkStore 4 0x2000 true sup)) = true
    ∧ abortsWith (fun f => f.code == .alignment) (checkStore 4 0x2002 true (aligned sup)) = true ∧ sup.mode ≠ modeDbg ∧ (1 : Reg) ≠ 15 := by decide
theorem witness_coprocessor_reads : (okAnd (fun _ _ => true) (cpRead 14 1 0 0 sup)) = true
    ∧ (okAnd (fun _ _ => true) (cpRead 15 3 0 0 sup)) = true := by decide

/-- An STC of TBREG that aborts does not read it: with the trace buffer on it takes the data abort too (D19). -/
theorem test_stc_abort : after (fun t => (t.mode, t.pc))
    (exec (.stc .al ⟨true, true, false, false, 2⟩ 11 14 0) (withDcsr 0x80000001 (aligned sup))) = some (modeAbt, 0x10) := by decide

/-- User mode, CPAR cleared, a coprocessor that does not exist. -/
theorem witness_access_traps : usr.mode = modeUsr ∧ State.reset.cp15.cpar.getLsbD 13 = false
    ∧ State.reset.cp15.cpar.getLsbD 0 = false ∧ (12 : BitVec 4) ≠ 0 ∧ (12 : BitVec 4).toNat < 13 ∧ (1 : BitVec 4) ≠ 0
    ∧ State.reset.dbg.sds = false ∧ usr.dbg.sds = false ∧ (2 : BitVec 3) ≠ 1 := by decide

theorem witness_readback : sup.minid.lines = [] ∧ sup.debugLocked = false ∧ sup.traceOn = false
    ∧ (withDcsr 0x80000000 sup).ge = true ∧ (withDcsr 0x80000000 sup).debugLocked = false ∧ (0x2001 : Word) &&& 0x1FFE = 0
    ∧ 0 < ((9 : Word) &&& 0xF).toNat ∧ ((9 : Word) &&& 0xF).toNat < 10 ∧ (3 : Word) &&& 3 ≠ 2
    ∧ sup.dbg.txrxctrl.getLsbD 28 = false ∧ sup.dbg.txrxctrl.getLsbD 31 = false
    ∧ (0x80000000 : Word).getLsbD 28 = false ∧ (0x80000000 : Word).getLsbD 31 = true
    ∧ ({ sup.dbg with txrxctrl := 0x10000000 } : Dbg).txrxctrl.getLsbD 28 = true ∧ sup.bcu.bcuctl.getLsbD 3 = false
    ∧ ((9 : Word) ^^^ 8) &&& 5 ≠ 0 ∧ ((8 : Word) ^^^ 9) &&& 4 = 0 ∧ sup.bcu.dweWritten = false := by
  decide
/-- A JTAG instruction for each scan. -/
theorem witness_scans : ∀ c ∈ [irSeldcsr, irDbgtx, irDbgrx], ({ sup with jtag := { sup.jtag with ir := c } } : State).jtag.ir = c := by
  decide

/-- Thumb state; a high register in either place, and R15 as destination. -/
theorem witness_thumb : supT.thumb = true ∧ (8 : Reg).getLsbD 3 = true ∧ (15 : Reg).getLsbD 3 = true ∧ (8 : Reg) ≠ 15 := by decide

/-- The states of the clauses about stops: User mode, DEBUG mode, Special Debug State, a form of mode 2 that may not run. -/
theorem witness_stops : condPassed .al sup.cpsr = true ∧ usr.spsr = none ∧ condPassed .al usr.cpsr = true
    ∧ ({ sup with cpsr := 0xD5 } : State).mode = modeDbg
    ∧ ({ sup with dbg := { sup.dbg with sds := true } } : State).dbg.sds = true
    ∧ ¬Mode2Ok ⟨.post, true, 1⟩ 1 none ∧ ¬Mode2Ok ⟨.pre, true, 15⟩ 1 none ∧ ¬Mode2Ok ⟨.post, true, 1⟩ 2 (some 1)
    ∧ sup.cp15.cpar.getLsbD 13 = true ∧ sup.cp15.cpar.getLsbD 0 = true
    ∧ (rotImmValue ⟨0, 0x33⟩).getLsbD 5 = true ∧ modeLegal (modeBits (rotImmValue ⟨0, 0x10⟩)) = true
    ∧ modeLegal (modeBits (rotImmValue ⟨0, 0⟩)) = false ∧ modeBits (rotImmValue ⟨0, 0x15⟩) = modeDbg
    ∧ modeBits (rotImmValue ⟨0, 0x10⟩) = modeUsr ∧ sup.mode ≠ modeUsr := by
  unfold Mode2Ok
  decide

/-- A request the board aborts, with no log, one log and both logs in use. -/
theorem witness_bus_abort : let s : State := { sup with board := { sup.board with abortRegions := [⟨0x3000, 0x3000, true, true⟩] } }
    (s.eccOn false && s.bus32) = false ∧ s.board.between = [] ∧ s.eccOn false = false
      ∧ s.busAborts false 0x3000 1 = true ∧ s.busAborts false 0x2FFD 4 = true ∧ s.busAborts true 0x3000 (min 8 2) = true
      ∧ ([1, 2] : List Byte) ≠ [] ∧ s.bus32 = false
      ∧ s.bcu.bcuctl.getLsbD 28 = false ∧ (0x10000000 : Word).getLsbD 28 = true ∧ (0x10000000 : Word).getLsbD 29 = false
      ∧ (0x30000000 : Word).getLsbD 29 = true := by decide
/-- A byte out of the write buffer goes out as a word: its abort is logged with the word's address (62_platform R873). -/
theorem test_buffered_byte_abort :
    let s : State := { sup with board := { sup.board with abortRegions := [⟨0x2400, 0x2403, false, true⟩] } }
    okAnd (fun _ t => t.bcu.ecar0 == 0x2400) (busWrite true 0x2402 [1] false s) = true
      ∧ okAnd (fun _ t => t.bcu.ecar0 == 0x2402) (busWrite false 0x2402 [1] false s) = true := by decide
/-- A line read that the board aborts in its second data cycle, after a good block, a single-bit and a multi-bit error. -/
theorem witness_aborted_burst :
    let e (x : EccState) : State := { walking 0x1E2 0x6000 0 0xC0000000 with
      bcu := { sup.bcu with bcuctl := 8 }
      board := { sup.board with ecc := (if x = .good then [] else [(0x400, x)]), abortRegions := [⟨0x2008, 0x2008, true, false⟩] } }
    ∀ x ∈ [EccState.good, .checkBit 1, .multi 3], (e x).eccOn true = true ∧ (e x).bus32 = false ∧ (e x).board.between = []
      ∧ (e x).busAborts false 0x2000 32 = true ∧ (e x).receivedBlocks 0x2000 0x2000 32 = [0x400] ∧ (e x).eccAt 0x400 = x := by decide
/-- Line reads for a fetch cut short in their second data cycle, by the board and by a multi-bit error: the words of the first run. -/
theorem witness_partial_line :
    let s (b : Bool) : State := { sup with
      bus32 := b, board := { sup.board with abortRegions := [⟨0x2008, 0x2008, true, false⟩] } }
    let e : State := { walking 0x1E2 0x6000 0 0xC0000000 with
      bcu := { sup.bcu with bcuctl := 8 }, board := { sup.board with ecc := [(0x401, .multi 3)] } }
    (∀ b, (s b).eccOn false = false ∧ (s b).cwfAt 0x2000 = false ∧ (s b).busAborts false 0x2000 32 = true
        ∧ (s b).busAborts false 0x2000 8 = false ∧ (s b).busAborts false 0x2008 4 = true ∧ (s b).busAborts false 0x2008 8 = true
        ∧ (s b).board.between = [])
      ∧ e.eccOn true = true ∧ e.busAborts false 0x2000 32 = false ∧ e.readBlocks 0x2000 (e.lineRequest 0x2004) 32 = [0x400, 0x401, 0x402, 0x403]
      ∧ e.eccAt 0x400 = .good ∧ e.eccAt 0x401 = .multi 3 ∧ blockOf 0x2004 = 0x400 ∧ blockOf 0x2008 = 0x401
      ∧ (0x2004 : Word).toNat % sup.isize.toNat = 0 := by decide
/-- The board aborts the second data cycle of the line at 0x2000, of the order CDAB the fourth: its first words run and stay in a
fetch buffer, the abort is logged, the other words abort (21_mmu R303; 62_platform R872, R874). -/
theorem test_partial_line :
    let s (cwf : List (Word × Word)) : State := { sup with
      bcu := { sup.bcu with bcumod := 1 }
      board := { sup.board with cwf := cwf, abortRegions := [⟨0x2008, 0x2008, true, false⟩] } }
    let x (pa : Word) : Xlat := { pa := pa, x := false, c := true, b := false, p := false }
    okAnd (fun w t => w == 0x44332211 && t.fetchBufs.buf0.valid == 0b11 && t.bcu.ecar0 == 0x2000 && t.icache.lines == [])
        (fetchMiss (x 0x2000) 0x2000 (s [])) = true
      ∧ abortsWith (fun f => f.code == .external) (fetchMiss (x 0x2008) 0x2008 (s [])) = true
      ∧ okAnd (fun _ t => t.fetchBufs.buf0.valid == 0b11110011) (fetchMiss (x 0x2010) 0x2010 (s [(0, 0xFFFFFFFF)])) = true := by decide
/-- A read-modify-write of a block with a single-bit error, SC = 1 (62_platform R852, R874): it is corrected with the write,
and stays, memory with it, when the unlocking write is aborted. -/
theorem test_read_modify_write :
    let e (r : List AbortRegion) : State := { walking 0x1E2 0x6000 0 0xC0000000 with
      bcu := { sup.bcu with bcuctl := 0xC }
      board := { sup.board with ecc := [(0x420, .dataBit 8 7)], abortRegions := r } }
    let w (s : State) := busWrite false 0x2100 [0xAA] true s
    (e []).eccOn true = true ∧ (e []).bcu.ectst.getLsbD 31 = false ∧ (e []).bus32 = false
      ∧ (e [⟨0x2100, 0x2107, false, true⟩]).busAborts true (BitVec.ofNat 32 (blockOf 0x2100 * 8)) 8 = true
      ∧ okAnd (fun _ t => t.bytesAt 0x2100 2 == [0xAA, 1] && t.eccAt 0x420 == .good) (w (e [])) = true
      ∧ okAnd (fun _ t => t.bytesAt 0x2100 2 == [0, 0] && t.eccAt 0x420 == .dataBit 8 7)
          (w (e [⟨0x2100, 0x2107, false, true⟩])) = true := by decide
/-- The line fill for a miss at 0x248 with AF = 1 (95_test_vectors X25): with CWF high the pair at 0x248 comes first, and of a
burst aborted at 0x258 the pairs at 0x248 and 0x250 have come; with CWF low the burst begins at 0x240 (62_platform R872). -/
theorem test_critical_word_first :
    let s (c : List (Word × Word)) : State := { sup with
      bcu := { sup.bcu with bcumod := 1 }
      board := { sup.board with cwf := c, abortRegions := [⟨0x258, 0x258, true, false⟩] } }
    let hi := s [(0, 0xFFFFFFFF)]
    hi.lineRequest 0x248 = 0x248 ∧ hi.readBlocks 0x240 0x248 32 = [0x49, 0x4A, 0x4B, 0x48]
      ∧ hi.receivedBlocks 0x240 0x248 32 = [0x49, 0x4A] ∧ (s []).receivedBlocks 0x240 0x248 32 = [0x48, 0x49, 0x4A]
      ∧ (s []).readBlocks 0x240 0x248 32 = [0x48, 0x49, 0x4A, 0x4B] := by decide
/-- Checked reads of a block with each kind of error, at both ends of the block. -/
theorem witness_ecc :
    let e (x : EccState) : State := { walking 0x1E2 0x6000 0 0xC0000000 with
      bcu := { sup.bcu with bcuctl := 8 }, board := { sup.board with ecc := [(0x400, x)] } }
    (∀ x ∈ [EccState.dataBit 63 7, .checkBit 1, .multi 3], (e x).eccOn true = true ∧ (e x).bus32 = false ∧ (e x).board.between = []
        ∧ (e x).eccAt 0x400 = x ∧ (e x).busAborts false 0x2004 4 = false ∧ (e x).busAborts false 0x2000 32 = false)
    ∧ (e .good).eccAt 0x401 = .good ∧ blocksOf 0x2004 4 = [0x400] ∧ blocksOf 0x2000 8 = [0x400] ∧ blocksOf 0x2007 1 = [0x400]
    ∧ ({ (e .good).cp15 with auxControl := 2 } : Cp15).auxControl.getLsbD 1 = true
    ∧ attributeFault ⟨0x2004, false, false, true, true⟩ (e .good) = none ∧ (e .good).findData 0x2004 = none
    ∧ (e .good).cacheable ⟨0x2004, false, false, true, true⟩ = false ∧ memWf (e .good).mem = true
    ∧ ((e .good).readBlocks (0x2010 &&& 0xFFFFFFE0) ((e .good).lineRequest 0x2010) 32).head? = some 0x400 := by decide

theorem witness_trace : State.reset.trace.bytes.length = 256 ∧ State.reset.trace.count ≠ 15
    ∧ ({ State.reset.trace with count := 15 } : Trace).count = 15 := ⟨List.length_replicate, by decide, by decide⟩

/-- The counters and the trace buffer enabled and not, with and without a data breakpoint met. -/
theorem witness_retire : let s : State := { withDcsr 0x80000003 sup with pmu := { sup.pmu with pmnc := 1 } }
    s.pmu.pmnc.getLsbD 0 = true ∧ sup.pmu.pmnc.getLsbD 0 = false ∧ s.traceOn = true ∧ sup.traceOn = false
      ∧ sup.scratch.dataBreak = false := by decide

/-- The power modes and pins of the clauses, and writes of 0, 1 and 3. -/
theorem witness_low_power : let idle : State := { sup with power := { sup.power with mode := .idle } }
    idle.hostEvents = [] ∧ idle.inReset = false ∧ (idle.icu.fiqPin || idle.icu.irqPin) = false
      ∧ (true || idle.icu.irqPin) = true
      ∧ ({ sup.bcu with bcuctl := 0x10000001 } : Bcu).bcuctl &&& 0x70000000 ≠ 0 ∧ sup.mode ≠ modeUsr ∧ sup.thumb = false ∧ condPassed .al sup.cpsr = true
      ∧ (sup.reg 6).extractLsb' 0 2 = 0 ∧ (sup.reg 3).extractLsb' 0 2 = 1 ∧ (sup.reg 0).extractLsb' 0 2 = 3 := by decide

end Sys2Proof.Tests
end

section
/-!
PROOFS. The bits of a status register: what each update of one keeps, when it holds no reserved bit, and when an address is
aligned for an instruction set.
-/

namespace Sys2Proof.Machine

/-! ## Bits that an update keeps -/

theorem getLsbD_setBit_of_ne (p : Word) {i j : Nat} (h : j ≠ i) (v : Bool) : (setBit p i v).getLsbD j = p.getLsbD j := by
  cases v
  · by_cases hj : j < 32
    · simp [setBit, h, hj]
    · rw [BitVec.getLsbD_of_ge _ _ (by omega), BitVec.getLsbD_of_ge _ _ (by omega)]
  · simp [setBit, h.symm]

theorem getLsbD_setBit_self (p : Word) {i : Nat} (h : i < 32) (v : Bool) : (setBit p i v).getLsbD i = v := by
  cases v <;> simp [setBit, h]

theorem getLsbD_withMode_of_ge (p : Word) (m : BitVec 5) {i : Nat} (h : 5 ≤ i) :
    (withMode p m).getLsbD i = p.getLsbD i := by
  refine (getLsbD_append' (k := 32) (p.extractLsb' 5 27) m rfl i).trans ?_
  rw [if_neg (by omega), BitVec.getLsbD_extractLsb']
  by_cases hi : i < 32
  · simp [show i - 5 < 27 by omega, show 5 + (i - 5) = i by omega]
  · rw [BitVec.getLsbD_of_ge p i (by omega)]
    simp [show ¬ i - 5 < 27 by omega]

/-- FIQ and Halt mode's entry differ from the others in F only. -/
theorem getLsbD_entryCpsr (p : Word) (m : BitVec 5) (f : Bool) {i : Nat} (h : i ≠ 6) :
    (entryCpsr p m f).getLsbD i = (setBit (setBit (withMode p m) 5 false) 7 true).getLsbD i := by
  unfold entryCpsr
  cases f
  · rfl
  · exact getLsbD_setBit_of_ne _ h true

/-- An exception entry changes the mode, T, I and F only. -/
theorem getLsbD_entryCpsr_of_ge (p : Word) (m : BitVec 5) (f : Bool) {i : Nat} (h : 8 ≤ i) :
    (entryCpsr p m f).getLsbD i = p.getLsbD i := by
  have h5 : i ≠ 5 := by omega
  have h6 : i ≠ 6 := by omega
  have h7 : i ≠ 7 := by omega
  rw [getLsbD_entryCpsr _ _ _ h6, getLsbD_setBit_of_ne _ h7, getLsbD_setBit_of_ne _ h5,
    getLsbD_withMode_of_ge _ _ (by omega)]

theorem getLsbD_mergeMask (p mask v : Word) (i : Nat) :
    (mergeMask p mask v).getLsbD i = if mask.getLsbD i then v.getLsbD i else p.getLsbD i := by
  by_cases hi : i < 32
  · simp only [mergeMask, BitVec.getLsbD_or, BitVec.getLsbD_and, BitVec.getLsbD_not, hi, decide_true, Bool.true_and]
    cases mask.getLsbD i <;> simp
  · rw [BitVec.getLsbD_of_ge (mergeMask p mask v) i (by omega), BitVec.getLsbD_of_ge v i (by omega),
      BitVec.getLsbD_of_ge p i (by omega), ite_self]

/-- Two words agree in the mode if they agree in bits 4:0. -/
theorem modeBits_congr {p q : Word} (h : ∀ i < 5, q.getLsbD i = p.getLsbD i) : modeBits q = modeBits p := by
  refine BitVec.eq_of_getLsbD_eq fun i hi => ?_
  simp only [modeBits, BitVec.getLsbD_extractLsb', hi, decide_true, Bool.true_and, Nat.zero_add]
  exact h i hi

/-! ## The bits that exist (10_state R39) -/

theorem getLsbD_psrMask {i : Nat} (h : i < 8 ∨ 27 ≤ i ∧ i < 32) : psrMask.getLsbD i = true := by
  have key : ∀ j : Fin 32, (j.val < 8 ∨ 27 ≤ j.val) → psrMask.getLsbD j.val = true := by decide
  exact key ⟨i, by omega⟩ (h.imp id And.left)

theorem getLsbD_and_psrMask (p : Word) {i : Nat} (h : i < 8 ∨ 27 ≤ i ∧ i < 32) :
    (p &&& psrMask).getLsbD i = p.getLsbD i := by
  rw [BitVec.getLsbD_and, getLsbD_psrMask h, Bool.and_true]

theorem modeBits_and_psrMask (p : Word) : modeBits (p &&& psrMask) = modeBits p :=
  modeBits_congr fun i hi => getLsbD_and_psrMask p (.inl (by omega))

theorem bitT_and_psrMask (p : Word) : bitT (p &&& psrMask) = bitT p := getLsbD_and_psrMask p (.inl (by decide))
theorem bitI_and_psrMask (p : Word) : bitI (p &&& psrMask) = bitI p := getLsbD_and_psrMask p (.inl (by decide))
theorem bitF_and_psrMask (p : Word) : bitF (p &&& psrMask) = bitF p := getLsbD_and_psrMask p (.inl (by decide))

theorem psrWf_and_psrMask (p : Word) : psrWf (p &&& psrMask) = true := by
  rw [psrWf, BitVec.and_assoc]
  simp

theorem psrWf_iff (p : Word) : psrWf p = true ↔ ∀ i, 8 ≤ i → i < 27 → p.getLsbD i = false := by
  have mask : ∀ j : Fin 32, (~~~psrMask).getLsbD j.val = decide (8 ≤ j.val ∧ j.val < 27) := by decide
  rw [psrWf, beq_iff_eq]
  constructor
  · intro h i h8 h27
    have hi := congrArg (·.getLsbD i) h
    have hm := mask ⟨i, by omega⟩
    simp only at hm
    simpa [hm, h8, h27] using hi
  · intro h
    refine BitVec.eq_of_getLsbD_eq fun i hi => ?_
    have hm := mask ⟨i, hi⟩
    simp only at hm
    rw [BitVec.getLsbD_and, hm, show (0 : Word).getLsbD i = false from BitVec.getLsbD_zero]
    by_cases hb : 8 ≤ i ∧ i < 27
    · rw [h i hb.1 hb.2, Bool.false_and]
    · rw [decide_eq_false hb, Bool.and_false]

theorem psrWf_entryCpsr {p : Word} (h : psrWf p = true) (m : BitVec 5) (f : Bool) : psrWf (entryCpsr p m f) = true := by
  rw [psrWf_iff] at h ⊢
  intro i h8 h27
  rw [getLsbD_entryCpsr_of_ge p m f h8, h i h8 h27]

theorem flagQ_entryCpsr (p : Word) (m : BitVec 5) (f : Bool) : flagQ (entryCpsr p m f) = flagQ p :=
  getLsbD_entryCpsr_of_ge p m f (by decide)

/-! ## Updates of the flags -/

/-- `q` is `p` but for N, Z, C, V and T, and Q is not cleared. -/
structure PsrKept (p q : Word) : Prop where
  low : ∀ i < 27, i ≠ 5 → q.getLsbD i = p.getLsbD i
  sticky : flagQ p = true → flagQ q = true

/-- `q` is `p` but for N, Z, C and V, and Q is not cleared. -/
structure FlagsOnly (p q : Word) : Prop extends PsrKept p q where
  thumb : bitT q = bitT p

theorem PsrKept.trans {p q r : Word} (h : PsrKept p q) (k : PsrKept q r) : PsrKept p r :=
  ⟨fun i hi h5 => (k.low i hi h5).trans (h.low i hi h5), fun hq => k.sticky (h.sticky hq)⟩

theorem PsrKept.mode {p q : Word} (h : PsrKept p q) : modeBits q = modeBits p :=
  modeBits_congr fun i hi => h.low i (by omega) (by omega)

theorem PsrKept.bitI {p q : Word} (h : PsrKept p q) : bitI q = bitI p := h.low 7 (by decide) (by decide)

theorem PsrKept.bitF {p q : Word} (h : PsrKept p q) : bitF q = bitF p := h.low 6 (by decide) (by decide)

theorem PsrKept.psrWf {p q : Word} (h : PsrKept p q) (hp : psrWf p = true) : psrWf q = true := by
  rw [psrWf_iff] at hp ⊢
  intro i h8 h27
  rw [h.low i h27 (by omega), hp i h8 h27]

theorem psrKept_withT (p : Word) (t : Bool) : PsrKept p (withT p t) :=
  ⟨fun _ _ h5 => getLsbD_setBit_of_ne p h5 t, fun h => (getLsbD_setBit_of_ne p (by decide) t).trans h⟩

theorem bitT_withT (p : Word) (t : Bool) : bitT (withT p t) = t := getLsbD_setBit_self p (by decide) t

theorem FlagsOnly.refl (p : Word) : FlagsOnly p p := ⟨⟨fun _ _ _ => rfl, id⟩, rfl⟩

theorem flagsOnly_withNZCV {p : Word} {n z c v : Bool} : FlagsOnly p (withNZCV p n z c v) :=
  ⟨⟨fun i hi _ => getLsbD_withNZCV p n z c v i (by omega), fun h => (getLsbD_withNZCV p n z c v 27 (by decide)).trans h⟩,
    getLsbD_withNZCV p n z c v 5 (by decide)⟩

theorem flagsOnly_withQ (p : Word) (sat : Bool) : FlagsOnly p (withQ p sat) := by
  cases sat
  · exact .refl p
  · exact ⟨⟨fun i hi _ => getLsbD_setBit_of_ne p (by omega) true, fun _ => getLsbD_setBit_self p (by decide) true⟩,
      getLsbD_setBit_of_ne p (by decide) true⟩

/-- The flags of a result when S is set, else the register as it was. -/
theorem FlagsOnly.ite {p q : Word} (h : FlagsOnly p q) (sb : Bool) : FlagsOnly p (if sb then q else p) := by
  cases sb
  · exact .refl p
  · exact h

/-! ## Aligned addresses (10_state R34) -/

/-- The address is that of an instruction of the set in use: even in Thumb state, a multiple of 4 in ARM state. -/
def Aligned (thumb : Bool) (a : Word) : Prop := a.toNat % (if thumb then 2 else 4) = 0

theorem toNat_mod_two (a : Word) : a.toNat % 2 = 0 ↔ a &&& 1 = 0 := by
  rw [← BitVec.toNat_inj, BitVec.toNat_and]
  exact (Nat.and_two_pow_sub_one_eq_mod a.toNat 1).symm ▸ Iff.rfl

theorem toNat_mod_four (a : Word) : a.toNat % 4 = 0 ↔ a &&& 3 = 0 := by
  rw [← BitVec.toNat_inj, BitVec.toNat_and]
  exact (Nat.and_two_pow_sub_one_eq_mod a.toNat 2).symm ▸ Iff.rfl

theorem pcWf_iff (s : State) : s.pcWf = true ↔ Aligned s.thumb s.pc := by
  unfold State.pcWf Aligned
  cases s.thumb
  · simpa using (toNat_mod_four s.pc).symm
  · simpa using (toNat_mod_two s.pc).symm

theorem Aligned.of_arm {a : Word} (h : Aligned false a) (t : Bool) : Aligned t a := by
  cases t
  · exact h
  · simp only [Aligned, if_true, Bool.false_eq_true, if_false] at h ⊢
    omega

theorem Aligned.add {t : Bool} {a b : Word} (ha : Aligned t a) (hb : Aligned t b) : Aligned t (a + b) := by
  cases t <;> simp only [Aligned, if_true, Bool.false_eq_true, if_false, BitVec.toNat_add] at ha hb ⊢ <;> omega

theorem aligned_shiftLeft_two (t : Bool) (v : Word) : Aligned t (v <<< 2) := by
  refine Aligned.of_arm ?_ t
  simp only [Aligned, Bool.false_eq_true, if_false, BitVec.toNat_shiftLeft, Nat.shiftLeft_eq]
  omega

theorem aligned_shiftLeft_one (v : Word) : Aligned true (v <<< 1) := by
  simp only [Aligned, if_true, BitVec.toNat_shiftLeft, Nat.shiftLeft_eq]
  omega

theorem aligned_clear_two (t : Bool) (v : Word) : Aligned t (v &&& 0xFFFFFFFC) := by
  refine Aligned.of_arm ((toNat_mod_four _).2 ?_) t
  rw [BitVec.and_assoc]
  simp

theorem aligned_clear_one (v : Word) : Aligned true (v &&& 0xFFFFFFFE) := by
  refine (toNat_mod_two _).2 ?_
  rw [BitVec.and_assoc]
  simp

/-- A value with the bits cleared that the instruction set in use does not address by. -/
theorem aligned_clear (t : Bool) (v : Word) : Aligned t (if t then v &&& 0xFFFFFFFE else v &&& 0xFFFFFFFC) := by
  cases t
  · exact aligned_clear_two false v
  · exact aligned_clear_one v

/-- The target of BX that is not refused: bit 0 selects Thumb, and without it bit 1 is clear. -/
theorem aligned_exchange {v : Word} (h : v &&& 3 ≠ 2) : Aligned (v.getLsbD 0) (v &&& 0xFFFFFFFE) := by
  cases h0 : v.getLsbD 0
  · have h1 : v.getLsbD 1 = false := by
      rw [Ne, and_three_eq_two, h0] at h
      simpa using h
    have : v &&& 0xFFFFFFFE = v &&& 0xFFFFFFFC := by
      refine BitVec.eq_of_getLsbD_eq fun i hi => ?_
      by_cases i1 : i = 1
      · rw [i1, BitVec.getLsbD_and, BitVec.getLsbD_and, h1, Bool.false_and, Bool.false_and]
      · have key : ∀ j : Fin 32, j.val ≠ 1 → (0xFFFFFFFE : Word).getLsbD j.val = (0xFFFFFFFC : Word).getLsbD j.val := by
          decide
        rw [BitVec.getLsbD_and, BitVec.getLsbD_and, key ⟨i, hi⟩ i1]
    rw [this]
    exact aligned_clear_two false v
  · exact aligned_clear_one v

theorem aligned_vectorBase (s : State) (t : Bool) : Aligned t s.vectorBase := by
  unfold State.vectorBase
  cases s.cp15.control.getLsbD 13 <;> cases t <;> rfl

theorem aligned_offset (e : Exc) (t : Bool) : Aligned t e.offset := by
  cases e <;> cases t <;> rfl

theorem aligned_isize (s : State) : Aligned s.thumb s.isize := by
  unfold State.isize
  cases s.thumb <;> rfl

theorem aligned_four (t : Bool) : Aligned t 4 := by cases t <;> rfl

end Sys2Proof.Machine
end

section
/-!
PROOFS. All that an instruction can do to the status registers and the pc, said once (`Effect`), with one rule per operation
that the meanings share. The statements about every step and every instruction are read off it.
-/

namespace Sys2Proof.Machine

/-! ## What an instruction leaves of the system's registers -/

/-- CP15 but for FSR and FAR, the performance monitor, the power mode and the trace buffer's registers are as they were. -/
structure SystemKept (s t : State) : Prop where
  cp15 : t.cp15 = { s.cp15 with fsr := t.cp15.fsr, far := t.cp15.far }
  pmu : t.pmu = s.pmu
  power : t.power = s.power
  trace : t.trace = s.trace

theorem SystemKept.refl (s : State) : SystemKept s s := ⟨rfl, rfl, rfl, rfl⟩

theorem SystemKept.vectorBase {s t : State} (h : SystemKept s t) : t.vectorBase = s.vectorBase := by
  unfold State.vectorBase
  rw [h.cp15]

/-- The status registers and the pc are as they were. -/
structure SameStatus (s t : State) : Prop where
  cpsr : t.cpsr = s.cpsr
  spsrs : t.spsrs = s.spsrs
  pc : t.pc = s.pc

theorem SameStatus.refl (s : State) : SameStatus s s := ⟨rfl, rfl, rfl⟩

theorem SameStatus.trans {s t u : State} (h : SameStatus s t) (k : SameStatus t u) : SameStatus s u :=
  ⟨k.cpsr.trans h.cpsr, k.spsrs.trans h.spsrs, k.pc.trans h.pc⟩

theorem closed_sameStatus (s : State) : Closed (SameStatus s) := by
  constructor
  case mem => exact fun _ _ _ h => ⟨h.cpsr, h.spsrs, h.pc⟩
  all_goals exact fun _ _ h => ⟨h.cpsr, h.spsrs, h.pc⟩

/-- A state inside an instruction that began in `s`, before the status registers and the pc are written. -/
structure Underway (s u : State) : Prop extends SameStatus s u where
  system : s.priv = false → SystemKept s u

section
variable {s u : State}

theorem Underway.refl (s : State) : Underway s s := ⟨.refl s, fun _ => .refl s⟩

theorem Underway.thumb (h : Underway s u) : u.thumb = s.thumb := congrArg bitT h.cpsr

theorem Underway.mode (h : Underway s u) : u.mode = s.mode := congrArg modeBits h.cpsr

theorem Underway.isize (h : Underway s u) : u.isize = s.isize := by simp only [State.isize, h.thumb]

theorem Underway.priv (h : Underway s u) : u.priv = s.priv := congrArg modePriv h.mode

theorem Underway.spsr (h : Underway s u) : u.spsr = s.spsr := by simp only [State.spsr, h.mode, h.spsrs]

/-- In a privileged mode only the status registers and the pc count. -/
theorem Underway.of_priv (hp : s.priv = true) (h : SameStatus s u) : Underway s u :=
  ⟨h, fun hn => absurd (hp.symm.trans hn) (by decide)⟩

/-- Fields change that neither the status registers nor `SystemKept` speak of. -/
theorem Underway.of_fields {v : State} (h : Underway s u) (same : SameStatus u v) (cp15 : v.cp15 = u.cp15)
    (pmu : v.pmu = u.pmu) (power : v.power = u.power) (trace : v.trace = u.trace) : Underway s v := by
  refine ⟨h.toSameStatus.trans same, fun hn => ?_⟩
  have k := h.system hn
  exact ⟨by rw [cp15]; exact k.cp15, pmu.trans k.pmu, power.trans k.power, trace.trans k.trace⟩

/-- Every memory access stays inside its instruction. -/
theorem closed_underway (s : State) : Closed (Underway s) := by
  constructor
  case mem => exact fun _ _ _ h => h.of_fields ⟨rfl, rfl, rfl⟩ rfl rfl rfl rfl
  all_goals exact fun _ _ h => h.of_fields ⟨rfl, rfl, rfl⟩ rfl rfl rfl rfl

theorem Underway.setReg (h : Underway s u) (r : Reg) (v : Word) : Underway s (u.setReg r v) :=
  h.of_fields ⟨by simp, by simp, by simp⟩ (by simp) (by simp) (by simp) (by simp)

theorem Underway.setBankReg (h : Underway s u) (m : BitVec 5) (r : Reg) (v : Word) : Underway s (u.setBankReg m r v) :=
  h.of_fields ⟨rfl, rfl, rfl⟩ rfl rfl rfl rfl

theorem Underway.note (h : Underway s u) (ev : BitVec 8) : Underway s (u.note ev) :=
  h.of_fields ⟨rfl, rfl, rfl⟩ rfl rfl rfl rfl

theorem Underway.noteBranch (h : Underway s u) : Underway s u.noteBranch := h.note 5

theorem Underway.draw (h : Underway s u) (n : Nat) : Underway s (u.draw n) :=
  h.of_fields ⟨rfl, rfl, rfl⟩ rfl rfl rfl rfl

theorem Underway.apply (h : Underway s u) (a : Addr) (rn : Reg) : Underway s (a.apply rn u) := by
  unfold Addr.apply
  split
  · exact h.setReg _ _
  · exact h

theorem Underway.keepBase (h : Underway s u) (s0 : State) (rn : Reg) : Underway s (keepBase s0 rn u) := h.setReg _ _

theorem Underway.recordFault (h : Underway s u) (f : DataFault) : Underway s (u.recordFault f) := by
  refine ⟨h.toSameStatus.trans ⟨rfl, rfl, rfl⟩, fun hn => ?_⟩
  have k := h.system hn
  refine ⟨?_, k.pmu, k.power, k.trace⟩
  simp only [State.recordFault, State.draw_cp15]
  rw [k.cp15]

theorem Underway.setSticky (h : Underway s u) : Underway s u.setSticky := h.of_fields ⟨rfl, rfl, rfl⟩ rfl rfl rfl rfl

theorem Underway.recordBranch (h : Underway s u) (word : Word) (taken : Bool) (target : Word) :
    Underway s (u.recordBranch word taken target) := by
  have h2 : ∀ right : Bool, Underway s (if right then u.note 0x05 else (u.note 0x05).note 0x06) := fun right => by
    cases right
    · exact (h.note _).note _
    · exact h.note _
  have put : ∀ {v : State} (b : List BtbEntry), Underway s v → Underway s { v with btb := b } :=
    fun _ hv => hv.of_fields ⟨rfl, rfl, rfl⟩ rfl rfl rfl rfl
  unfold State.recordBranch
  dsimp only
  split
  · split
    · exact put _ (h2 _)
    · split
      · exact put _ (h2 _)
      · exact h2 _
  · exact h2 _

end

/-! ## The effect of an instruction -/

/-- MSR, of a register or of an immediate. -/
def isMsr : Instr → Bool
  | .msrReg .. => true
  | .msrImm .. => true
  | _ => false

/-- The instruction is of the instruction set in use, as far as the pc depends on it: a Thumb instruction runs in Thumb
state. -/
def Fits (i : Instr) (s : State) : Prop := i.isThumb = true → s.thumb = true

/-- What an instruction that goes from `s` to `t` did to the status registers and the pc: it went on with new flags at most
(or to the other instruction set), took an exception, entered Halt mode's debug handler, returned from an exception, or
was MSR. -/
inductive StatusEffect (i : Instr) (s t : State) : Prop
  | onward (cpsr : PsrKept s.cpsr t.cpsr) (spsrs : t.spsrs = s.spsrs) (pc : Fits i s → s.pcWf = true → t.pcWf = true)
  | entered (e : Exc) (kind : e ∈ [Exc.undef, Exc.swi, Exc.prefetch, Exc.data])
      (cpsr : t.cpsr = entryCpsr s.cpsr e.mode false) (spsrs : t.spsrs = s.spsrs.set e.spsr s.cpsr)
      (pc : t.pc = t.vectorBase + e.offset)
  | halted (cpsr : t.cpsr = entryCpsr s.cpsr modeDbg true) (spsrs : t.spsrs = s.spsrs.set (5 : Fin 6) s.cpsr)
      (pc : t.pc = t.vectorBase) (sds : t.dbg.sds = true)
  | returned (p : Word) (saved : s.spsr = some p) (legal : modeLegal (modeBits p) = true) (cpsr : t.cpsr = p &&& psrMask)
      (spsrs : t.spsrs = s.spsrs) (pc : t.pcWf = true)
  | wroteCpsr (msr : isMsr i = true) (p : Word) (cpsr : t.cpsr = p &&& psrMask)
      (priv : s.priv = true → modeLegal (modeBits p) = true)
      (user : s.priv = false → modeBits p = s.mode ∧ bitI p = bitI s.cpsr ∧ bitF p = bitF s.cpsr)
      (spsrs : t.spsrs = s.spsrs) (pc : s.pcWf = true → t.pcWf = true)
  | wroteSpsr (msr : isMsr i = true) (j : Fin 6) (p : Word) (cpsr : t.cpsr = s.cpsr)
      (spsrs : t.spsrs = s.spsrs.set j (p &&& psrMask)) (pc : s.pcWf = true → t.pcWf = true)

/-- What an instruction that goes from `s` to `t` did; without privilege it kept the system's registers. -/
structure Effect (i : Instr) (s t : State) : Prop where
  status : StatusEffect i s t
  system : s.priv = false → SystemKept s t

/-- A predicate holds of the next state, if there is one. -/
def Out.All (P : State → Prop) : Out → Prop
  | .next t => P t
  | .fault _ => True
  | .refused _ => True

/-- A rule for a next state, as one for a result. -/
theorem Out.all_next {P : State → Prop} {t : State} (h : P t) : Out.All P (.next t) := h

theorem Out.all_refused (P : State → Prop) (e : Refusal) : Out.All P (.refused e) := trivial

theorem Out.all_fault (P : State → Prop) (e : Fault) : Out.All P (.fault e) := trivial

theorem Out.All.next {P : State → Prop} {x : Out} {t : State} (hx : Out.All P x) (h : x = .next t) : P t := by
  subst h; exact hx

/-! ## Going on -/

section
variable {i : Instr} {s u : State}

/-- The pc moved by the size of an instruction, in either instruction set. -/
theorem pcWf_add {s t : State} (hT : t.thumb = s.thumb) {n : Word} (hn : Aligned s.thumb n) (hpc : t.pc = s.pc + n)
    (h : s.pcWf = true) : t.pcWf = true := by
  rw [pcWf_iff] at h ⊢
  rw [hT, hpc]
  exact h.add hn

/-- Past the instruction, with new flags at most. -/
theorem Underway.goOn (h : Underway s u) {q : Word} (hq : FlagsOnly u.cpsr q) {n : Word} (hn : Aligned s.thumb n) :
    Effect i s (({ u with cpsr := q } : State).advance n) := by
  have hs : FlagsOnly s.cpsr q := h.cpsr ▸ hq
  refine ⟨.onward hs.toPsrKept h.spsrs fun _ => pcWf_add hs.thumb hn ?_, fun hn => ?_⟩
  · exact congrArg (· + n) h.pc
  · have k := h.system hn
    exact ⟨k.cp15, k.pmu, k.power, k.trace⟩

/-- The size of the instruction is read off a state inside it. -/
theorem Underway.advance (h : Underway s u) {v : State} (hv : Underway s v) : Effect i s (u.advance v.isize) :=
  h.goOn (.refl _) (hv.isize ▸ aligned_isize s)

theorem Underway.advance_four (h : Underway s u) : Effect i s (u.advance 4) := h.goOn (.refl _) (aligned_four _)

theorem Underway.writeReg (h : Underway s u) (rd : Reg) (v : Word) : Out.All (Effect i s) (writeReg rd v u) :=
  (h.setReg rd v).advance h

/-- A jump to an address aligned for the instruction set that T then selects. -/
theorem Underway.jump (h : Underway s u) {q : Word} (hq : PsrKept u.cpsr q) {a : Word}
    (ha : Fits i s → s.pcWf = true → Aligned (bitT q) a) (f : Flow) :
    Effect i s (({ u with cpsr := q } : State).jump a f) := by
  refine ⟨.onward (h.cpsr ▸ hq) h.spsrs fun hi hs => (pcWf_iff _).2 (ha hi hs), fun hn => ?_⟩
  have k := h.system hn
  exact ⟨k.cp15, k.pmu, k.power, k.trace⟩

theorem Underway.jumpKeepState (h : Underway s u) {q : Word} (hq : PsrKept u.cpsr q) (v : Word) :
    Effect i s (({ u with cpsr := q } : State).jumpKeepState v) :=
  h.jump hq (fun _ _ => aligned_clear _ v) _

theorem Underway.branchExchange (h : Underway s u) (v : Word) : Out.All (Effect i s) (branchExchange v u) := by
  unfold Machine.branchExchange
  split
  · trivial
  · rename_i hv
    refine h.jump (psrKept_withT _ _) (fun _ _ => ?_) _
    rw [bitT_withT]
    exact aligned_exchange (mt (and_three_eq_two v).1 hv)

theorem Underway.loadPc (h : Underway s u) (v : Word) : Out.All (Effect i s) (loadPc v u) :=
  h.jumpKeepState (psrKept_withT _ _) v

theorem Underway.predictedBranch (h : Underway s u) (word : Word) (taken : Bool) {target : Word}
    (ha : Fits i s → s.pcWf = true → Aligned s.thumb target) :
    Out.All (Effect i s) (predictedBranch word taken target u) := by
  have hr := h.recordBranch word taken target
  unfold Machine.predictedBranch
  dsimp only
  split
  · exact hr.jump (FlagsOnly.refl _).toPsrKept (fun hi hs => (show bitT _ = s.thumb from hr.thumb) ▸ ha hi hs) _
  · exact hr.advance hr

/-! ## Exceptions -/

theorem Underway.takeException (h : Underway s u) {e : Exc} (kind : e ∈ [Exc.undef, Exc.swi, Exc.prefetch, Exc.data])
    (link : Word) (counted : Bool) : Effect i s (takeException e link counted u) := by
  have hF : e.setsF = false := by
    revert kind
    cases e <;> decide
  refine ⟨.entered e kind ?_ ?_ rfl, fun hn => ?_⟩
  · rw [takeException_cpsr, hF, h.cpsr]
  · rw [takeException_spsrs, h.spsrs, h.cpsr]
  · have k := h.system hn
    exact ⟨k.cp15, k.pmu, k.power, k.trace⟩

theorem Underway.raiseUndef (h : Underway s u) : Out.All (Effect i s) (raiseUndef u) := by
  unfold Machine.raiseUndef
  split
  · trivial
  · exact h.takeException (by decide) _ _

theorem Underway.raiseSwi (h : Underway s u) : Out.All (Effect i s) (raiseSwi u) := by
  unfold Machine.raiseSwi
  split
  · trivial
  · refine Underway.takeException ?_ (by decide) _ _
    split
    · exact h.note _
    · exact h

theorem Underway.debugCommon (h : Underway s u) (moe : BitVec 3) : Underway s (u.debugCommon moe) :=
  h.of_fields ⟨rfl, rfl, rfl⟩ rfl rfl rfl rfl

theorem Underway.debugEntryHalt (h : Underway s u) (moe : BitVec 3) (link : Word) :
    Effect i s (debugEntryHalt moe link u) := by
  refine ⟨.halted ?_ ?_ rfl rfl, fun hn => ?_⟩
  · exact congrArg (entryCpsr · modeDbg true) h.cpsr
  · show u.spsrs.set (5 : Fin 6) u.cpsr = _
    rw [h.spsrs, h.cpsr]
  · have k := h.system hn
    exact ⟨k.cp15, k.pmu, k.power, k.trace⟩

theorem Underway.debugEntryMonitor (h : Underway s u) (moe : BitVec 3) {e : Exc}
    (kind : e ∈ [Exc.undef, Exc.swi, Exc.prefetch, Exc.data]) (link : Word) :
    Effect i s (debugEntryMonitor moe e link u) := by
  have hF : e.setsF = false := by
    revert kind
    cases e <;> decide
  refine ⟨.entered e kind ?_ ?_ rfl, fun hn => ?_⟩
  · show entryCpsr u.cpsr e.mode e.setsF = _
    rw [hF, h.cpsr]
  · show u.spsrs.set e.spsr u.cpsr = _
    rw [h.spsrs, h.cpsr]
  · have k := h.system hn
    refine ⟨?_, k.pmu, k.power, k.trace⟩
    show ({ u.cp15 with fsr := _ } : Cp15) = _
    rw [k.cp15]
    rfl

theorem Underway.breakpoint (h : Underway s u) : Out.All (Effect i s) (breakpoint u) := by
  unfold Machine.breakpoint debugException
  split
  · exact h.advance h
  · split
    · exact h.debugEntryHalt _ _
    · exact h.debugEntryMonitor _ (by decide) _

/-- A return is from the mode's SPSR, to a mode that R31 lists. -/
theorem returnPsr_ok {p : Word} (h : returnPsr u = .ok p) : u.spsr = some p ∧ modeLegal (modeBits p) = true := by
  unfold returnPsr at h
  split at h
  · cases h
  · rename_i q hq
    split at h
    · cases h
    · rename_i hl
      split at h
      · cases h
      · cases h
        exact ⟨hq, by simpa using hl⟩

theorem Underway.exceptionReturn (h : Underway s u) (v : Word) : Out.All (Effect i s) (exceptionReturn v u) := by
  unfold Machine.exceptionReturn
  split
  · trivial
  · rename_i p hp
    obtain ⟨saved, legal⟩ := returnPsr_ok hp
    refine ⟨.returned p (h.spsr ▸ saved) legal rfl h.spsrs ?_, fun hn => ?_⟩
    · refine (pcWf_iff _).2 ?_
      show Aligned (bitT (p &&& psrMask)) _
      rw [bitT_and_psrMask]
      exact aligned_clear _ v
    · have k := h.system hn
      exact ⟨k.cp15, k.pmu, k.power, k.trace⟩

/-! ## Frames -/

theorem Underway.armCond (h : Underway s u) (c : Cond) {k : Out} (hk : Out.All (Effect i s) k) :
    Out.All (Effect i s) (armCond c u k) := by
  unfold Machine.armCond
  split
  · exact hk
  · exact h.advance_four

theorem Out.All.ite {P : State → Prop} {a b : Out} (ha : Out.All P a) (hb : Out.All P b) (c : Prop) [Decidable c] :
    Out.All P (if c then a else b) := by
  split
  · exact ha
  · exact hb

theorem Out.All.noR15 {P : State → Prop} {k : Out} (hk : Out.All P k) (rs : List Reg) : Out.All P (noR15 rs k) :=
  (Out.all_refused P _).ite hk _

theorem Out.All.unlessRefused {P : State → Prop} {k : Out} (hk : Out.All P k) (r : Option Refusal) :
    Out.All P (unlessRefused r k) := by
  cases r
  · exact hk
  · trivial

theorem Out.All.notInDebug {P : State → Prop} {k : Out} (hk : Out.All P k) (u : State) :
    Out.All P (notInDebug u k) := (Out.all_fault P _).ite hk _

/-- The end of an instruction that accesses memory: what follows, or the data abort, which in Special Debug State is only
recorded. -/
theorem Underway.finish {α : Type} {x : Acc α} (hx : x.All (Underway s)) (counted : Bool) {wb : State → State}
    (hwb : ∀ {v : State}, Underway s v → Underway s (wb v)) {k : α → State → Out}
    (hk : ∀ v {t : State}, Underway s t → Out.All (Effect i s) (k v t)) :
    Out.All (Effect i s) (x.finish counted wb k) := by
  cases x with
  | ok v t => exact hk v hx
  | abort f t =>
    have hf : Underway s t := hx
    unfold Acc.finish
    dsimp only
    split
    · exact (hwb (hf.recordFault f).setSticky).advance hf
    · exact (hf.recordFault f).takeException (by decide) _ _
  | fault e => trivial
  | refused e => trivial

end

end Sys2Proof.Machine
end

section
/-!
PROOFS. The effect of each group of instructions, and with them of every instruction (`exec_effect`).
-/

namespace Sys2Proof.Machine

section
variable {i : Instr} {s u : State}

/-! ## Data processing, multiplies -/

theorem writeAlu_effect {r : AluResult} (hr : FlagsOnly s.cpsr r.psr) (sb : Bool) (rd : Reg) :
    Out.All (Effect i s) (writeAlu sb rd r s) := by
  unfold writeAlu
  split
  · exact ((Underway.refl s).exceptionReturn _).ite
      (Out.all_next ((Underway.refl s).jumpKeepState (FlagsOnly.refl _).toPsrKept _)) _
  · refine ((Underway.refl s).setReg rd r.value).goOn ?_ (aligned_isize s)
    rw [State.setReg_cpsr]
    exact hr.ite sb

theorem writeFlags_effect {r : AluResult} (hr : FlagsOnly s.cpsr r.psr) : Out.All (Effect i s) (writeFlags r s) :=
  (Underway.refl s).goOn hr (aligned_isize s)

theorem writeSum_effect (rd : Reg) (v : Word) : Out.All (Effect i s) (writeSum rd v s) :=
  Out.All.ite (Out.all_next ((Underway.refl s).jumpKeepState (FlagsOnly.refl _).toPsrKept v))
    ((Underway.refl s).writeReg rd v) _

theorem writeProduct_effect (sb : Bool) (rd : Reg) (v : Word) : Out.All (Effect i s) (writeProduct sb rd v s) :=
  ((Underway.refl s).setReg rd v).goOn (flagsOnly_withNZCV.ite sb) (aligned_isize s)

theorem writeLong_effect (sb : Bool) (rdHi rdLo : Reg) (v : BitVec 64) :
    Out.All (Effect i s) (writeLong sb rdHi rdLo v s) :=
  (((Underway.refl s).setReg _ _).setReg _ _).goOn (flagsOnly_withNZCV.ite sb) (aligned_isize s)

theorem writeSticky_effect (rd : Reg) (v : Word) (q : Bool) : Out.All (Effect i s) (writeSticky rd v q s) :=
  ((Underway.refl s).setReg rd v).goOn (flagsOnly_withQ _ q) (aligned_isize s)

theorem twoDests_effect {k : Out} (hk : Out.All (Effect i s) k) (rdHi rdLo : Reg) :
    Out.All (Effect i s) (twoDests rdHi rdLo k) := (Out.all_refused _ _).ite hk _

theorem notBothLow_effect {k : Out} (hk : Out.All (Effect i s) k) (d m : Reg) :
    Out.All (Effect i s) (notBothLow d m k) := (Out.all_refused _ _).ite hk _

/-! ## The accumulator -/

theorem withAcc_effect {k : Out} (hk : Out.All (Effect i s) k) (acc : BitVec 3) (rs : List Reg) :
    Out.All (Effect i s) (withAcc acc rs s k) :=
  Out.All.ite (Underway.refl s).raiseUndef ((Out.all_refused _ _).ite (hk.noR15 rs) _) _

theorem sbzAcc_effect {k : Out} (hk : Out.All (Effect i s) k) (sbz : BitVec 5) : Out.All (Effect i s) (sbzAcc sbz k) :=
  hk.ite (Out.all_refused _ _) _

theorem Underway.setAcc (h : Underway s u) (v : BitVec 40) : Underway s { u with acc0 := v } :=
  h.of_fields ⟨rfl, rfl, rfl⟩ rfl rfl rfl rfl

theorem accumulate_effect (p : Int) : Out.All (Effect i s) (accumulate p s) :=
  ((Underway.refl s).setAcc _).advance (.refl s)

/-! ## MSR (40_arm R401) -/

theorem msrSpsr_effect (hi : isMsr i = true) (mask : BitVec 4) (v : Word) : Out.All (Effect i s) (msrSpsr mask v s) := by
  unfold msrSpsr
  split
  · trivial
  · exact ⟨.wroteSpsr hi _ _ rfl rfl (pcWf_add rfl (aligned_isize s) rfl), fun _ => ⟨rfl, rfl, rfl, rfl⟩⟩

/-- The bits that MSR may write in a privileged mode leave out T. -/
theorem bitT_msr (p bm v : Word) : bitT (mergeMask p (bm &&& 0xF80000DF) v) = bitT p := by
  have hm : (bm &&& 0xF80000DF).getLsbD 5 = false := by
    rw [BitVec.getLsbD_and, show (0xF80000DF : Word).getLsbD 5 = false by decide, Bool.and_false]
  rw [bitT, getLsbD_mergeMask, hm]
  rfl

/-- In User mode MSR writes bits of the flags only. -/
theorem getLsbD_msrUser (p bm v : Word) {j : Nat} (h : j < 27) :
    (mergeMask p (bm &&& 0xF8000000) v).getLsbD j = p.getLsbD j := by
  have key : ∀ k : Fin 27, (0xF8000000 : Word).getLsbD k.val = false := by decide
  have hm : (bm &&& 0xF8000000).getLsbD j = false := by rw [BitVec.getLsbD_and, key ⟨j, h⟩, Bool.and_false]
  rw [getLsbD_mergeMask, hm]
  rfl

/-- A mode that MSR may enter is one that R31 lists. -/
theorem modeLegal_of_checkMode {m : BitVec 5} (h : checkMode m s = none) : modeLegal m = true := by
  unfold checkMode at h
  split at h
  · cases h
  · rename_i hm
    simpa using hm

theorem pcWf_setCpsr {p : Word} (hT : bitT p = s.thumb) (h : s.pcWf = true) :
    ((s.setCpsr p).advance s.isize).pcWf = true :=
  pcWf_add ((bitT_and_psrMask p).trans hT) (aligned_isize s) rfl h

theorem msrCpsr_effect (hi : isMsr i = true) (mask : BitVec 4) (v : Word) : Out.All (Effect i s) (msrCpsr mask v s) := by
  unfold msrCpsr
  dsimp only
  split
  · rename_i hp
    have absurdUser {q : Prop} : s.priv = false → q := fun hn => absurd (hp.symm.trans hn) (by decide)
    split
    · trivial
    · split
      · trivial
      · rename_i hc
        exact ⟨.wroteCpsr hi _ rfl (fun _ => modeLegal_of_checkMode hc) absurdUser rfl (pcWf_setCpsr (bitT_msr _ _ _)),
          absurdUser⟩
  · rename_i hp
    refine ⟨.wroteCpsr hi _ rfl (fun h => absurd h hp) (fun _ => ⟨?_, ?_, ?_⟩) rfl (pcWf_setCpsr ?_),
      fun _ => ⟨rfl, rfl, rfl, rfl⟩⟩
    · exact modeBits_congr fun j hj => getLsbD_msrUser _ _ _ (by omega)
    · exact getLsbD_msrUser _ _ _ (by decide)
    · exact getLsbD_msrUser _ _ _ (by decide)
    · exact getLsbD_msrUser _ _ _ (by decide)

theorem msr_effect (hi : isMsr i = true) (r : Bool) (mask : BitVec 4) (v : Word) :
    Out.All (Effect i s) (msr r mask v s) :=
  Out.All.ite (msrSpsr_effect hi mask v) (msrCpsr_effect hi mask v) _

theorem mrs_effect (r : Bool) (rd : Reg) : Out.All (Effect i s) (if r then
      match s.spsr with
      | none => .fault .noSpsr
      | some p => writeReg rd p s
    else writeReg rd s.cpsr s) := by
  cases r
  · exact (Underway.refl s).writeReg _ _
  · cases hp : s.spsr with
    | none => trivial
    | some p => exact (Underway.refl s).writeReg _ _

/-! ## Loads and stores -/

theorem writeLoaded_effect (h : Underway s u) (rd : Reg) (v : Word) : Out.All (Effect i s) (writeLoaded rd v u) :=
  Out.All.ite (h.loadPc v) (h.writeReg rd v) _

theorem loadWord_effect (priv : Bool) (a : Addr) (rn rd : Reg) : Out.All (Effect i s) (loadWord priv a rn rd s) :=
  Underway.finish ((closed_underway s).readWord (.refl s) _ _) _ (fun h => h.apply a rn) fun _ _ h =>
    writeLoaded_effect (h.apply a rn) _ _

theorem loadSmall_effect (n : Nat) (signed priv : Bool) (a : Addr) (rn rd : Reg) :
    Out.All (Effect i s) (loadSmall n signed priv a rn rd s) :=
  Underway.finish ((closed_underway s).readMem (.refl s) _ _ _) _ (fun h => h.apply a rn) fun _ _ h =>
    writeLoaded_effect (h.apply a rn) _ _

theorem store_effect (n : Nat) (v : Word) (priv : Bool) (a : Addr) (rn : Reg) :
    Out.All (Effect i s) (store n v priv a rn s) := by
  refine Underway.finish ((closed_underway s).writeMem (.refl s) _ _ _ _) _ (fun h => h.apply a rn) fun _ t h => ?_
  exact (h.apply a rn).advance h

theorem doubleRegs_effect {k : Out} (hk : Out.All (Effect i s) k) (rd : Reg) :
    Out.All (Effect i s) (doubleRegs rd s k) :=
  Out.All.ite (Underway.refl s).raiseUndef ((Out.all_refused _ _).ite hk _) _

theorem loadDouble_effect (a : Addr) (rn rd : Reg) : Out.All (Effect i s) (loadDouble a rn rd s) := by
  have hc := closed_underway s
  refine Underway.finish ?_ _ (fun h => h.apply a rn) fun v t h => ?_
  · refine (Closed.alignDouble (.refl s) _).bind fun va s1 h1 => ?_
    exact (hc.readMem h1 _ _ _).bind fun lo s2 h2 => (hc.readMem h2 _ _ _).bind fun hi s3 h3 => h3
  exact (((h.apply a rn).setReg _ _).setReg _ _).advance h

theorem storeDouble_effect (a : Addr) (rn rd : Reg) : Out.All (Effect i s) (storeDouble a rn rd s) := by
  have hc := closed_underway s
  refine Underway.finish ?_ _ (fun h => h.apply a rn) fun _ t h => ?_
  · refine (Closed.alignDouble (.refl s) _).bind fun va s1 h1 => ?_
    exact (hc.writeMem h1 _ _ _ _).bind fun _ s2 h2 => hc.writeMem h2 _ _ _ _
  exact (h.apply a rn).advance h

theorem loadRegs_underway (m : BitVec 5) (priv : Bool) (rs : List Reg) :
    ∀ {u : State} (_ : Underway s u) (a : Word), (loadRegs m priv rs a u).All (Underway s) := by
  induction rs with
  | nil => intro u h a; exact h
  | cons r rs ih =>
    intro u h a
    exact ((closed_underway s).readMem h 4 a priv).bind fun v t ht => ih (ht.setBankReg m r v) _

theorem Acc.All.onAbort {α : Type} {P : State → Prop} {x : Acc α} (hx : x.All P) {g : State → State}
    (hg : ∀ t, P t → P (g t)) : (x.onAbort g).All P := by
  cases x with
  | ok v t => exact hx
  | abort f t => exact hg t hx
  | fault e => trivial
  | refused e => trivial

theorem loadList_underway (m : BitVec 5) (rs : List Reg) (pc : Bool) (start : Word) (rn : Reg) :
    (loadList m rs pc start rn s).All (Underway s) := by
  refine Acc.All.onAbort ?_ fun t ht => ht.keepBase s rn
  refine (loadRegs_underway m s.priv rs (.refl s) start).bind fun _ t ht => ?_
  split
  · exact (closed_underway s).readMem ht _ _ _
  · exact ht

theorem loadMultiple_effect (a : Addr) (rn : Reg) (list : BitVec 16) :
    Out.All (Effect i s) (loadMultiple a rn list s) := by
  refine Underway.finish (loadList_underway _ _ _ _ _) _ (fun h => h.apply a rn) fun v t h => ?_
  have ha := h.apply a rn
  exact (ha.loadPc v).ite (Out.all_next (ha.advance ha)) _

theorem storeMultiple_effect (m : BitVec 5) (a : Addr) (rn : Reg) (list : BitVec 16) :
    Out.All (Effect i s) (storeMultiple m a rn list s) := by
  refine Underway.finish ((closed_underway s).storeWords _ _ ((Underway.refl s).draw 1) _) _ (fun h => h.apply a rn)
    fun _ t h => ?_
  exact (h.apply a rn).advance h

theorem userBank_effect {k : Out} (hk : Out.All (Effect i s) k) (a : Mode4) : Out.All (Effect i s) (userBank a s k) :=
  (Out.all_refused _ _).ite ((Out.all_fault _ _).ite hk _) _

theorem swap_effect (n : Nat) (rn rd rm : Reg) : Out.All (Effect i s) (swap n rn rd rm s) :=
  Underway.finish ((closed_underway s).swapMem (.refl s) _ _ _) _ id fun _ _ h => h.writeReg _ _

theorem preloadAt_effect (va : Word) : Out.All (Effect i s) (preloadAt va s) :=
  Underway.finish ((closed_underway s).preload (.refl s) va) _ id fun _ _ h => Out.all_next (h.advance h)

/-! ## Coprocessors -/

/-- A result that is one of two. -/
theorem Acc.All.ite {α : Type} {P : State → Prop} {x y : Acc α} (hx : x.All P) (hy : y.All P) (c : Prop) [Decidable c] :
    (if c then x else y).All P := by
  split
  · exact hx
  · exact hy

theorem Acc.All.mono {α : Type} {P Q : State → Prop} {x : Acc α} (hx : x.All P) (h : ∀ t, P t → Q t) : x.All Q := by
  cases x with
  | ok v t => exact h t hx
  | abort f t => exact h t hx
  | fault e => trivial
  | refused e => trivial

/-- CP15 and CP14 are for privileged modes (44_coprocessor R530). -/
theorem priv_of_not_denied {cp : BitVec 4} (h : s.cpDenied cp = false) (hcp : cp = 15 ∨ cp = 14) : s.priv = true := by
  rw [State.cpDenied, if_pos hcp] at h
  simpa using h

theorem cacheFunction_sameStatus (h : SameStatus s u) (crm : BitVec 4) (op2 : BitVec 3) (v : Word) :
    (cacheFunction crm op2 v u).All (SameStatus s) := by
  have hc := closed_sameStatus s
  unfold cacheFunction
  repeat' with_reducible refine Acc.All.ite ?_ ?_ _
  all_goals first | trivial | exact hc.cleanDLine h v | exact hc.lineAllocate h v | exact h.trans ⟨rfl, rfl, rfl⟩

theorem tlbFunction_sameStatus (h : SameStatus s u) (crm : BitVec 4) (op2 : BitVec 3) (v : Word) :
    (tlbFunction crm op2 v u).All (SameStatus s) := by
  unfold tlbFunction
  repeat' with_reducible refine Acc.All.ite ?_ ?_ _
  all_goals first | trivial | exact h.trans ⟨rfl, rfl, rfl⟩

theorem cacheLockFunction_sameStatus (h : SameStatus s u) (crm : BitVec 4) (op2 : BitVec 3) (v : Word) :
    (cacheLockFunction crm op2 v u).All (SameStatus s) := by
  unfold cacheLockFunction
  repeat' with_reducible refine Acc.All.ite ?_ ?_ _
  all_goals first | trivial | exact (closed_sameStatus s).fetchAndLockI h v | exact h.trans ⟨rfl, rfl, rfl⟩

theorem tlbLockFunction_sameStatus (h : SameStatus s u) (crm : BitVec 4) (op2 : BitVec 3) (v : Word) :
    (tlbLockFunction crm op2 v u).All (SameStatus s) := by
  unfold tlbLockFunction
  repeat' with_reducible refine Acc.All.ite ?_ ?_ _
  all_goals first | trivial | exact (closed_sameStatus s).translateAndLock h _ v | exact h.trans ⟨rfl, rfl, rfl⟩

theorem writeBreakpoint_sameStatus (h : SameStatus s u) (crm : BitVec 4) (v : Word) :
    (writeBreakpoint crm v u).All (SameStatus s) := by
  unfold writeBreakpoint writeIbcr
  repeat' with_reducible refine Acc.All.ite ?_ ?_ _
  all_goals first | trivial | exact h.trans ⟨rfl, rfl, rfl⟩

theorem writeCp15_sameStatus (h : SameStatus s u) (crn crm : BitVec 4) (op2 : BitVec 3) (v : Word) :
    (writeCp15 crn crm op2 v u).All (SameStatus s) := by
  unfold writeCp15 writeAuxControl writeCpar
  dsimp only
  repeat' with_reducible refine Acc.All.ite ?_ ?_ _
  all_goals first
    | trivial
    | exact cacheFunction_sameStatus h crm op2 v
    | exact tlbFunction_sameStatus h crm op2 v
    | exact cacheLockFunction_sameStatus h crm op2 v
    | exact tlbLockFunction_sameStatus h crm op2 v
    | exact writeBreakpoint_sameStatus h crm v
    | exact h.trans ⟨rfl, rfl, rfl⟩

theorem writeTx_sameStatus (u : State) (v : Word) : SameStatus u (u.writeTx v) := by
  unfold State.writeTx
  split <;> exact ⟨rfl, rfl, rfl⟩

theorem writeDcsr_sameStatus (u : State) (v : Word) : SameStatus u (u.writeDcsr v) := by
  unfold State.writeDcsr
  dsimp only
  split
  · exact .refl u
  · split <;> exact ⟨rfl, rfl, rfl⟩

theorem writeCp14_sameStatus (h : SameStatus s u) (crn : BitVec 4) (v : Word) :
    (writeCp14 crn v u).All (SameStatus s) := by
  unfold writeCp14 writeCclkcfg writePwrmode
  dsimp only
  repeat' with_reducible refine Acc.All.ite ?_ ?_ _
  all_goals first
    | trivial
    | exact h.trans (writeTx_sameStatus u v)
    | exact h.trans (writeDcsr_sameStatus u v)
    | exact h.trans ⟨rfl, rfl, rfl⟩

/-- CP13 is open to User mode with its CPAR bit; its registers are the interrupt controller's and the bus controller's. -/
theorem writeCp13_underway (h : Underway s u) (crn crm : BitVec 4) (v : Word) :
    (writeCp13 crn crm v u).All (Underway s) := by
  unfold writeCp13 writeBcuctl writeEctst
  dsimp only
  repeat' with_reducible refine Acc.All.ite ?_ ?_ _
  all_goals first | trivial | exact h | exact h.of_fields ⟨rfl, rfl, rfl⟩ rfl rfl rfl rfl

theorem cpWrite_underway {cp : BitVec 4} (hd : s.cpDenied cp = false) (h : Underway s u) (crn crm : BitVec 4)
    (op2 : BitVec 3) (v : Word) : (cpWrite cp crn crm op2 v u).All (Underway s) := by
  unfold cpWrite
  split
  · rename_i hcp
    exact (writeCp15_sameStatus h.toSameStatus crn crm op2 v).mono fun _ => .of_priv (priv_of_not_denied hd (.inl hcp))
  · split
    · rename_i hcp
      exact (writeCp14_sameStatus h.toSameStatus crn v).mono fun _ => .of_priv (priv_of_not_denied hd (.inr hcp))
    · exact writeCp13_underway h crn crm v

theorem freeBits_underway (h : Underway s u) (v mask : Word) : (freeBits v mask u).All (Underway s) := h.draw 1

theorem readCp15_underway (h : Underway s u) (crn crm : BitVec 4) (op2 : BitVec 3) :
    (readCp15 crn crm op2 u).All (Underway s) := by
  unfold readCp15 readBreakpoint
  dsimp only
  repeat' with_reducible refine Acc.All.ite ?_ ?_ _
  all_goals first | trivial | exact h | exact freeBits_underway h _ _

theorem readCp14_sameStatus (h : SameStatus s u) (crn : BitVec 4) : (readCp14 crn u).All (SameStatus s) := by
  unfold readCp14 readTbreg
  repeat' with_reducible refine Acc.All.ite ?_ ?_ _
  all_goals first | trivial | exact h.trans ⟨rfl, rfl, rfl⟩

theorem readCp13_underway (h : Underway s u) (crn crm : BitVec 4) : (readCp13 crn crm u).All (Underway s) := by
  unfold readCp13
  repeat' with_reducible refine Acc.All.ite ?_ ?_ _
  all_goals first | trivial | exact h | exact freeBits_underway h _ _

theorem cpRead_underway {cp : BitVec 4} (hd : s.cpDenied cp = false) (h : Underway s u) (crn crm : BitVec 4)
    (op2 : BitVec 3) : (cpRead cp crn crm op2 u).All (Underway s) := by
  unfold cpRead
  split
  · exact readCp15_underway h crn crm op2
  · split
    · rename_i hcp
      exact (readCp14_sameStatus h.toSameStatus crn).mono fun _ => .of_priv (priv_of_not_denied hd (.inr hcp))
    · exact readCp13_underway h crn crm

theorem cpChecked_effect {k : Out} {cp : BitVec 4} (hk : s.cpDenied cp = false → Out.All (Effect i s) k)
    (accepted : Bool) (crn : BitVec 4) : Out.All (Effect i s) (cpChecked accepted cp crn s k) := by
  have hu := (Underway.refl s).raiseUndef (i := i)
  unfold cpChecked
  refine hu.ite ?_ _
  split
  · exact hu
  · rename_i hd
    exact hu.ite (hk (by simpa using hd)) _

theorem moveToCp_effect {cp : BitVec 4} (hd : s.cpDenied cp = false) (crn : BitVec 4) (rd : Reg) (op2 : BitVec 3)
    (crm : BitVec 4) : Out.All (Effect i s) (moveToCp crn rd cp op2 crm s) :=
  (Out.all_refused _ _).ite
    (Underway.finish (cpWrite_underway hd (.refl s) _ _ _ _) _ id fun _ _ h => Out.all_next (h.advance h)) _

theorem writeFromCp_effect (h : Underway s u) (rd : Reg) (v : Word) : Out.All (Effect i s) (writeFromCp rd v u) :=
  Out.All.ite (Out.all_next (h.goOn flagsOnly_withNZCV (h.isize ▸ aligned_isize s))) (h.writeReg rd v) _

theorem moveFromCp_effect {cp : BitVec 4} (hd : s.cpDenied cp = false) (crn : BitVec 4) (rd : Reg) (op2 : BitVec 3)
    (crm : BitVec 4) : Out.All (Effect i s) (moveFromCp crn rd cp op2 crm s) :=
  Underway.finish (cpRead_underway hd (.refl s) _ _ _) _ id fun _ _ h => writeFromCp_effect h _ _

theorem loadToCp_effect {cp : BitVec 4} (hd : s.cpDenied cp = false) (a : Addr) (rn : Reg) (crd : BitVec 4) :
    Out.All (Effect i s) (loadToCp a rn crd cp s) := by
  refine Underway.finish ?_ _ (fun h => h.apply a rn) fun _ _ h => Out.all_next ((h.apply a rn).advance h)
  exact ((closed_underway s).readMem (.refl s) _ _ _).bind fun v t h => cpWrite_underway hd h _ _ _ _

theorem storeFromCp_effect {cp : BitVec 4} (hd : s.cpDenied cp = false) (a : Addr) (rn : Reg) (crd : BitVec 4) :
    Out.All (Effect i s) (storeFromCp a rn crd cp s) := by
  have hc := closed_underway s
  refine Underway.finish ?_ _ (fun h => h.apply a rn) fun _ _ h => Out.all_next ((h.apply a rn).advance h)
  refine (hc.checkStore (.refl s) _ _ _).bind fun p t h => ?_
  exact (cpRead_underway hd h _ _ _).bind fun v t h => hc.storeChecked h _ _ _

end
end Sys2Proof.Machine
end

section
/-!
PROOFS. The effect of every instruction on the status registers and the pc.
-/

namespace Sys2Proof.Machine

section
variable {i : Instr} {s : State}

theorem armCond_effect (c : Cond) {k : Out} (hk : Out.All (Effect i s) k) : Out.All (Effect i s) (armCond c s k) :=
  (Underway.refl s).armCond c hk

/-! ## Branches -/

theorem aligned_armTarget (hs : s.pcWf = true) (imm : BitVec 24) : Aligned s.thumb (armTarget s.pc imm) :=
  (((pcWf_iff s).1 hs).add (aligned_shiftLeft_two _ 2)).add (aligned_shiftLeft_two _ _)

/-- The branch offsets of Thumb count halfwords. -/
theorem aligned_thumbTarget (ht : s.thumb = true) (hs : s.pcWf = true) (v : Word) :
    Aligned s.thumb (s.pc + 4 + (v <<< 1)) := by
  have hpc := (pcWf_iff s).1 hs
  rw [ht] at hpc ⊢
  exact (hpc.add (aligned_four true)).add (aligned_shiftLeft_one v)

theorem execB_effect (c : Cond) (imm : BitVec 24) : Out.All (Effect i s) (execB c imm s) :=
  (Underway.refl s).predictedBranch _ _ fun _ hs => aligned_armTarget hs imm

theorem execBl_effect (c : Cond) (imm : BitVec 24) : Out.All (Effect i s) (execBl c imm s) :=
  Out.All.ite (((Underway.refl s).setReg 14 _).predictedBranch _ _ fun _ hs => aligned_armTarget hs imm)
    ((Underway.refl s).predictedBranch _ _ fun _ hs => aligned_armTarget hs imm) _

theorem execBlx1_effect (h : Bool) (imm : BitVec 24) : Out.All (Effect i s) (execBlx1 h imm s) := by
  refine ((Underway.refl s).noteBranch.setReg 14 _).jump (psrKept_withT _ true) (fun _ hs => ?_) _
  rw [bitT_withT]
  have hoff : Aligned true (if h then 2 else 0) := by cases h <;> rfl
  have hpc := aligned_armTarget hs imm
  cases ht : s.thumb
  · rw [ht] at hpc
    exact (hpc.of_arm true).add hoff
  · rw [ht] at hpc
    exact hpc.add hoff

theorem execTB1_effect (c : Cond) (imm : BitVec 8) : Out.All (Effect (.tB1 c imm) s) (execTB1 c imm s) :=
  (Underway.refl s).predictedBranch _ _ fun hi hs => aligned_thumbTarget (hi rfl) hs _

theorem execTB2_effect (imm : BitVec 11) : Out.All (Effect (.tB2 imm) s) (execTB2 imm s) :=
  (Underway.refl s).predictedBranch _ _ fun hi hs => aligned_thumbTarget (hi rfl) hs _

theorem execTBl_effect (off : BitVec 11) : Out.All (Effect (.tBl off) s) (execTBl off s) := by
  refine ((Underway.refl s).noteBranch.setReg 14 _).jump (FlagsOnly.refl _).toPsrKept (fun hi _ => ?_) _
  have ht : s.thumb = true := hi rfl
  rw [State.setReg_cpsr]
  exact (show bitT s.cpsr = true from ht) ▸ aligned_clear_one _

theorem execTBlx1_effect (off : BitVec 10) : Out.All (Effect i s) (execTBlx1 off s) :=
  ((Underway.refl s).noteBranch.setReg 14 _).jump (psrKept_withT _ false) (fun _ _ => aligned_clear_two _ _) _

/-! ## LDM (2) and LDM (3) -/

theorem execLdm2_transfer (a : Mode4) (list : BitVec 15) : Out.All (Effect i s)
    ((loadList modeUsr (lowList (list.setWidth 16)) false
        (s.mode4 a (regList (list.setWidth 16)).length).addr a.rn s).finish true id
      fun _ s1 => .next (s1.advance s1.isize)) :=
  Underway.finish (loadList_underway _ _ _ _ _) _ id fun _ _ h => Out.all_next (h.advance h)

theorem execLdm3_transfer (a : Mode4) (list : BitVec 15) : Out.All (Effect i s)
    (let m := s.mode4 a (regList (1#1 ++ list)).length
     (loadList s.mode (lowList (1#1 ++ list)) true m.addr a.rn s).finish false (m.apply a.rn)
         fun v s1 => exceptionReturn v (m.apply a.rn s1)) :=
  Underway.finish (loadList_underway _ _ _ _ _) _ (fun h => h.apply _ a.rn) fun v _ h =>
    (h.apply _ a.rn).exceptionReturn v

end

/-! ## Every instruction -/

theorem exec_effect (i : Instr) (s : State) : Out.All (Effect i s) (exec i s) :=
  match i with
  | .andShift c sb _ rd _ | .eorShift c sb _ rd _ | .subShift c sb _ rd _ | .rsbShift c sb _ rd _
  | .addShift c sb _ rd _ | .adcShift c sb _ rd _ | .sbcShift c sb _ rd _ | .rscShift c sb _ rd _
  | .orrShift c sb _ rd _ | .bicShift c sb _ rd _ | .andImm c sb _ rd _ | .eorImm c sb _ rd _
  | .subImm c sb _ rd _ | .rsbImm c sb _ rd _ | .addImm c sb _ rd _ | .adcImm c sb _ rd _ | .sbcImm c sb _ rd _
  | .rscImm c sb _ rd _ | .orrImm c sb _ rd _ | .bicImm c sb _ rd _ | .movShift c sb rd _ | .mvnShift c sb rd _
  | .movImm c sb rd _ | .mvnImm c sb rd _ =>
    armCond_effect c (writeAlu_effect flagsOnly_withNZCV sb rd)
  | .andRegShift c sb _ rd _ | .eorRegShift c sb _ rd _ | .subRegShift c sb _ rd _ | .rsbRegShift c sb _ rd _
  | .addRegShift c sb _ rd _ | .adcRegShift c sb _ rd _ | .sbcRegShift c sb _ rd _ | .rscRegShift c sb _ rd _
  | .orrRegShift c sb _ rd _ | .bicRegShift c sb _ rd _ | .movRegShift c sb rd _ | .mvnRegShift c sb rd _ =>
    armCond_effect c ((writeAlu_effect flagsOnly_withNZCV sb rd).noR15 _)
  | .tstShift c .. | .teqShift c .. | .cmpShift c .. | .cmnShift c .. | .tstImm c .. | .teqImm c ..
  | .cmpImm c .. | .cmnImm c .. =>
    armCond_effect c (writeFlags_effect flagsOnly_withNZCV)
  | .tstRegShift c .. | .teqRegShift c .. | .cmpRegShift c .. | .cmnRegShift c .. =>
    armCond_effect c ((writeFlags_effect flagsOnly_withNZCV).noR15 _)
  | .mul c sb rd .. | .mla c sb rd .. =>
    armCond_effect c ((writeProduct_effect sb rd _).noR15 _)
  | .umull c sb rdHi rdLo .. | .umlal c sb rdHi rdLo .. | .smull c sb rdHi rdLo .. | .smlal c sb rdHi rdLo .. =>
    armCond_effect c ((twoDests_effect (writeLong_effect sb rdHi rdLo _) _ _).noR15 _)
  | .smlalxy c rdHi rdLo .. =>
    armCond_effect c ((twoDests_effect (writeLong_effect false rdHi rdLo _) _ _).noR15 _)
  | .smlaxy c rd .. | .smlawy c rd .. | .qadd c _ rd _ | .qsub c _ rd _ | .qdadd c _ rd _ | .qdsub c _ rd _ =>
    armCond_effect c ((writeSticky_effect rd _ _).noR15 _)
  | .smulxy c rd .. | .smulwy c rd .. | .clz c rd _ =>
    armCond_effect c (((Underway.refl s).writeReg rd _).noR15 _)
  | .mia c _ acc _ | .miaph c _ acc _ | .miabb c _ acc _ | .miabt c _ acc _ | .miatb c _ acc _
  | .miatt c _ acc _ =>
    armCond_effect c (withAcc_effect (accumulate_effect _) acc _)
  | .mar c _ _ sbz acc =>
    armCond_effect c
      (withAcc_effect (sbzAcc_effect (Out.all_next (((Underway.refl s).setAcc _).advance (.refl s))) sbz) acc _)
  | .mra c _ _ sbz acc =>
    armCond_effect c (withAcc_effect (sbzAcc_effect (twoDests_effect
      (Out.all_next ((((Underway.refl s).setReg _ _).setReg _ _).advance (.refl s))) _ _) sbz) acc _)
  | .mrs c r rd =>
    armCond_effect c ((mrs_effect r rd).noR15 _)
  | .msrReg c r mask _ =>
    armCond_effect c ((msr_effect rfl r mask _).noR15 _)
  | .msrImm c r mask _ =>
    armCond_effect c (msr_effect rfl r mask _)
  | .undefMul c .. | .undefMisc c .. | .undefMsr c .. | .undefMedia c .. | .cdp c .. | .mcrr c .. | .mrrc c .. =>
    armCond_effect c (Underway.refl s).raiseUndef
  | .undefUncond _ | .tUndefMisc _ | .tUndefCond _ | .tUndefBlx _ =>
    (Underway.refl s).raiseUndef
  | .swi c _ =>
    armCond_effect c (Underway.refl s).raiseSwi
  | .tSwi _ =>
    (Underway.refl s).raiseSwi
  | .bkpt c _ =>
    armCond_effect c ((Underway.refl s).breakpoint.ite (Out.all_refused _ _) _)
  | .tBkpt _ =>
    (Underway.refl s).breakpoint
  | .b c imm =>
    execB_effect c imm
  | .bl c imm =>
    execBl_effect c imm
  | .blx1 h imm =>
    execBlx1_effect h imm
  | .bx c _ =>
    (Underway.refl s).noteBranch.armCond c ((Underway.refl s).noteBranch.branchExchange _)
  | .blx2 c _ =>
    (Underway.refl s).noteBranch.armCond c ((((Underway.refl s).noteBranch.setReg 14 _).branchExchange _).noR15 _)
  | .ldrtImm c _ rn rd _ | .ldrtReg c _ rn rd _ =>
    armCond_effect c (((loadWord_effect false _ rn rd).unlessRefused _).noR15 _)
  | .ldrbtImm c _ rn rd _ | .ldrbtReg c _ rn rd _ =>
    armCond_effect c (((loadSmall_effect 1 false false _ rn rd).unlessRefused _).noR15 _)
  | .strtImm c _ rn .. | .strtReg c _ rn .. =>
    armCond_effect c ((store_effect 4 _ false _ rn).unlessRefused _)
  | .strbtImm c _ rn .. | .strbtReg c _ rn .. =>
    armCond_effect c (((store_effect 1 _ false _ rn).unlessRefused _).noR15 _)
  | .ldrImm c a rd _ | .ldrReg c a rd _ =>
    armCond_effect c
      ((((loadWord_effect s.priv _ a.rn rd).notInDebug s).ite (loadWord_effect s.priv _ a.rn rd) _).unlessRefused _)
  | .ldrbImm c a rd _ | .ldrbReg c a rd _ =>
    armCond_effect c (((loadSmall_effect 1 false s.priv _ a.rn rd).unlessRefused _).noR15 _)
  | .strImm c a .. | .strReg c a .. =>
    armCond_effect c ((store_effect 4 _ s.priv _ a.rn).unlessRefused _)
  | .strbImm c a .. | .strbReg c a .. =>
    armCond_effect c (((store_effect 1 _ s.priv _ a.rn).unlessRefused _).noR15 _)
  | .ldrhImm c a rd _ | .ldrhReg c a rd _ =>
    armCond_effect c (((loadSmall_effect 2 false s.priv _ a.rn rd).unlessRefused _).noR15 _)
  | .ldrshImm c a rd _ | .ldrshReg c a rd _ =>
    armCond_effect c (((loadSmall_effect 2 true s.priv _ a.rn rd).unlessRefused _).noR15 _)
  | .ldrsbImm c a rd _ | .ldrsbReg c a rd _ =>
    armCond_effect c ((loadSmall_effect 1 true s.priv _ a.rn rd).unlessRefused _)
  | .strhImm c a .. | .strhReg c a .. =>
    armCond_effect c (((store_effect 2 _ s.priv _ a.rn).unlessRefused _).noR15 _)
  | .ldrdImm c a rd _ =>
    armCond_effect c (doubleRegs_effect ((loadDouble_effect _ a.rn rd).unlessRefused _) rd)
  | .ldrdReg c a rd _ =>
    armCond_effect c (doubleRegs_effect
      (((Out.all_refused _ _).ite (loadDouble_effect _ a.rn rd) _).unlessRefused _) rd)
  | .strdImm c a rd _ | .strdReg c a rd _ =>
    armCond_effect c (doubleRegs_effect ((storeDouble_effect _ a.rn rd).unlessRefused _) rd)
  | .ldm1 c a list =>
    armCond_effect c (((Out.all_refused _ _).ite ((loadMultiple_effect _ a.rn list).notInDebug s) _).unlessRefused _)
  | .ldm2 c a list =>
    armCond_effect c ((userBank_effect ((execLdm2_transfer a list).notInDebug s) a).unlessRefused _)
  | .ldm3 c a list =>
    armCond_effect c (((Out.all_refused _ _).ite ((execLdm3_transfer a list).notInDebug s) _).unlessRefused _)
  | .stm1 c a list =>
    armCond_effect c ((storeMultiple_effect s.mode _ a.rn list).unlessRefused _)
  | .stm2 c a list =>
    armCond_effect c ((userBank_effect (storeMultiple_effect modeUsr _ a.rn list) a).unlessRefused _)
  | .swp c rn rd rm =>
    armCond_effect c (((swap_effect 4 rn rd rm).notInDebug s).unlessRefused _)
  | .swpb c rn rd rm =>
    armCond_effect c (((swap_effect 1 rn rd rm).notInDebug s).unlessRefused _)
  | .pldImm .. =>
    preloadAt_effect _
  | .pldReg .. =>
    (preloadAt_effect _).noR15 _
  | .mcr c _ crn rd _ op2 crm =>
    armCond_effect c (cpChecked_effect (fun hd => moveToCp_effect hd crn rd op2 crm) _ crn)
  | .mrc c _ crn rd _ op2 crm =>
    armCond_effect c (cpChecked_effect (fun hd => moveFromCp_effect hd crn rd op2 crm) _ crn)
  | .ldc c a crd .. =>
    armCond_effect c (cpChecked_effect (fun hd => ((loadToCp_effect hd _ a.rn crd).notInDebug s).unlessRefused _) _ crd)
  | .stc c a crd .. =>
    armCond_effect c (cpChecked_effect (fun hd => ((storeFromCp_effect hd _ a.rn crd).notInDebug s).unlessRefused _) _ crd)
  | .tLsl1 _ _ rd | .tLsr1 _ _ rd | .tAsr1 _ _ rd | .tAdd3 _ _ rd | .tSub3 _ _ rd | .tAdd1 _ _ rd
  | .tSub1 _ _ rd | .tMov1 rd _ | .tAdd2 rd _ | .tSub2 rd _ | .tAnd _ rd | .tEor _ rd | .tLsl2 _ rd
  | .tLsr2 _ rd | .tAsr2 _ rd | .tAdc _ rd | .tSbc _ rd | .tRor _ rd | .tNeg _ rd | .tOrr _ rd | .tBic _ rd
  | .tMvn _ rd =>
    writeAlu_effect flagsOnly_withNZCV true (lowReg rd)
  | .tCmp1 .. | .tTst .. | .tCmp2 .. | .tCmn .. =>
    writeFlags_effect flagsOnly_withNZCV
  | .tMul _ rd =>
    writeProduct_effect true (lowReg rd) _
  | .tAdd4 d m | .tMov3 d m =>
    notBothLow_effect (writeSum_effect d _) d m
  | .tCmp3 n m =>
    notBothLow_effect ((writeFlags_effect flagsOnly_withNZCV).noR15 _) n m
  | .tAdd5 rd _ | .tAdd6 rd _ =>
    (Underway.refl s).writeReg (lowReg rd) _
  | .tAdd7 _ | .tSub4 _ =>
    (Underway.refl s).writeReg 13 _
  | .tBx _ =>
    (Underway.refl s).noteBranch.branchExchange _
  | .tBlx2 _ =>
    (((Underway.refl s).noteBranch.setReg 14 _).branchExchange _).noR15 _
  | .tB1 c imm =>
    execTB1_effect c imm
  | .tB2 imm =>
    execTB2_effect imm
  | .tBlFirst _ =>
    Out.all_next (((Underway.refl s).setReg 14 _).advance (.refl s))
  | .tBl off =>
    execTBl_effect off
  | .tBlx1 off =>
    execTBlx1_effect off
  | .tLdr3 rd _ =>
    loadWord_effect s.priv _ 15 (lowReg rd)
  | .tLdr2 _ rn rd | .tLdr1 _ rn rd =>
    loadWord_effect s.priv _ (lowReg rn) (lowReg rd)
  | .tLdr4 rd _ =>
    loadWord_effect s.priv _ 13 (lowReg rd)
  | .tLdrsb _ rn rd =>
    loadSmall_effect 1 true s.priv _ (lowReg rn) (lowReg rd)
  | .tLdrsh _ rn rd =>
    loadSmall_effect 2 true s.priv _ (lowReg rn) (lowReg rd)
  | .tLdrh2 _ rn rd | .tLdrh1 _ rn rd =>
    loadSmall_effect 2 false s.priv _ (lowReg rn) (lowReg rd)
  | .tLdrb2 _ rn rd | .tLdrb1 _ rn rd =>
    loadSmall_effect 1 false s.priv _ (lowReg rn) (lowReg rd)
  | .tStr2 _ rn _ | .tStr1 _ rn _ =>
    store_effect 4 _ s.priv _ (lowReg rn)
  | .tStrh2 _ rn _ | .tStrh1 _ rn _ =>
    store_effect 2 _ s.priv _ (lowReg rn)
  | .tStrb2 _ rn _ | .tStrb1 _ rn _ =>
    store_effect 1 _ s.priv _ (lowReg rn)
  | .tStr3 .. =>
    store_effect 4 _ s.priv _ 13
  | .tPush .. =>
    (storeMultiple_effect s.mode _ 13 _).unlessRefused _
  | .tPop .. =>
    ((loadMultiple_effect _ 13 _).notInDebug s).unlessRefused _
  | .tStmia rn _ =>
    (storeMultiple_effect s.mode _ (lowReg rn) _).unlessRefused _
  | .tLdmia rn _ =>
    ((loadMultiple_effect _ (lowReg rn) _).notInDebug s).unlessRefused _

end Sys2Proof.Machine
end

section
/-!
PROOFS. A predicate of the status registers and the pc that every step keeps (`StatusInvariant`), and with it that the status
registers stay legal and the pc aligned (O8, O10). Then what User mode cannot do (O12) and that Q is sticky (O13), read off the
effect of an instruction.
-/

namespace Sys2Proof.Machine

/-! ## The decoder and the instruction set in use -/

theorem mem_of_decodeRows {n : Nat} {rows : List (DecodeRow n)} {w : BitVec n} {i : Instr}
    (h : decodeRows rows w = some i) : ∃ r ∈ rows, i = r.build w := by
  induction rows with
  | nil => cases h
  | cons r rs ih =>
    unfold decodeRows at h
    split at h
    · exact ⟨r, List.mem_cons_self, by simpa using h.symm⟩
    · obtain ⟨q, hq, e⟩ := ih h
      exact ⟨q, List.mem_cons_of_mem r hq, e⟩

/-- A row of the ARM table builds ARM instructions. -/
theorem isThumb_of_armRow : ∀ r ∈ armRows, ∀ w, (r.build w).isThumb = false := by
  unfold armRows armRowsExtra armRowsMisc armRowsDp armRowsDpImm armRowsMem armRowsCp
  simp only [List.forall_mem_append]
  repeat' constructor
  all_goals
    repeat' refine List.forall_mem_cons.2 ⟨fun _ => rfl, ?_⟩
    exact List.forall_mem_nil _

/-- A Thumb instruction is decoded in Thumb state only. -/
theorem fits_of_decodeFetched {s : State} {w : Nat} {i : Instr} (h : s.decodeFetched w = some i) : Fits i s := by
  intro hi
  unfold State.decodeFetched at h
  split at h
  · assumption
  · obtain ⟨r, hr, e⟩ := mem_of_decodeRows h
    rw [e, isThumb_of_armRow r hr] at hi
    cases hi

/-! ## What a step does to the status registers and the pc -/

/-- A predicate of the status registers and the pc that exception entries, Halt mode's entry, reset and every instruction
keep. -/
structure StatusInvariant (P : State → Prop) : Prop where
  same : ∀ {s t}, P s → SameStatus s t → P t
  entry : ∀ e link counted {s}, P s → P (takeException e link counted s)
  halt : ∀ moe link {s}, P s → P (debugEntryHalt moe link s)
  reset : P State.reset
  instr : ∀ {i s t}, Fits i s → Effect i s t → P s → P t

theorem sameStatus_hide13 (i : Instr) (s : State) : SameStatus s (s.hide13 i) := by
  unfold State.hide13
  split <;> exact ⟨rfl, rfl, rfl⟩

theorem sameStatus_resetInstrCaches (s : State) : SameStatus s s.resetInstrCaches := by
  unfold State.resetInstrCaches
  split <;> exact ⟨rfl, rfl, rfl⟩

theorem SameStatus.resetInstrCaches {s u : State} (h : SameStatus s u) : SameStatus s u.resetInstrCaches :=
  h.trans (sameStatus_resetInstrCaches u)

theorem SameStatus.draw {s u : State} (h : SameStatus s u) (n : Nat) : SameStatus s (u.draw n) :=
  ⟨h.cpsr, h.spsrs, h.pc⟩

/-- Reset gives the status registers and the pc their reset values. -/
theorem sameStatus_assertReset (trst : Bool) (s : State) : SameStatus State.reset (s.assertReset trst) :=
  SameStatus.resetInstrCaches ⟨rfl, rfl, rfl⟩

theorem sameStatus_releaseReset (s : State) : SameStatus s s.releaseReset := by
  unfold State.releaseReset
  split <;> exact ⟨rfl, rfl, rfl⟩

theorem sameStatus_scanDr (din : BitVec 36) (s : State) : Out.All (SameStatus s) (scanDr din s) := by
  have hsel : SameStatus s (s.scanSeldcsr din) := by
    unfold State.scanSeldcsr
    dsimp only
    split
    · refine SameStatus.draw (SameStatus.resetInstrCaches ?_) 2
      exact ⟨rfl, rfl, rfl⟩
    · exact ⟨rfl, rfl, rfl⟩
  unfold scanDr
  dsimp only
  repeat' split
  all_goals first | trivial | exact hsel | exact ⟨rfl, rfl, rfl⟩

theorem sameStatus_loadIr (code : BitVec 5) (s : State) : Out.All (SameStatus s) (loadIr code s) := by
  unfold loadIr
  dsimp only
  split
  · trivial
  · split
    · trivial
    · split
      · exact SameStatus.resetInstrCaches ⟨rfl, rfl, rfl⟩
      · exact ⟨rfl, rfl, rfl⟩

theorem SameStatus.ldicStore {s u : State} (h : SameStatus s u) (f : LdicLoad) : SameStatus s (u.ldicStore f) := by
  unfold State.ldicStore
  dsimp only
  split <;> exact ⟨h.cpsr, h.spsrs, h.pc⟩

theorem sameStatus_ldicPacket (p : BitVec 33) (ok : Bool) (s : State) : Out.All (SameStatus s) (ldicPacket p ok s) := by
  have hfree : SameStatus s s.freeOut := ⟨rfl, rfl, rfl⟩
  unfold ldicPacket ldicFunction
  dsimp only
  repeat' split
  all_goals first | trivial | exact hfree.ldicStore _ | exact ⟨rfl, rfl, rfl⟩

theorem Out.All.mono {P Q : State → Prop} {x : Out} (hx : Out.All P x) (h : ∀ t, P t → Q t) : Out.All Q x := by
  cases x with
  | next t => exact h t hx
  | fault e => trivial
  | refused e => trivial

section
variable {P : State → Prop} {s : State}

theorem StatusInvariant.debugException (h : StatusInvariant P) (hs : P s) (moe : BitVec 3) (e : Exc) (link : Word) :
    P (debugException moe e link s) := by
  unfold Machine.debugException
  split
  · exact h.halt moe link hs
  · have hc : P { s.debugCommon moe with
        cp15 := { s.cp15 with
          fsr := fsrWord (s.fresh.getLsbD 10) true (s.fresh.extractLsb' 4 4) (s.fresh.extractLsb' 0 4) } } :=
      h.same hs ⟨rfl, rfl, rfl⟩
    exact h.same (h.entry e link false hc) ⟨rfl, rfl, rfl⟩

theorem StatusInvariant.retire (h : StatusInvariant P) (s0 : State) (executed : Bool) (hs : P s) :
    P (s0.retire executed s) := by
  have h1 : P (if s0.traceOn && s.traceOn then s.traceStep else s) := by
    split
    · exact h.same hs ⟨rfl, rfl, rfl⟩
    · exact hs
  unfold State.retire
  generalize (if s0.traceOn && s.traceOn then s.traceStep else s) = s1 at h1
  have h2 : P (if s0.pmuOn && s1.pmuOn then s1.pmuCount executed else s1) := by
    split
    · exact h.same h1 ⟨rfl, rfl, rfl⟩
    · exact h1
  dsimp only
  generalize (if s0.pmuOn && s1.pmuOn then s1.pmuCount executed else s1) = s2 at h2
  have h3 : P s2.reportDataBreak := by
    unfold State.reportDataBreak
    split
    · exact h.debugException h2 _ _ _
    · exact h2
  exact h.same h3 ⟨rfl, rfl, rfl⟩

theorem StatusInvariant.retireInstr (h : StatusInvariant P) (s0 : State) (i : Instr) (hs : P s) :
    P (s0.retireInstr i s) := by
  unfold State.retireInstr
  dsimp only
  split
  · exact h.same (h.retire s0 true hs) (sameStatus_hide13 i _)
  · exact h.retire s0 true hs

theorem StatusInvariant.runDecoded (h : StatusInvariant P) (s0 : State) {i : Instr} (hi : Fits i s) (hs : P s) :
    Out.All P (runDecoded s0 i s) := by
  have same := sameStatus_hide13 i s
  have fits : Fits i (s.hide13 i) := fun hT => (congrArg bitT same.cpsr).trans (hi hT)
  have he := exec_effect i (s.hide13 i)
  unfold Machine.runDecoded
  split
  · rename_i t ht
    exact h.retireInstr s0 i (h.instr fits (he.next ht) (h.same hs same))
  · trivial
  · trivial

theorem StatusInvariant.runInstr (h : StatusInvariant P) (hs : P s) : Out.All P (runInstr s) := by
  have hf := (closed_sameStatus s).fetch (SameStatus.refl s)
  unfold Machine.runInstr
  split
  · rename_i w s1 hw
    have h1 := h.same hs (hf.ok hw)
    split
    · rename_i i hi
      exact h.runDecoded s (fits_of_decodeFetched hi) h1
    · trivial
  · rename_i f s1 hw
    have h1 := h.same hs ((hf.abort hw).trans ⟨rfl, rfl, rfl⟩ : SameStatus s (s1.recordFault f))
    have h2 := h.same hs ((hf.abort hw).trans ⟨rfl, rfl, rfl⟩ : SameStatus s (s1.recordFault ⟨f.code, 0, 0, false⟩))
    split
    · trivial
    · refine h.retire s false ?_
      split
      · exact h.entry .data _ false h1
      · exact h.entry .prefetch _ false h2
  · trivial
  · trivial

theorem StatusInvariant.takePending (h : StatusInvariant P) (k : AbortKind) (hs : P s) : P (takePending k s) := by
  unfold Machine.takePending
  split
  · exact h.same hs ⟨rfl, rfl, rfl⟩
  · exact h.retire s false (h.entry .data _ false (h.same hs ⟨rfl, rfl, rfl⟩))

theorem StatusInvariant.activeStep (h : StatusInvariant P) (hs : P s) : Out.All P (activeStep s) := by
  unfold Machine.activeStep
  split
  · exact h.retire s false (h.halt _ _ hs)
  · split
    · exact h.takePending _ hs
    · refine Out.All.ite (Out.all_next (h.retire s false (h.debugException hs _ _ _))) ?_ _
      refine Out.All.ite (Out.all_next (h.retire s false (h.entry .fiq _ false hs))) ?_ _
      refine Out.All.ite (Out.all_next (h.retire s false (h.entry .irq _ false hs))) ?_ _
      exact Out.All.ite (Out.all_next (h.retire s false (h.debugException hs _ _ _))) (h.runInstr hs) _

theorem StatusInvariant.coreStep (h : StatusInvariant P) (hs : P s) : Out.All P (coreStep s) := by
  unfold Machine.coreStep
  split
  · exact hs
  · split
    · exact hs
    · refine Out.all_next ?_
      split
      · exact h.same hs ⟨rfl, rfl, rfl⟩
      · exact hs
    · exact h.activeStep (h.same hs ⟨rfl, rfl, rfl⟩)

/-- Nothing from outside but reset reaches the status registers or the pc. -/
theorem StatusInvariant.applyEvent (h : StatusInvariant P) (e : HostEvent) (hs : P s) : Out.All P (applyEvent e s) := by
  have keep {t : State} (ht : SameStatus s t) : Out.All P (.next t) := h.same hs ht
  have flush {t : State} (ht : SameStatus s t) (c : Bool) : Out.All P (.next (if c then t.resetInstrCaches else t)) := by
    cases c
    · exact keep ht
    · exact keep ht.resetInstrCaches
  cases e with
  | tick => exact hs
  | fiq on | irq on =>
    refine Out.All.ite (Out.all_refused P _) ?_ _
    exact keep ⟨rfl, rfl, rfl⟩
  | reset trst => exact h.same h.reset ((sameStatus_assertReset trst s).trans (sameStatus_releaseReset _))
  | resetAssert trst => exact h.same h.reset (sameStatus_assertReset trst s)
  | resetRelease => exact keep (sameStatus_releaseReset s)
  | shortReset => trivial
  | trst | busWrite =>
    refine flush ?_ s.inReset
    exact ⟨rfl, rfl, rfl⟩
  | jtagIr code => exact (sameStatus_loadIr code s).mono fun t ht => h.same hs ht
  | scanDr din => exact (sameStatus_scanDr din s).mono fun t ht => h.same hs ht
  | ldic p ok => exact (sameStatus_ldicPacket p ok s).mono fun t ht => h.same hs ht
  | upsetI mini | upsetD mini => cases mini <;> exact keep ⟨rfl, rfl, rfl⟩
  | imprecise | abortRegions | between | cwf | eccError | pins => exact keep ⟨rfl, rfl, rfl⟩

/-- Every step keeps it. -/
theorem StatusInvariant.step (h : StatusInvariant P) (hs : P s) : Out.All P (step s) := by
  unfold Machine.step stepCycle
  split
  · exact h.coreStep hs
  · exact h.coreStep (h.same hs ⟨rfl, rfl, rfl⟩)
  · exact h.applyEvent _ (h.same hs ⟨rfl, rfl, rfl⟩)

end

/-! ## The status registers stay legal -/

theorem statusWf_iff (s : State) : s.statusWf = true
    ↔ psrWf s.cpsr = true ∧ (∀ p ∈ s.spsrs.toList, psrWf p = true) ∧ modeLegal s.mode = true := by
  simp only [State.statusWf, Bool.and_eq_true, List.all_eq_true, and_assoc]

theorem statusWf_of_same {s t : State} (hs : s.statusWf = true) (h : SameStatus s t) : t.statusWf = true := by
  unfold State.statusWf State.mode at hs ⊢
  rwa [h.cpsr, h.spsrs]

/-- A status register is saved. -/
theorem psrWf_of_mem_set {v : Vector Word 6} (hv : ∀ p ∈ v.toList, psrWf p = true) {q : Word} (hq : psrWf q = true)
    (j : Fin 6) {p : Word} (hp : p ∈ (v.set j q).toList) : psrWf p = true := by
  rw [Vector.toList_set] at hp
  obtain h | h := List.mem_or_eq_of_mem_set hp
  · exact hv p h
  · exact h ▸ hq

/-- An entry to a mode that R31 lists saves a legal status register and leaves one. -/
theorem statusWf_of_entry {s t : State} {m : BitVec 5} {f : Bool} {j : Fin 6} (hm : modeLegal m = true)
    (cpsr : t.cpsr = entryCpsr s.cpsr m f) (spsrs : t.spsrs = s.spsrs.set j s.cpsr) (hs : s.statusWf = true) :
    t.statusWf = true := by
  obtain ⟨hp, hv, -⟩ := (statusWf_iff s).1 hs
  refine (statusWf_iff t).2 ⟨?_, ?_, ?_⟩
  · rw [cpsr]
    exact psrWf_entryCpsr hp m f
  · rw [spsrs]
    exact fun p => psrWf_of_mem_set hv hp j
  · rw [State.mode, cpsr, mode_entryCpsr]
    exact hm

theorem modeLegal_excMode (e : Exc) : modeLegal e.mode = true := by cases e <;> rfl

theorem statusWf_of_effect {i : Instr} {s t : State} (h : Effect i s t) (hs : s.statusWf = true) : t.statusWf = true := by
  obtain ⟨hp, hv, hm⟩ := (statusWf_iff s).1 hs
  rw [statusWf_iff, State.mode]
  cases h.status with
  | onward cpsr spsrs pc =>
    rw [cpsr.mode, spsrs]
    exact ⟨cpsr.psrWf hp, hv, hm⟩
  | entered e kind cpsr spsrs pc => exact (statusWf_iff t).1 (statusWf_of_entry (modeLegal_excMode e) cpsr spsrs hs)
  | halted cpsr spsrs pc sds => exact (statusWf_iff t).1 (statusWf_of_entry rfl cpsr spsrs hs)
  | returned p saved legal cpsr spsrs pc =>
    rw [cpsr, spsrs, modeBits_and_psrMask]
    exact ⟨psrWf_and_psrMask p, hv, legal⟩
  | wroteCpsr msr p cpsr priv user spsrs pc =>
    rw [cpsr, spsrs, modeBits_and_psrMask]
    refine ⟨psrWf_and_psrMask p, hv, ?_⟩
    cases hpr : s.priv
    · rw [(user hpr).1]
      exact hm
    · exact priv hpr
  | wroteSpsr msr j p cpsr spsrs pc =>
    rw [cpsr, spsrs]
    exact ⟨hp, fun q => psrWf_of_mem_set hv (psrWf_and_psrMask p) j, hm⟩

theorem statusInvariant_statusWf : StatusInvariant fun s => s.statusWf = true where
  same := statusWf_of_same
  entry e link counted {s} hs := statusWf_of_entry (modeLegal_excMode e) rfl rfl hs
  halt moe link {s} hs := statusWf_of_entry (m := modeDbg) (f := true) (j := 5) rfl rfl rfl hs
  reset := by decide
  instr _ he hs := statusWf_of_effect he hs

/-- Settles O8: the status registers' legality is an invariant of the parts of a step and of every instruction's effect. -/
theorem stepKeepsStatusLegal : Obligations.StepKeepsStatusLegal := by
  unfold Obligations.StepKeepsStatusLegal
  intro s t hs ht
  exact (statusInvariant_statusWf.step hs).next ht

/-! ## The pc stays aligned -/

theorem pcWf_of_same {s t : State} (hs : s.pcWf = true) (h : SameStatus s t) : t.pcWf = true := by
  unfold State.pcWf State.thumb at hs ⊢
  rwa [h.cpsr, h.pc]

/-- A vector is an ARM instruction's address. -/
theorem pcWf_of_vector {s : State} {n : Word} (hn : Aligned s.thumb n) (hpc : s.pc = s.vectorBase + n) :
    s.pcWf = true := by
  rw [pcWf_iff, hpc]
  exact (aligned_vectorBase s _).add hn

theorem pcWf_of_effect {i : Instr} {s t : State} (hi : Fits i s) (h : Effect i s t) (hs : s.pcWf = true) :
    t.pcWf = true := by
  cases h.status with
  | onward cpsr spsrs pc => exact pc hi hs
  | entered e kind cpsr spsrs pc => exact pcWf_of_vector (aligned_offset e _) pc
  | halted cpsr spsrs pc sds => exact (pcWf_iff t).2 (pc ▸ aligned_vectorBase t _)
  | returned p saved legal cpsr spsrs pc => exact pc
  | wroteCpsr msr p cpsr priv user spsrs pc => exact pc hs
  | wroteSpsr msr j p cpsr spsrs pc => exact pc hs

theorem statusInvariant_pcWf : StatusInvariant fun s => s.pcWf = true where
  same := pcWf_of_same
  entry e link counted {s} _ := pcWf_of_vector (aligned_offset e _) rfl
  halt moe link {s} _ := (pcWf_iff _).2 (aligned_vectorBase s _)
  reset := by decide
  instr := pcWf_of_effect

/-- Settles O10: a Thumb instruction runs in Thumb state only, and every target is aligned for the state it runs in. -/
theorem stepKeepsPcAligned : Obligations.StepKeepsPcAligned := by
  unfold Obligations.StepKeepsPcAligned
  intro s t hs ht
  exact (statusInvariant_pcWf.step hs).next ht

/-! ## User mode -/

/-- User mode has no privilege and no SPSR (10_state R31, R32). -/
theorem priv_of_user {s : State} (h : s.mode = modeUsr) : s.priv = false := by
  rw [State.priv, h]
  rfl

theorem spsr_of_user {s : State} (h : s.mode = modeUsr) : s.spsr = none := by
  rw [State.spsr, h]
  rfl

/-- Settles O12, by cases on the effect of the instruction. -/
theorem userModeIsConfined : Obligations.UserModeIsConfined := by
  unfold Obligations.UserModeIsConfined
  intro i s t hu ht
  have he := (exec_effect i s).next ht
  have k := he.system (priv_of_user hu)
  refine ⟨?_, k.cp15, k.pmu, k.power, k.trace⟩
  cases he.status with
  | onward cpsr spsrs pc => exact .inl ⟨cpsr.mode.trans hu, cpsr.bitI, cpsr.bitF⟩
  | entered e kind cpsr spsrs pc =>
    exact .inr (.inl ⟨e, kind, cpsr, by rw [spsrs]; simp, by rw [pc, k.vectorBase]⟩)
  | halted cpsr spsrs pc sds =>
    exact .inr (.inr ⟨by rw [State.mode, cpsr, mode_entryCpsr], sds, by rw [spsrs]; simp⟩)
  | returned p saved legal cpsr spsrs pc => exact absurd ((spsr_of_user hu).symm.trans saved) (by simp)
  | wroteCpsr msr p cpsr priv user spsrs pc =>
    obtain ⟨hm, hI, hF⟩ := user (priv_of_user hu)
    refine .inl ⟨?_, ?_, ?_⟩
    · rw [State.mode, cpsr, modeBits_and_psrMask, hm, hu]
    · rw [cpsr, bitI_and_psrMask, hI]
    · rw [cpsr, bitF_and_psrMask, hF]
  | wroteSpsr msr j p cpsr spsrs pc => exact .inl ⟨by rw [State.mode, cpsr]; exact hu, by rw [cpsr], by rw [cpsr]⟩

/-! ## Q is sticky -/

theorem isMsr_eq_false {i : Instr} (hr : ∀ c r m v, i ≠ .msrReg c r m v) (hi : ∀ c r m v, i ≠ .msrImm c r m v) :
    isMsr i = false := by
  unfold isMsr
  split
  · exact absurd rfl (hr _ _ _ _)
  · exact absurd rfl (hi _ _ _ _)
  · rfl

/-- Settles O13, by cases on the effect of the instruction. -/
theorem stickyOverflowStaysSet : Obligations.StickyOverflowStaysSet := by
  unfold Obligations.StickyOverflowStaysSet
  intro i s t hr hi ht hq
  have notMsr {p : Prop} (h : isMsr i = true) : p := absurd (h.symm.trans (isMsr_eq_false hr hi)) (by decide)
  cases ((exec_effect i s).next ht).status with
  | onward cpsr spsrs pc => exact .inl (cpsr.sticky hq)
  | entered e kind cpsr spsrs pc => exact .inl (by rw [cpsr, flagQ_entryCpsr]; exact hq)
  | halted cpsr spsrs pc sds => exact .inl (by rw [cpsr, flagQ_entryCpsr]; exact hq)
  | returned p saved legal cpsr spsrs pc => exact .inr ⟨p, saved, cpsr⟩
  | wroteCpsr msr => exact notMsr msr
  | wroteSpsr msr => exact notMsr msr

end Sys2Proof.Machine
end

section
/-!
PROOFS. What reset leaves (O6), and that the state after power-on meets the invariants (O11).
-/

namespace Sys2Proof.Machine

/-! ## RESET# (70_reset R900, R901) -/

/-- The instruction caches as a reset that finds `s` leaves them: while the JTAG instruction is LDIC unlocked only, else
invalid, in Halt mode but for the mini instruction cache (61_debug R797). -/
def State.icacheAfterReset (s : State) : Cache :=
  if s.jtag.ir = irLdic then { s.icache.unlock with rr := Vector.replicate 32 31 } else s.icache.unlock.flush 31

def State.minicAfterReset (s : State) : Cache :=
  if s.jtag.ir = irLdic ∨ s.haltMode = true then s.minic else s.minic.flush 1

/-- The state after RESET# without TRST#, out of a mode other than sleep: that of power-on, but for what is kept. -/
def State.afterReset (s : State) : State :=
  { State.reset with
    mem := s.mem
    synced := if s.jtag.ir = irLdic then s.synced else s.mem
    overwritten := if s.jtag.ir = irLdic then s.overwritten else []
    icache := s.icacheAfterReset
    minic := s.minicAfterReset
    power := { cclkcfg := if s.board.pllcfg then 4 else 1, mode := .active }
    dbg := { State.reset.dbg with dcsr := s.dbg.dcsr &&& 0x40DF0000 }
    trace := { s.trace with count := 0, written := 0, sinceChk := none }
    icu := { s.icu with intctl := 0, intstr := 0 }
    jtag := { s.jtag with data := s.fresh, pinsFloat := s.jtag.ir == irHighz }
    inReset := s.jtag.holdRst
    bus32 := s.board.bus32
    board := s.board
    freeCount := s.freeCount + 1
    hostEvents := s.hostEvents }

/-- DCSR.H is one of the bits that reset keeps (12_state R150). -/
theorem getLsbD_dcsr_kept (d : Word) : (d &&& 0x40DF0000).getLsbD 30 = d.getLsbD 30 := by
  rw [BitVec.getLsbD_and, show (0x40DF0000 : Word).getLsbD 30 = true by decide, Bool.and_true]

theorem applyReset_of_awake {s : State} (h : s.power.mode ≠ .sleep) : s.applyReset false = s.afterReset := by
  have hH : (s.dbg.dcsr &&& 0x40DF0000).getLsbD 30 = s.haltMode := getLsbD_dcsr_kept _
  unfold State.applyReset State.assertReset
  simp only [if_neg h, Bool.false_eq_true, if_false]
  unfold State.resetInstrCaches State.afterReset State.icacheAfterReset State.minicAfterReset
  by_cases hl : s.jtag.ir = irLdic
  · simp only [hl, if_true, true_or]
    rfl
  · simp only [hl, if_false, false_or, State.haltMode, hH]
    rfl

theorem State.awake_afterSleep (s : State) : s.afterSleep.power.mode ≠ .sleep := fun h => PowerMode.noConfusion h

/-- Out of sleep a reset finds the state of power-on (62_platform R883). -/
theorem assertReset_of_asleep {s : State} (h : s.power.mode = .sleep) (trst : Bool) :
    s.assertReset trst = s.afterSleep.assertReset trst := by
  unfold State.assertReset
  rw [if_pos h, if_neg s.awake_afterSleep]

theorem applyReset_of_asleep {s : State} (h : s.power.mode = .sleep) :
    s.applyReset false = s.afterSleep.afterReset := by
  rw [← applyReset_of_awake s.awake_afterSleep]
  unfold State.applyReset
  rw [assertReset_of_asleep h]

theorem locked_icacheAfterReset (s : State) : ∀ l ∈ s.icacheAfterReset.lines, l.locked = false := by
  unfold State.icacheAfterReset Cache.unlock Cache.flush
  split <;> simp

theorem rr_icacheAfterReset (s : State) : s.icacheAfterReset.rr = Vector.replicate 32 31 := by
  unfold State.icacheAfterReset Cache.flush
  split <;> rfl

theorem resetInstrCaches_pins (s : State) :
    s.resetInstrCaches.resetPin = s.resetPin ∧ s.resetInstrCaches.inReset = s.inReset := by
  unfold State.resetInstrCaches
  split <;> exact ⟨rfl, rfl⟩

theorem lines_minicAfterReset_of_empty {s : State} (h : s.minic.lines = []) : s.minicAfterReset.lines = [] := by
  unfold State.minicAfterReset
  split
  · exact h
  · simp [Cache.flush, h]

/-- While RESET# is low the core is in reset. -/
theorem assertReset_pins (trst : Bool) (s : State) :
    (s.assertReset trst).resetPin = true ∧ (s.assertReset trst).inReset = true := by
  obtain ⟨pin, inReset⟩ := resetInstrCaches_pins _
  exact ⟨pin.trans rfl, inReset.trans rfl⟩

theorem releaseReset_of_pin {s : State} (h : s.resetPin = true) :
    s.releaseReset = { s.samplePins with resetPin := false, inReset := s.jtag.holdRst } := if_pos h

/-- At reset the instruction breakpoints and the performance counters are off. -/
theorem reset_enables : State.reset.cp15.ibcr0.getLsbD 0 = false ∧ State.reset.cp15.ibcr1.getLsbD 0 = false
    ∧ State.reset.pmu.pmnc &&& 0x71 = 0 := by
  decide

/-- Settles O6: RESET# leaves `afterReset` of the state it finds, out of sleep of that of power-on. -/
theorem resetValues : Obligations.ResetValues := by
  unfold Obligations.ResetValues
  intro Common
  obtain ⟨ibcr0, ibcr1, pmnc⟩ := reset_enables
  have common (s : State) : Common s.afterReset :=
    ⟨rfl, rfl, rfl, rfl, rfl, rfl, rfl, rfl, ibcr0, ibcr1, pmnc, rfl, rfl, rfl, rfl, rfl, rfl,
      rfl, rfl, rfl, rfl, rfl, rfl, rfl, rfl, rfl, locked_icacheAfterReset s, rfl, rfl, rfl, rfl, rfl,
      rr_icacheAfterReset s, rfl, rfl⟩
  refine ⟨by decide, rfl, rfl, rfl, fun s => ?_⟩
  have pins : ∃ a u, applyEvent (.resetAssert false) s = .next a ∧ a.resetout = true ∧ a.inReset = true
      ∧ applyEvent .resetRelease a = .next u ∧ u.resetout = false ∧ u.inReset = a.jtag.holdRst := by
    obtain ⟨pin, inReset⟩ := assertReset_pins false s
    refine ⟨_, _, rfl, pin, inReset, rfl, ?_⟩
    rw [releaseReset_of_pin pin]
    exact ⟨rfl, rfl⟩
  by_cases h : s.power.mode = .sleep
  · refine ⟨s.afterSleep.afterReset, congrArg _ (applyReset_of_asleep h), common _, rfl, rfl, fun _ => ?_,
      fun hn => absurd h hn, pins⟩
    exact ⟨rfl, BitVec.zero_and, rfl, lines_minicAfterReset_of_empty rfl⟩
  · refine ⟨s.afterReset, congrArg _ (applyReset_of_awake h), common s, rfl, rfl, fun hs => absurd hs h, fun _ => ?_,
      pins⟩
    refine ⟨rfl, rfl, fun hl => ⟨?_, ?_⟩, fun hl => ⟨?_, fun hH => ?_, fun hH => ?_⟩⟩
    · exact if_pos (.inl hl)
    · show s.icacheAfterReset.lines = _
      rw [State.icacheAfterReset, if_pos hl]
      rfl
    · show ∀ l ∈ s.icacheAfterReset.lines, _
      rw [State.icacheAfterReset, if_neg hl]
      simp [Cache.flush]
    · exact if_pos (.inr hH)
    · show ∀ l ∈ s.minicAfterReset.lines, _
      rw [State.minicAfterReset, if_neg (by simp [hl, hH])]
      simp [Cache.flush]

/-- Settles O11, by evaluation of the four predicates at reset. -/
theorem resetMeetsInvariants : Obligations.ResetMeetsInvariants :=
  ⟨rfl, rfl, statusInvariant_statusWf.reset, by decide, statusInvariant_pcWf.reset⟩

end Sys2Proof.Machine
end

section
/-!
PROOFS. The forms and states that the manual leaves unpredictable stop by name (O56).
-/

namespace Sys2Proof.Machine

/-! ## The checks before an instruction's effect -/

theorem unlessRefused_stop {r : Option Refusal} {e : Refusal} (h : r = some e) (k : Out) :
    unlessRefused r k = .refused e := by
  rw [h]
  rfl

theorem unlessRefused_run {r : Option Refusal} (h : r = none) (k : Out) : unlessRefused r k = k := by
  rw [h]
  rfl

theorem notInDebug_stop {s : State} (h : s.mode = modeDbg) (k : Out) : notInDebug s k = .fault .notInDebugMode :=
  if_pos (beq_iff_eq.2 h)

theorem raiseUndef_stop {s : State} (h : s.dbg.sds = true) : raiseUndef s = .fault .swiOrUndefInSds := if_pos h

theorem raiseSwi_stop {s : State} (h : s.dbg.sds = true) : raiseSwi s = .fault .swiOrUndefInSds := if_pos h

theorem notBothLow_stop {d m : Reg} (hd : d.getLsbD 3 = false) (hm : m.getLsbD 3 = false) (k : Out) :
    notBothLow d m k = .refused .bothLow := by
  rw [notBothLow, hd, hm]
  rfl

theorem notBothLow_run {d : Reg} (hd : d.getLsbD 3 = true) (m : Reg) (k : Out) : notBothLow d m k = k := by
  rw [notBothLow, hd]
  rfl

theorem cpDenied_zero {s : State} (h : s.cp15.cpar.getLsbD 0 = true) : s.cpDenied 0 = false := by
  simp [State.cpDenied, h]

theorem cpDenied_thirteen {s : State} (h : s.cp15.cpar.getLsbD 13 = true) : s.cpDenied 13 = false := by
  simp [State.cpDenied, h]

/-- Only accumulator 0 exists (45_cp0 R571). -/
theorem withAcc_stop {s : State} (h : s.cp15.cpar.getLsbD 0 = true) {acc : BitVec 3} (ha : acc ≠ 0) (rs : List Reg)
    (k : Out) : withAcc acc rs s k = .refused .accumulatorReserved := by
  rw [withAcc, cpDenied_zero h, if_neg Bool.false_ne_true, if_pos ha]

/-- Coprocessor 13 has no debug register, so CPAR alone decides. -/
theorem cpChecked_thirteen {s : State} (h : s.cp15.cpar.getLsbD 13 = true) (crn : BitVec 4) (k : Out) :
    cpChecked (ldcAccepted 13) 13 crn s k = k := by
  have hd : s.debugAccessTraps 13 crn = false := rfl
  rw [cpChecked, cpDenied_thirteen h, hd]
  rfl

/-- A mode without an SPSR of its own is one that `spsrIndex` does not list. -/
theorem spsr_eq_none_iff (s : State) : s.spsr = none ↔ spsrIndex s.mode = none := Option.map_eq_none_iff

theorem exceptionReturn_noSpsr {s : State} (h : s.spsr = none) (v : Word) : exceptionReturn v s = .fault .noSpsr := by
  rw [exceptionReturn, returnPsr, h]

theorem msrSpsr_noSpsr {s : State} (h : s.spsr = none) (mask : BitVec 4) (v : Word) :
    msrSpsr mask v s = .fault .noSpsr := by
  rw [msrSpsr, (spsr_eq_none_iff s).1 h]

theorem userBank_writeback {a : Mode4} (h : a.w = true) (s : State) (k : Out) :
    userBank a s k = .refused .userBankWriteback :=
  if_pos h

theorem userBank_noSpsr {a : Mode4} (h : a.w = false) {s : State} (hs : s.spsr = none) (k : Out) :
    userBank a s k = .fault .noSpsr := by
  rw [userBank, h, (spsr_eq_none_iff s).1 hs]
  rfl

theorem userBank_debug {a : Mode4} (h : a.w = false) {s : State} (hs : s.mode = modeDbg) (k : Out) :
    userBank a s k = k := by
  rw [userBank, h, hs]
  rfl

/-! ## The refusals of the addressing modes and of SWP -/

/-- A form of mode 2 that R481 does not allow is refused for one of two reasons. -/
theorem mode2Refusal_of_not_ok {a : Mode2} {rd : Reg} {rm : Option Reg} (h : ¬Mode2Ok a rd rm) :
    mode2Refusal a rd rm = some .r15Operand ∨ mode2Refusal a rd rm = some .registerClash := by
  unfold mode2Refusal wbRefusal
  by_cases hm : rm = some 15
  · exact .inl (if_pos hm)
  rw [if_neg hm]
  by_cases hb : (a.index != .offset && a.rn == 15) = true
  · exact .inl (if_pos hb)
  rw [if_neg hb]
  by_cases hr : (a.index != .offset && [rd].any fun r => r == a.rn) = true
  · exact .inr (if_pos hr)
  rw [if_neg hr]
  by_cases hp : (a.index == .post && rm == some a.rn) = true
  · exact .inr (if_pos hp)
  refine absurd ⟨fun hi => ⟨fun e => hb ?_, fun e => hr ?_⟩, hm, fun hi e => hp ?_⟩ h
  · simp [hi, e]
  · simp [hi, e]
  · simp [hi, e]

theorem mode3Refusal_reserved {a : Mode3} (hp : a.p = false) (hw : a.w = true) (rd : List Reg) (rm : Option Reg) :
    mode3Refusal a rd rm = some .indexingReserved :=
  if_pos (by simp [hp, hw])

theorem mode4Refusal_r15 {a : Mode4} (h : a.rn = 15) (list : BitVec 16) : mode4Refusal a list = some .r15Operand :=
  if_pos h

theorem mode4Refusal_empty {a : Mode4} (h : a.rn ≠ 15) {list : BitVec 16} (hl : list = 0) :
    mode4Refusal a list = some .emptyList :=
  (if_neg h).trans (if_pos hl)

theorem mode4Refusal_none {a : Mode4} (h : a.rn ≠ 15) {list : BitVec 16} (hl : list ≠ 0) : mode4Refusal a list = none :=
  (if_neg h).trans (if_neg hl)

theorem swapRefusal_r15 {rn rd rm : Reg} (h : 15 ∈ [rn, rd, rm]) : swapRefusal rn rd rm = some .r15Operand :=
  if_pos ((anyR15_iff _).2 h)

theorem swapRefusal_clash {rn rd rm : Reg} (h : 15 ∉ [rn, rd, rm]) (hr : rn = rm ∨ rn = rd) :
    swapRefusal rn rd rm = some .registerClash :=
  (if_neg (mt (anyR15_iff _).1 h)).trans (if_pos hr)

/-! ## MSR of an operand that may not be written (40_arm R401) -/

/-- The control field of MSR is the low byte. -/
theorem getLsbD_msrByteMask {k : BitVec 4} (hk : k.getLsbD 0 = true) {i : Nat} (hi : i < 8) :
    (msrByteMask k).getLsbD i = true := by
  have key : ∀ m : BitVec 4, m.getLsbD 0 = true → ∀ j : Fin 8, (msrByteMask m).getLsbD j.val = true := by decide
  exact key k hk ⟨i, hi⟩

theorem and_bitT (v : Word) : v &&& 0x20 = if v.getLsbD 5 then 0x20 else 0 := BitVec.and_twoPow v 5

theorem msrCpsr_thumb {s : State} (hs : s.mode ≠ modeUsr) {k : BitVec 4} (hk : k.getLsbD 0 = true) {v : Word}
    (hv : v.getLsbD 5 = true) : msrCpsr k v s = .fault .msrSetsThumb := by
  have priv : s.priv = true := by simpa [State.priv, modePriv] using hs
  have bit : v &&& 0x20 &&& msrByteMask k ≠ 0 := fun h => by
    have h5 : (v &&& 0x20 &&& msrByteMask k).getLsbD 5 = false := h ▸ BitVec.getLsbD_zero
    rw [BitVec.getLsbD_and, BitVec.getLsbD_and, hv, getLsbD_msrByteMask hk (by decide)] at h5
    exact absurd h5 (by decide)
  rw [msrCpsr, if_pos priv, if_pos bit]

/-- With the control field the mode that MSR asks for is the operand's. -/
theorem modeBits_msr {k : BitVec 4} (hk : k.getLsbD 0 = true) (p v : Word) :
    modeBits (mergeMask p (msrByteMask k &&& 0xF80000DF) v) = modeBits v := by
  refine modeBits_congr fun i hi => ?_
  have low : ∀ j : Fin 5, (0xF80000DF : Word).getLsbD j.val = true := by decide
  have mask : (msrByteMask k &&& 0xF80000DF).getLsbD i = true := by
    rw [BitVec.getLsbD_and, getLsbD_msrByteMask hk (by omega), low ⟨i, hi⟩]
    rfl
  rw [getLsbD_mergeMask, if_pos mask]

theorem msrCpsr_mode {s : State} (hs : s.mode ≠ modeUsr) {k : BitVec 4} (hk : k.getLsbD 0 = true) {v : Word}
    (hv : v.getLsbD 5 = false) {e : Fault} (hm : checkMode (modeBits v) s = some e) : msrCpsr k v s = .fault e := by
  have priv : s.priv = true := by simpa [State.priv, modePriv] using hs
  have bit : v &&& 0x20 &&& msrByteMask k = 0 := by
    rw [and_bitT, hv, if_neg Bool.false_ne_true, BitVec.ofNat_eq_ofNat, BitVec.zero_and]
  rw [msrCpsr, if_pos priv, if_neg (not_not.2 bit)]
  simp only [modeBits_msr hk, hm]

theorem checkMode_bad {m : BitVec 5} (h : modeLegal m = false) (s : State) : checkMode m s = some .badMode := by
  simp [checkMode, h]

theorem checkMode_debug {s : State} (h : s.dbg.sds = false) : checkMode modeDbg s = some .debugModeWrite := by
  rw [checkMode, h]
  rfl

theorem checkMode_user {s : State} (h : s.dbg.sds = true) : checkMode modeUsr s = some .userModeInSds := by
  rw [checkMode, h]
  rfl

/-! ## ARM instructions whose condition passes -/

section
variable {c : Cond} {s : State}

theorem armCond_r15 (hc : condPassed c s.cpsr = true) {l : List Reg} (h : 15 ∈ l) (k : Out) :
    armCond c s (noR15 l k) = .refused .r15Operand :=
  (armCond_pass hc).trans (noR15_stop h)

theorem armCond_refusal (hc : condPassed c s.cpsr = true) {r : Option Refusal} {e : Refusal} (h : r = some e) (k : Out) :
    armCond c s (unlessRefused r k) = .refused e :=
  (armCond_pass hc).trans (unlessRefused_stop h k)

theorem armCond_noR15_refusal (hc : condPassed c s.cpsr = true) {l : List Reg} (hl : 15 ∉ l) {r : Option Refusal}
    {e : Refusal} (h : r = some e) (k : Out) : armCond c s (noR15 l (unlessRefused r k)) = .refused e :=
  (armCond_pass hc).trans ((noR15_run hl).trans (unlessRefused_stop h k))

theorem armCond_mode2 (hc : condPassed c s.cpsr = true) {a : Mode2} {rd : Reg} {rm : Option Reg} (h : ¬Mode2Ok a rd rm)
    (k : Out) : armCond c s (unlessRefused (mode2Refusal a rd rm) k) = .refused .r15Operand
      ∨ armCond c s (unlessRefused (mode2Refusal a rd rm) k) = .refused .registerClash :=
  (mode2Refusal_of_not_ok h).imp (armCond_refusal hc · k) (armCond_refusal hc · k)

theorem armCond_noR15_mode2 (hc : condPassed c s.cpsr = true) {a : Mode2} {rd : Reg} {rm : Option Reg} (hd : rd ≠ 15)
    (h : ¬Mode2Ok a rd rm) (k : Out) :
    armCond c s (noR15 [rd] (unlessRefused (mode2Refusal a rd rm) k)) = .refused .r15Operand
      ∨ armCond c s (noR15 [rd] (unlessRefused (mode2Refusal a rd rm) k)) = .refused .registerClash := by
  rw [noR15_run (mt List.mem_singleton.1 hd.symm)]
  exact armCond_mode2 hc h k

/-- What is refused by none of its register checks goes on. -/
theorem armCond_allowed (hc : condPassed c s.cpsr = true) {r : Option Refusal} (h : r = none) {k o : Out} (hk : k = o) :
    armCond c s (unlessRefused r k) = o :=
  (armCond_pass hc).trans ((unlessRefused_run h k).trans hk)

theorem armCond_sameDests (hc : condPassed c s.cpsr = true) {rd rs rm : Reg} (h : 15 ∉ [rd, rs, rm]) (k : Out) :
    armCond c s (noR15 [rd, rd, rs, rm] (twoDests rd rd k)) = .refused .registerClash :=
  (armCond_pass hc).trans ((noR15_run (by simpa using h)).trans (if_pos rfl))

/-- The second register of a pair that begins at R14 would be R15. -/
theorem armCond_doubleRegs (hc : condPassed c s.cpsr = true) (k : Out) :
    armCond c s (doubleRegs 14 s k) = .refused .r15Operand :=
  armCond_pass hc

theorem armCond_acc (hc : condPassed c s.cpsr = true) (h : s.cp15.cpar.getLsbD 0 = true) {acc : BitVec 3} (ha : acc ≠ 0)
    (rs : List Reg) (k : Out) : armCond c s (withAcc acc rs s k) = .refused .accumulatorReserved :=
  (armCond_pass hc).trans (withAcc_stop h ha rs k)

theorem armCond_ldcReserved (hc : condPassed c s.cpsr = true) (h : s.cp15.cpar.getLsbD 13 = true) {a : Mode5}
    (ha : a.n = true) (crn : BitVec 4) (k : Out) :
    armCond c s (cpChecked (ldcAccepted 13) 13 crn s (unlessRefused (mode5Refusal a) k)) = .refused .ldcFormReserved :=
  (armCond_pass hc).trans ((cpChecked_thirteen h crn _).trans (unlessRefused_stop (if_pos ha) k))

end

/-- Settles O56: each list by the check that stops its forms. -/
theorem unpredictableFormsStop : Obligations.UnpredictableFormsStop := by
  unfold Obligations.UnpredictableFormsStop
  intro c sb y x h rd rn rm rs sh is op k o8 o12 list i16 a2 a3 a4 a5 s hc R F
  have all {p : Instr → Prop} {l : List Instr} : l.Forall p → ∀ i ∈ l, p i := List.forall_iff_forall_mem.1
  have r15 (k : Out) : noR15 [15] k = .refused .r15Operand := noR15_stop (List.mem_singleton.2 rfl)
  have pc {k : Out} : armCond c s (noR15 [15] k) = .refused .r15Operand := (armCond_pass hc).trans (r15 k)
  refine ⟨fun h15 => ?_, fun h15 => ?_, fun h15 => ?_, fun h15 => ?_, fun h15 => ?_, fun h15 => ?_, ?_,
    fun hs hd => ?_, fun ho hd => ?_, fun ho hd => ?_, ?_, fun hp hw hd => ?_, fun hn => ?_, fun hn => ?_,
    fun hn hw hl => ?_, fun hn hw hl => ?_, fun hn hw hs hl => ?_, fun h15 => ?_, fun h15 hr => ?_, fun hp => ?_,
    fun hp ha => ?_, fun hal => ?_, fun hd hm => ?_, ?_, ?_, fun hs => ?_, fun hs => ?_, fun hu hk => ?_⟩
  · have stop k := armCond_r15 hc h15 k
    exact all ⟨stop _, stop _, stop _, stop _, stop _, stop _, stop _, stop _, stop _, stop _⟩
  · have stop k := armCond_r15 hc h15 k
    exact all ⟨stop _, stop _, stop _, stop _, stop _, stop _⟩
  · have stop k := armCond_r15 hc h15 k
    have sat k := armCond_r15 hc ((List.Perm.swap rs rd [rm]).mem_iff.1 h15) k
    exact all ⟨stop _, stop _, stop _, sat _, sat _, sat _, sat _⟩
  · have stop k := armCond_r15 hc h15 k
    exact all ⟨stop _, stop _, stop _, stop _, stop _, stop _, stop _, stop _⟩
  · have stop k := armCond_sameDests hc h15 k
    exact all ⟨stop _, stop _, stop _, stop _, stop _⟩
  · exact all (armCond_r15 hc h15 _)
  · exact all ⟨pc, pc, (armCond_pass (s := s.noteBranch) hc).trans (r15 _), show execTBlx2 15 s = _ from r15 _,
      show execPldReg sb rn ⟨is.amount, is.kind, 15⟩ s = _ from r15 _⟩
  · have run k := (armCond_pass hc).trans (noR15_run (l := [rd]) (k := k) (mt List.mem_singleton.1 hd.symm))
    refine all ⟨(run _).trans ?_, (run _).trans (msrSpsr_noSpsr hs _ _), (armCond_pass hc).trans (msrSpsr_noSpsr hs _ _),
      (armCond_pass hc).trans (exceptionReturn_noSpsr hs _)⟩
    rw [hs]
    rfl
  · have word k := armCond_mode2 hc ho k
    have byte k := armCond_noR15_mode2 hc hd ho k
    exact all ⟨word _, word _, byte _, byte _⟩
  · have word k := armCond_mode2 hc ho k
    have byte k := armCond_noR15_mode2 hc hd ho k
    exact all ⟨word _, word _, byte _, byte _⟩
  · have pair k := armCond_doubleRegs hc k
    exact all ⟨pc, pc, pc, pc, pc, pc, pc, pc, pc, pc, pc, pc, pc, pc, pc, pc, pair _, pair _, pair _, pair _⟩
  · have stop rm k := armCond_noR15_refusal hc (l := [rd]) (mt List.mem_singleton.1 hd.symm)
      (mode3Refusal_reserved hp hw [rd] rm) k
    have byte rm k := armCond_refusal hc (mode3Refusal_reserved hp hw [rd] rm) k
    exact all ⟨stop _ _, stop _ _, byte _ _, byte _ _, stop _ _, stop _ _, stop _ _, stop _ _⟩
  · have stop k := armCond_refusal hc (mode4Refusal_r15 hn list) k
    exact all ⟨stop _, stop _, stop _⟩
  · have stop k := armCond_refusal hc (mode4Refusal_empty hn rfl) k
    exact all ⟨stop _, stop _, stop _, stop _⟩
  · have hl0 : list ≠ 0 := fun h0 => by simp [h0] at hl
    exact all (armCond_allowed hc (mode4Refusal_none hn hl0) (if_pos (by simp [hw, inList, hl])))
  · exact all (armCond_allowed hc (mode4Refusal_none hn hl) (userBank_writeback hw s _))
  · exact all (armCond_allowed hc (mode4Refusal_none hn hl) (userBank_noSpsr hw hs _))
  · have stop k := armCond_refusal hc (swapRefusal_r15 h15) k
    exact all ⟨stop _, stop _⟩
  · have stop k := armCond_refusal hc (swapRefusal_clash h15 hr) k
    exact all ⟨stop _, stop _⟩
  · have stop {acc : BitVec 3} (ha : acc ≠ 0) rs k := armCond_acc hc hp ha rs k
    exact all ⟨stop (by decide) _ _, stop (by decide) _ _, stop (by decide) _ _, stop (by decide) _ _,
      stop (by decide) _ _, stop (by decide) _ _, stop (by decide) _ _, stop (by decide) _ _⟩
  · have stop k' := armCond_ldcReserved hc hp ha k k'
    exact all ⟨stop _, stop _⟩
  · exact all ((armCond_pass hc).trans (if_neg hal))
  · have stop k := notBothLow_stop hd hm k
    exact all ⟨stop _, stop _, stop _⟩
  · have run : execTCmp3 15 rm s = noR15 [15] _ := notBothLow_run rfl rm _
    exact all (run.trans (r15 _))
  · have sp : (13 : Reg) ≠ 15 := by decide
    have push : execTPush false 0 s = .refused .emptyList := unlessRefused_stop (mode4Refusal_empty sp rfl) _
    have pop : execTPop false 0 s = .refused .emptyList := unlessRefused_stop (mode4Refusal_empty sp rfl) _
    exact all ⟨push, pop, unlessRefused_stop (mode4Refusal_empty (lowReg_ne _) rfl) _⟩
  · exact all ⟨(armCond_pass hc).trans (raiseSwi_stop hs), raiseSwi_stop hs, raiseUndef_stop hs, raiseUndef_stop hs⟩
  · have stop k := notInDebug_stop hs k
    refine all ⟨armCond_allowed hc rfl (stop _), armCond_allowed hc rfl ((userBank_debug rfl hs _).trans (stop _)),
      armCond_allowed hc rfl (stop _), stop _, stop _, armCond_allowed hc rfl (stop _), armCond_allowed hc rfl (stop _),
      armCond_allowed hc rfl (stop _), armCond_allowed hc rfl (stop _)⟩
  · have run := armCond_pass (k := msr false k (rotImmValue op) s) hc
    exact ⟨fun hv => all (run.trans (msrCpsr_thumb hu hk hv)),
      fun hv hm => all (run.trans (msrCpsr_mode hu hk hv (checkMode_bad hm s))),
      fun hv hm hs => all (run.trans (msrCpsr_mode hu hk hv (hm ▸ checkMode_debug hs))),
      fun hv hm hs => all (run.trans (msrCpsr_mode hu hk hv (hm ▸ checkMode_user hs)))⟩

end Sys2Proof.Machine
end

section
/-!
PROOFS. The bits that the tables of CP15, CP14 and CP13 define (`State.Fields`), and that no memory access sets another one.
-/

namespace Sys2Proof.Machine

/-! ## Words within a mask -/

/-- No bit of the word is set outside the mask. -/
def Within (mask w : Word) : Prop := w &&& ~~~mask = 0

section
variable {m k w x : Word}

theorem within_and (h : k &&& ~~~m = 0) (v : Word) : Within m (v &&& k) := by
  rw [Within, BitVec.and_assoc, h]
  exact BitVec.and_zero

theorem Within.and (h : Within m w) (v : Word) : Within m (w &&& v) := by
  rw [Within, BitVec.and_assoc, BitVec.and_comm v, ← BitVec.and_assoc, h]
  exact BitVec.zero_and

theorem Within.or (h : Within m w) (k : Within m x) : Within m (w ||| x) := by
  rw [Within, BitVec.and_comm, BitVec.and_or_distrib_left, BitVec.and_comm _ w, BitVec.and_comm _ x, h, k]
  exact BitVec.or_zero

theorem Within.ite (h : Within m w) (k : Within m x) (c : Prop) [Decidable c] : Within m (if c then w else x) := by
  split
  · exact h
  · exact k

theorem Within.mergeMask (h : Within m w) (hk : k &&& ~~~m = 0) (v : Word) : Within m (mergeMask w k v) :=
  (h.and _).or (within_and hk v)

theorem Within.setBit (h : Within m w) {i : Nat} (hi : BitVec.twoPow 32 i &&& ~~~m = 0) (b : Bool) :
    Within m (setBit w i b) :=
  (h.or hi).ite (h.and _) _

end

theorem within_fsrWord (x d : Bool) (dom st : BitVec 4) : Within 0x6FF (fsrWord x d dom st) := by
  have key : (0#21 ++ BitVec.ofBool x ++ BitVec.ofBool d ++ 0#1 ++ dom ++ st)
      &&& (0x1FFFFF#21 ++ 0#1 ++ 0#1 ++ 1#1 ++ 0#4 ++ 0#4) = 0 := by
    simp only [BitVec.and_append, BitVec.and_zero, BitVec.zero_and]
    rfl
  exact key

/-- An entry of the error log: the kind of access, the error type, the syndrome (12_state R172). -/
theorem within_elog (write : Bool) (et : BitVec 2) (syn : BitVec 8) :
    Within 0xE00000FF (BitVec.ofBool write ++ et ++ 0#21 ++ syn) := by
  have key : (BitVec.ofBool write ++ et ++ 0#21 ++ syn) &&& (0#1 ++ 0#2 ++ 0x1FFFFF#21 ++ 0#8) = 0 := by
    simp only [BitVec.and_append, BitVec.and_zero, BitVec.zero_and]
    rfl
  exact key

/-! ## The registers -/

/-- `Cp15.fieldsWf`, register by register. -/
structure Cp15.Fields (c : Cp15) : Prop where
  control : c.control &&& ~~~(0x00003B87 : Word) = 0x78
  auxControl : Within 0x33 c.auxControl
  ttbr : Within 0xFFFFC000 c.ttbr
  fsr : Within 0x6FF c.fsr
  pid : Within 0xFE000000 c.pid
  dbcon : Within 0x10F c.dbcon
  cpar : Within 0x2001 c.cpar

theorem Cp15.fieldsWf_iff (c : Cp15) : c.fieldsWf = true ↔ c.Fields := by
  simp only [Cp15.fieldsWf, controlWf, Bool.and_eq_true, beq_iff_eq]
  constructor
  · rintro ⟨⟨⟨⟨⟨⟨control, aux⟩, ttbr⟩, fsr⟩, pid⟩, dbcon⟩, cpar⟩
    exact ⟨control, aux, ttbr, fsr, pid, dbcon, cpar⟩
  · rintro ⟨control, aux, ttbr, fsr, pid, dbcon, cpar⟩
    exact ⟨⟨⟨⟨⟨⟨control, aux⟩, ttbr⟩, fsr⟩, pid⟩, dbcon⟩, cpar⟩

/-- The bus controller's part of `State.unitsWf`. -/
structure Bcu.Fields (b : Bcu) : Prop where
  bcuctl : Within 0x7000000D b.bcuctl
  bcumod : Within 1 b.bcumod
  elog0 : Within 0xE00000FF b.elog0
  elog1 : Within 0xE00000FF b.elog1
  ectst : Within 0x800000FF b.ectst

/-- The registers of CP15, CP14 and CP13 that have bits without a meaning, each within its own. -/
structure RegisterFields (c : Cp15) (pmnc : Word) (clock : BitVec 4) (dcsr txrxctrl intctl intstr : Word) (b : Bcu) :
    Prop where
  cp15 : c.Fields
  pmnc : Within 0x0FFFF779 pmnc
  clock : clock ≠ 0 ∧ clock.toNat < 10
  dcsr : Within 0xC0DF003F dcsr
  txrxctrl : Within 0xF0000000 txrxctrl
  intctl : Within 0xF intctl
  intstr : Within 0x3 intstr
  bcu : b.Fields

/-- `State.registersWf`, said of the registers it reads: a change of anything else keeps it by definition. -/
@[reducible] def State.Fields (s : State) : Prop :=
  RegisterFields s.cp15 s.pmu.pmnc s.power.cclkcfg s.dbg.dcsr s.dbg.txrxctrl s.icu.intctl s.icu.intstr s.bcu

theorem State.registersWf_iff (s : State) : s.registersWf = true ↔ s.Fields := by
  simp only [State.registersWf, State.unitsWf, Cp15.fieldsWf_iff, Bool.and_eq_true, Bool.not_eq_true', beq_iff_eq,
    decide_eq_true_eq, beq_eq_false_iff_ne]
  constructor
  · rintro ⟨cp15, ⟨⟨⟨⟨⟨⟨⟨⟨⟨⟨pmnc, clock⟩, clock'⟩, dcsr⟩, tx⟩, ctl⟩, str⟩, bcuctl⟩, bcumod⟩, elog0⟩, elog1⟩, ectst⟩
    exact ⟨cp15, pmnc, ⟨clock, clock'⟩, dcsr, tx, ctl, str, ⟨bcuctl, bcumod, elog0, elog1, ectst⟩⟩
  · rintro ⟨cp15, pmnc, ⟨clock, clock'⟩, dcsr, tx, ctl, str, ⟨bcuctl, bcumod, elog0, elog1, ectst⟩⟩
    exact ⟨cp15, ⟨⟨⟨⟨⟨⟨⟨⟨⟨⟨pmnc, clock⟩, clock'⟩, dcsr⟩, tx⟩, ctl⟩, str⟩, bcuctl⟩, bcumod⟩, elog0⟩, elog1⟩, ectst⟩

/-! ## Updates of one register -/

namespace State.Fields
variable {s : State}

theorem withCp15 (hs : s.Fields) {c : Cp15} (hc : c.Fields) : ({ s with cp15 := c } : State).Fields :=
  { hs with cp15 := hc }

theorem withBcu (hs : s.Fields) {b : Bcu} (hb : b.Fields) : ({ s with bcu := b } : State).Fields := { hs with bcu := hb }

theorem withDcsr (hs : s.Fields) {v : Word} (hv : Within 0xC0DF003F v) :
    ({ s with dbg := { s.dbg with dcsr := v } } : State).Fields := { hs with dcsr := hv }

theorem withTxrxctrl (hs : s.Fields) {v : Word} (hv : Within 0xF0000000 v) :
    ({ s with dbg := { s.dbg with txrxctrl := v } } : State).Fields := { hs with txrxctrl := hv }

theorem withFsr (hs : s.Fields) (x d : Bool) (dom st : BitVec 4) (far : Word) :
    ({ s with cp15 := { s.cp15 with fsr := fsrWord x d dom st, far := far } } : State).Fields :=
  hs.withCp15 { hs.cp15 with fsr := within_fsrWord x d dom st }

end State.Fields
end Sys2Proof.Machine
end

section
/-!
PROOFS. No memory access sets a bit of a system register outside its table: of those registers accesses write the bus
controller's log only (62_platform R855), where `Closed` allows any change of the bus controller.
-/

namespace Sys2Proof.Machine

section
variable {α : Type} {P : State → Prop} {t : State}

theorem Acc.all_ok {v : α} (h : P t) : (Acc.ok v t).All P := h

theorem Acc.all_abort {f : DataFault} (h : P t) : (Acc.abort f t : Acc α).All P := h

theorem Acc.all_fault {e : Fault} : (Acc.fault e : Acc α).All P := trivial

end

namespace State.Fields
variable {s : State}

/-! ## The bus controller -/

theorem logError (hs : s.Fields) (w : Bool) (et : BitVec 2) (y : BitVec 8) (pa : Word) :
    (s.logError w et y pa).Fields := by
  have h := hs.bcu
  have flag {i : Nat} (hi : BitVec.twoPow 32 i &&& ~~~(0x7000000D : Word) = 0) :
      Within 0x7000000D (setBit s.bcu.bcuctl i true) := h.bcuctl.setBit hi true
  unfold State.logError
  dsimp only
  split
  · exact hs.withBcu { h with elog0 := within_elog w et y, bcuctl := flag (by decide) }
  · split
    · exact hs.withBcu { h with elog1 := within_elog w et y, bcuctl := flag (by decide) }
    · have h30 : ({ s with bcu := { s.bcu with bcuctl := setBit s.bcu.bcuctl 30 true } } : State).Fields :=
        hs.withBcu { h with bcuctl := flag (by decide) }
      split <;> exact h30

theorem logAbort (hs : s.Fields) (w : Bool) (pa : Word) : (s.logAbort w pa).Fields := hs.logError w _ _ pa

theorem abortData (hs : s.Fields) (w : Bool) (pa : Word) : (s.abortData w pa).Fields := hs.logAbort w pa

theorem eccCheck (req : Word) (bs : List Nat) : ∀ {s : State} (_ : s.Fields), (eccCheck req bs s).2.Fields := by
  induction bs with
  | nil => exact fun hs => hs
  | cons b bs ih =>
    intro s hs
    have logged (multi : Bool) (y : BitVec 8) : (s.logEcc multi y req).Fields := hs.logError _ _ _ _
    unfold Machine.eccCheck
    split
    · exact ih hs
    · exact ih (logged _ _)
    · exact ih (logged _ _)
    · exact logged _ _

theorem othersWrite (hs : s.Fields) : s.othersWrite.Fields := by
  obtain ⟨m, o, b, e⟩ := othersWrite_eq s
  rw [e]
  exact hs

theorem assertLock (hs : s.Fields) : s.assertLock.Fields := by
  obtain ⟨x, e⟩ := assertLock_eq s
  rw [e]
  exact hs

theorem abortedRead (hs : s.Fields) (pa req : Word) (n : Nat) (p : Bool) :
    (abortedRead pa req n p s).All State.Fields := by
  have hr : (if s.eccOn p then Machine.eccCheck req (s.receivedBlocks pa req n) s else (true, s)).2.Fields := by
    split
    · exact eccCheck _ _ hs
    · exact hs
  exact Acc.All.ite (Acc.all_ok (hr.logAbort _ _)) (Acc.all_ok hr) _

theorem busRead (hs : s.Fields) (pa req : Word) (n : Nat) (p : Bool) : (busRead pa req n p s).All State.Fields := by
  have h0 : (s.othersWrite.assertLock.note 0x10).Fields := hs.othersWrite.assertLock
  unfold Machine.busRead
  dsimp only
  refine Acc.All.ite Acc.all_fault (Acc.All.ite (h0.abortedRead _ _ _ _) (Acc.All.ite ?_ ?_ _) _) _
  · exact eccCheck _ _ h0
  · exact h0

theorem setBytesAt (bs : List Byte) : ∀ {s : State} (_ : s.Fields) (pa : Word), (s.setBytesAt pa bs).Fields := by
  induction bs with
  | nil => exact fun hs _ => hs
  | cons b bs ih =>
    intro s hs pa
    have h1 : (s.setByteAt pa b).Fields := hs
    exact ih h1 _

theorem setEccBlocks (e : EccState) (bs : List Nat) : ∀ {s : State} (_ : s.Fields), (setEccBlocks e bs s).Fields := by
  induction bs with
  | nil => exact fun hs => hs
  | cons b bs ih =>
    intro s hs
    have h1 : (s.setEcc b e).Fields := hs
    exact ih h1

theorem clearZeroBlocks (bs : List Nat) : ∀ {s : State} (_ : s.Fields), (State.clearZeroBlocks bs s).Fields := by
  induction bs with
  | nil => exact fun hs => hs
  | cons b bs ih =>
    intro s hs
    refine ih ?_
    split
    · exact hs
    · exact hs

theorem rmwRead (hs : s.Fields) (b : Nat) : (rmwRead b s).2.Fields := by
  unfold Machine.rmwRead
  dsimp only
  split
  · exact hs.abortData _ _
  · split
    · exact hs
    · exact hs.logError _ _ _ _
    · exact hs.logError _ _ _ _
    · exact hs.logError _ _ _ _

theorem repairBlock (hs : s.Fields) (b : Nat) : (s.repairBlock b).Fields := by
  unfold State.repairBlock
  split
  · split
    · exact hs
    · exact hs
  all_goals exact hs

theorem rmwWrite (hs : s.Fields) (pa : Word) (bs : List Byte) : (rmwWrite pa bs s).Fields := by
  have h0 : (s.note 0x16).Fields := hs
  have hr := h0.rmwRead (blockOf pa)
  unfold Machine.rmwWrite
  dsimp only
  split
  · exact hr.abortData _ _
  · split
    · exact setBytesAt bs (hr.repairBlock _) pa
    · exact hr

theorem writeCheckBits (hs : s.Fields) (pa : Word) (n : Nat) (p : Bool) : (s.writeCheckBits pa n p).Fields := by
  unfold State.writeCheckBits
  split
  · split
    · split
      · exact hs
      · exact setEccBlocks _ _ hs
    · exact setEccBlocks _ _ hs
  · exact clearZeroBlocks _ hs

theorem busWrite (hs : s.Fields) (u : Bool) (pa : Word) (bs : List Byte) (p : Bool) :
    (busWrite u pa bs p s).All State.Fields := by
  have h0 : (s.othersWrite.note 0x10).Fields := hs.othersWrite
  have h1 (k : Nat) : (if k = 0 then s.othersWrite.note 0x10
      else ((s.othersWrite.note 0x10).setBytesAt pa (bs.take k)).writeCheckBits pa k p).Fields := by
    split
    · exact h0
    · exact (setBytesAt _ h0 pa).writeCheckBits pa k p
  unfold Machine.busWrite
  dsimp only
  refine Acc.All.ite Acc.all_fault (Acc.All.ite (Acc.all_ok (h0.rmwWrite _ _)) (Acc.all_ok ?_) _) _
  split
  · exact (h1 _).abortData _ _
  · exact h1 _

/-! ## Translation -/

theorem readDescriptor (hs : s.Fields) (pa : Word) (c : FaultCode) (m : Word) (d : BitVec 4) :
    (readDescriptor pa c m d s).All State.Fields := by
  refine (hs.busRead _ _ _ _).bind fun r t ht => ?_
  cases r <;> exact ht

theorem walk (hs : s.Fields) (m : Word) : (walk m s).All State.Fields := by
  refine (hs.readDescriptor _ _ _ _).bind fun l1 t ht => ?_
  refine Acc.All.ite (Acc.all_abort ht) (Acc.All.ite (Acc.all_ok ht) ((ht.readDescriptor _ _ _ _).bind fun l2 u hu => ?_) _) _
  split
  · exact hu
  · exact hu

theorem setTlb (hs : s.Fields) (i : Bool) (t : Tlb) : (s.setTlb i t).Fields := by cases i <;> exact hs

theorem translate (hs : s.Fields) (i : Bool) (m : Word) (w pr : Bool) : (translate i m w pr s).All State.Fields := by
  have h0 (n : BitVec 8) : (s.note n).Fields := hs
  unfold Machine.translate
  split
  · exact hs
  · split
    · refine ((h0 _).walk m).bind fun e t ht => ?_
      exact (Closed.checkAccess (ht.setTlb i _) e m w pr).bind fun _ _ hu => hu
    · exact (Closed.checkAccess hs _ m w pr).bind fun _ _ hu => hu
    · trivial

theorem translateAndLock (hs : s.Fields) (i : Bool) (m : Word) : (translateAndLock i m s).All State.Fields := by
  refine Acc.All.ite Acc.all_fault (Acc.All.ite (Acc.all_ok hs) ?_ _) _
  refine Acc.All.lockAbort ((hs.walk m).bind fun e t ht => ?_)
  exact (Closed.checkAccess ht e m _ _).bind fun _ u hu => hu.setTlb i _

theorem translateUnchecked (hs : s.Fields) (m : Word) : (translateUnchecked m s).All State.Fields := by
  have h0 : (s.note 0x4).Fields := hs
  unfold Machine.translateUnchecked
  split
  · exact hs
  · split
    · exact (h0.walk m).bind fun _ _ ht => ht
    · exact hs
    · trivial

/-! ## The data caches -/

theorem setDataCache (hs : s.Fields) (m : Bool) (c : Cache) : (s.setDataCache m c).Fields := by cases m <;> exact hs

theorem evictHalf (hs : s.Fields) (l : CacheLine) (hi : Bool) : (evictHalf l hi s).All State.Fields := by
  have h0 (pa : Word) : ((s.note 0x0C).noteOverwritten pa 16).Fields := hs
  exact (h0 _).busWrite _ _ _ _

theorem evict (hs : s.Fields) (l : CacheLine) : (evict l s).All State.Fields :=
  (Acc.All.ite (hs.evictHalf l false) (Acc.all_ok hs) _).bind fun _ _ ht =>
    Acc.All.ite (ht.evictHalf l true) (Acc.all_ok ht) _

theorem evictVictim (hs : s.Fields) (l : Option CacheLine) : (evictVictim l s).All State.Fields := by
  cases l with
  | none => exact hs
  | some k => exact Acc.All.ite (hs.evict k) (Acc.all_ok hs) _

theorem allocateLine (hs : s.Fields) (m : Bool) (x : Xlat) (a : Word) (d : Vector Byte 32) :
    (allocateLine m x a d s).All State.Fields :=
  (hs.evictVictim _).bind fun _ _ ht => ht.setDataCache m _

theorem fillLine (hs : s.Fields) (x : Xlat) (a : Word) : (fillLine x a s).All State.Fields := by
  refine Acc.All.ite Acc.all_fault ((hs.busRead _ _ _ _).bind fun r t ht => ?_) _
  split
  · exact ht
  · exact (ht.allocateLine _ _ _ _).bind fun _ _ hu => hu

theorem noteAccess (hs : s.Fields) (x : Xlat) : (s.noteAccess x).Fields := by
  unfold State.noteAccess
  split <;> exact hs

theorem readLine (hs : s.Fields) (l : CacheLine) (a : Word) (n : Nat) : (readLine l a n s).All State.Fields := by
  unfold Machine.readLine
  split <;> exact hs

theorem dataRead (hs : s.Fields) (x : Xlat) (a : Word) (n : Nat) : (dataRead x a n s).All State.Fields := by
  have h0 := hs.noteAccess x
  have h1 : ((s.noteAccess x).note 0x0B).Fields := h0
  unfold Machine.dataRead
  split
  · trivial
  · dsimp only
    split
    · exact h0.readLine _ _ _
    · refine Acc.All.ite ((h1.fillLine x a).bind fun r t ht => ?_) ((h1.busRead _ _ _ _).bind fun r t ht => ?_) _
      · split
        · exact ht.readLine _ _ _
        · exact ht
      · split <;> exact ht

theorem dataWrite (hs : s.Fields) (x : Xlat) (a : Word) (bs : List Byte) : (dataWrite x a bs s).All State.Fields := by
  have h0 : ((s.noteAccess x).noteOverwritten x.pa bs.length).Fields := hs.noteAccess x
  have h1 : (((s.noteAccess x).noteOverwritten x.pa bs.length).note 0x0B).Fields := h0
  unfold Machine.dataWrite
  split
  · trivial
  · dsimp only
    split
    · have h2 := h0.setDataCache
      exact Acc.All.ite ((h2 _ _).busWrite _ _ _ _) (Acc.all_ok (h2 _ _)) _
    · refine Acc.All.ite ((h1.fillLine x a).bind fun r t ht => ?_) (h1.busWrite _ _ _ _) _
      split
      · exact ht.setDataCache _ _
      · exact ht

/-! ## Accesses by virtual address -/

theorem noteBreak (hs : s.Fields) (a : Word) (n : Nat) (st : Bool) : (s.noteBreak a n st).Fields := by
  unfold State.noteBreak
  split <;> exact hs

theorem translateData (hs : s.Fields) (a va : Word) (w pr : Bool) : (translateData a va w pr s).All State.Fields :=
  (hs.translate _ _ _ _).faultAt _

theorem readMem (hs : s.Fields) (n : Nat) (va : Word) (pr : Bool) : (readMem n va pr s).All State.Fields :=
  (Closed.alignData hs n va).bind fun a _ h1 => (h1.translateData a va false pr).bind fun x _ h2 =>
    ((h2.noteBreak a n false).dataRead x _ n).bind fun _ _ h3 => h3

theorem checkStore (hs : s.Fields) (n : Nat) (va : Word) (pr : Bool) : (checkStore n va pr s).All State.Fields :=
  (Closed.alignData hs n va).bind fun a _ h1 => (h1.translateData a va true pr).bind fun _ _ h2 => h2

theorem storeChecked (hs : s.Fields) (n : Nat) (v : Word) (p : Word × Xlat) :
    (storeChecked n v p s).All State.Fields := (hs.noteBreak p.1 n true).dataWrite p.2 _ _

theorem writeMem (hs : s.Fields) (n : Nat) (va v : Word) (pr : Bool) : (writeMem n va v pr s).All State.Fields :=
  (hs.checkStore n va pr).bind fun p _ ht => ht.storeChecked n v p

theorem readWord (hs : s.Fields) (va : Word) (pr : Bool) : (readWord va pr s).All State.Fields :=
  (hs.readMem 4 va pr).bind fun _ _ ht => ht

theorem swapMem (hs : s.Fields) (n : Nat) (va v : Word) : (swapMem n va v s).All State.Fields := by
  refine (Closed.alignData hs n va).bind fun a t ht => (ht.translateData a va true _).bind fun x u hu => ?_
  have hl : ((u.noteBreak a n true).setLock (.asked (x.pa.toNat / 32))).Fields := hu.noteBreak a n true
  refine (hl.dataRead x _ n).bind fun bs v hv => (hv.dataWrite x _ _).bind fun _ w hw => ?_
  exact hw

theorem preload (hs : s.Fields) (va : Word) : (preload va s).All State.Fields := by
  have h0 : ((s.note 0x0A).note 0x0B).Fields := hs
  unfold Machine.preload
  dsimp only
  refine Acc.All.ite (Acc.all_ok hs) ?_ _
  split
  · split
    · split
      · exact Acc.All.ite ((h0.fillLine _ _).bind fun _ _ ht => Acc.all_ok ht) (Acc.all_ok hs) _
      · exact hs
    · exact hs
  · exact hs

theorem storeWords (pr : Bool) (vs : List Word) :
    ∀ {s : State} (_ : s.Fields) (a : Word), (storeWords pr vs a s).All State.Fields := by
  induction vs with
  | nil => exact fun hs _ => hs
  | cons v vs ih => exact fun hs a => (hs.writeMem 4 a v pr).bind fun _ _ ht => ih ht _

theorem loadRegs (m : BitVec 5) (pr : Bool) (rs : List Reg) :
    ∀ {s : State} (_ : s.Fields) (a : Word), (loadRegs m pr rs a s).All State.Fields := by
  induction rs with
  | nil => exact fun hs _ => hs
  | cons r rs ih =>
    refine fun hs a => (hs.readMem 4 a pr).bind fun v t ht => ?_
    have h1 : (t.setBankReg m r v).Fields := ht
    exact ih h1 _

/-! ## Cache functions and fetches -/

theorem cleanDLine (hs : s.Fields) (a : Word) : (cleanDLine a s).All State.Fields := by
  unfold Machine.cleanDLine
  split
  · exact hs
  · rename_i mini l _
    have h1 : (if l.bad = 0 then s else s.pend .parity).Fields := by split <;> exact hs
    exact (h1.evict l).bind fun _ _ ht => ht.setDataCache _ _

theorem lineAllocate (hs : s.Fields) (rd : Word) : (lineAllocate rd s).All State.Fields := by
  refine (hs.translateUnchecked _).bind fun x t ht => ?_
  have h1 : (t.draw 8).Fields := ht
  split
  · exact ht
  · exact (h1.allocateLine _ _ _ _).bind fun _ _ hu => hu

theorem fetchPartly (hs : s.Fields) (x : Xlat) (a : Word) : (fetchPartly x a s).All State.Fields := by
  unfold Machine.fetchPartly
  dsimp only
  split <;> exact hs

theorem fetchMiss (hs : s.Fields) (x : Xlat) (a : Word) : (fetchMiss x a s).All State.Fields := by
  have h0 : (s.note 0x00).Fields := hs
  refine (h0.busRead _ _ _ _).bind fun r t ht => ?_
  split
  · exact ht.fetchPartly x a
  · dsimp only
    split <;> exact ht

theorem changedWord (hs : s.Fields) (pa : Word) (w : Nat) : (changedWord pa w s).All State.Fields := by
  unfold Machine.changedWord
  split <;> exact hs

theorem fetchHeld (hs : s.Fields) (x : Xlat) (a : Word) : (fetchHeld x a s).All State.Fields := by
  unfold Machine.fetchHeld
  split
  · split <;> exact hs
  · split
    · exact hs
    · exact hs.fetchMiss x a

theorem fetchAt (hs : s.Fields) (x : Xlat) (a : Word) : (fetchAt x a s).All State.Fields :=
  Acc.All.ite (hs.fetchHeld x a) ((hs.fetchHeld x a).bind fun w _ ht => ht.changedWord x.pa w) _

theorem fetchWord (hs : s.Fields) : (fetchWord s).All State.Fields := by
  have htr := hs.translate true s.fetchAddress false s.priv
  unfold Machine.fetchWord
  dsimp only
  split
  · exact hs.fetchAt _ _
  · split
    · rename_i e
      exact State.Fields.fetchAt (htr.ok e) _ _
    · rename_i e
      exact Acc.All.ite (Acc.all_abort (htr.abort e)) (Acc.all_abort (htr.abort e)) _
    · trivial
    · trivial

theorem staleWord (hs : s.Fields) (w : Nat) : (staleWord w s).All State.Fields := by
  unfold Machine.staleWord
  split
  · split
    · split <;> exact hs
    · exact hs
  · exact hs

theorem fetch (hs : s.Fields) : (fetch s).All State.Fields := hs.fetchWord.bind fun w _ ht => ht.staleWord w

theorem fetchAndLockI (hs : s.Fields) (rd : Word) : (fetchAndLockI rd s).All State.Fields := by
  have htr := hs.translate true (rd &&& 0xFFFFFFE0) false s.priv
  unfold Machine.fetchAndLockI
  dsimp only
  refine Acc.All.ite Acc.all_fault ?_ _
  split
  · rename_i x t e
    have ht : t.Fields := htr.ok e
    have h0 : (t.note 0x00).Fields := ht
    refine Acc.All.ite Acc.all_fault ((h0.busRead _ _ _ _).bind fun r u hu => ?_) _
    split <;> exact hu
  · rename_i e
    exact htr.abort e
  · trivial
  · trivial

end State.Fields
end Sys2Proof.Machine
end

section
/-!
PROOFS. No instruction sets a bit of a system register outside its table: the effect on them of each operation that the meanings
share, then of every instruction.
-/

namespace Sys2Proof.Machine
namespace State.Fields
variable {s : State}

/-! ## Registers, exceptions, returns -/

theorem setReg (hs : s.Fields) (r : Reg) (v : Word) : (s.setReg r v).Fields := by
  unfold State.setReg
  split <;> exact hs

theorem apply (hs : s.Fields) (a : Addr) (rn : Reg) : (a.apply rn s).Fields := by
  unfold Addr.apply
  split
  · exact hs.setReg _ _
  · exact hs

theorem recordFault (hs : s.Fields) (f : DataFault) : (s.recordFault f).Fields := hs.withFsr _ _ _ _ _

theorem setSticky (hs : s.Fields) : s.setSticky.Fields := hs.withDcsr (hs.dcsr.setBit (by decide) _)

theorem debugCommon (hs : s.Fields) (moe : BitVec 3) : (s.debugCommon moe).Fields :=
  hs.withDcsr (hs.dcsr.mergeMask (by decide) _)

theorem takeException (hs : s.Fields) (e : Exc) (link : Word) (counted : Bool) : (takeException e link counted s).Fields :=
  hs

theorem debugEntryHalt (hs : s.Fields) (moe : BitVec 3) (link : Word) : (debugEntryHalt moe link s).Fields :=
  hs.debugCommon moe

theorem debugException (hs : s.Fields) (moe : BitVec 3) (e : Exc) (link : Word) :
    (debugException moe e link s).Fields := by
  unfold Machine.debugException
  split
  · exact hs.debugEntryHalt moe link
  · exact (hs.debugCommon moe).withFsr _ _ _ _ _

theorem raiseUndef (hs : s.Fields) : Out.All State.Fields (raiseUndef s) := by
  unfold Machine.raiseUndef
  split
  · trivial
  · exact hs

theorem raiseSwi (hs : s.Fields) : Out.All State.Fields (raiseSwi s) := by
  unfold Machine.raiseSwi
  split
  · trivial
  · refine takeException ?_ _ _ _
    split <;> exact hs

theorem breakpoint (hs : s.Fields) : Out.All State.Fields (breakpoint s) := by
  unfold Machine.breakpoint
  split
  · exact hs
  · exact hs.debugException _ _ _

theorem exceptionReturn (hs : s.Fields) (v : Word) : Out.All State.Fields (exceptionReturn v s) := by
  unfold Machine.exceptionReturn
  split
  · trivial
  · exact hs

theorem armCond (hs : s.Fields) (c : Cond) {k : Out} (hk : Out.All State.Fields k) : Out.All State.Fields (armCond c s k) := by
  unfold Machine.armCond
  split
  · exact hk
  · exact hs

/-- The end of an instruction that accesses memory. -/
theorem finish {α : Type} {x : Acc α} (hx : x.All State.Fields) (counted : Bool) {wb : State → State}
    (hwb : ∀ {t : State}, t.Fields → (wb t).Fields) {k : α → State → Out}
    (hk : ∀ v {t : State}, t.Fields → Out.All State.Fields (k v t)) : Out.All State.Fields (x.finish counted wb k) := by
  cases x with
  | ok v t => exact hk v hx
  | abort f t =>
    have ht : t.Fields := hx
    have hf := ht.recordFault f
    unfold Acc.finish
    dsimp only
    split
    · exact hwb hf.setSticky
    · exact hf
  | fault e => trivial
  | refused e => trivial

/-! ## Data processing, multiplies, branches -/

theorem writeReg (hs : s.Fields) (rd : Reg) (v : Word) : Out.All State.Fields (writeReg rd v s) := hs.setReg rd v

theorem writeAlu (hs : s.Fields) (sb : Bool) (rd : Reg) (r : AluResult) : Out.All State.Fields (writeAlu sb rd r s) := by
  unfold Machine.writeAlu
  split
  · split
    · exact hs.exceptionReturn _
    · exact hs
  · exact hs.setReg rd r.value

theorem writeFlags (hs : s.Fields) (r : AluResult) : Out.All State.Fields (writeFlags r s) := hs

theorem writeSum (hs : s.Fields) (rd : Reg) (v : Word) : Out.All State.Fields (writeSum rd v s) := by
  unfold Machine.writeSum
  split
  · exact hs
  · exact hs.writeReg rd v

theorem writeProduct (hs : s.Fields) (sb : Bool) (rd : Reg) (v : Word) : Out.All State.Fields (writeProduct sb rd v s) :=
  hs.setReg rd v

theorem writeLong (hs : s.Fields) (sb : Bool) (hi lo : Reg) (v : BitVec 64) :
    Out.All State.Fields (writeLong sb hi lo v s) := (hs.setReg hi _).setReg lo _

theorem writeSticky (hs : s.Fields) (rd : Reg) (v : Word) (q : Bool) : Out.All State.Fields (writeSticky rd v q s) :=
  hs.setReg rd v

theorem twoDests {k : Out} (hk : Out.All State.Fields k) (hi lo : Reg) : Out.All State.Fields (twoDests hi lo k) :=
  (Out.all_refused _ _).ite hk _

theorem notBothLow {k : Out} (hk : Out.All State.Fields k) (d m : Reg) : Out.All State.Fields (notBothLow d m k) :=
  (Out.all_refused _ _).ite hk _

theorem withAcc (hs : s.Fields) {k : Out} (hk : Out.All State.Fields k) (acc : BitVec 3) (rs : List Reg) :
    Out.All State.Fields (withAcc acc rs s k) :=
  hs.raiseUndef.ite ((Out.all_refused _ _).ite (hk.noR15 rs) _) _

theorem sbzAcc {k : Out} (hk : Out.All State.Fields k) (sbz : BitVec 5) : Out.All State.Fields (sbzAcc sbz k) :=
  hk.ite (Out.all_refused _ _) _

theorem accumulate (hs : s.Fields) (p : Int) : Out.All State.Fields (accumulate p s) := hs

theorem mrs (hs : s.Fields) (r : Bool) (rd : Reg) : Out.All State.Fields (if r then
      match s.spsr with
      | none => .fault .noSpsr
      | some p => Machine.writeReg rd p s
    else Machine.writeReg rd s.cpsr s) := by
  cases r
  · exact hs.writeReg _ _
  · cases s.spsr with
    | none => trivial
    | some p => exact hs.writeReg _ _

theorem msr (hs : s.Fields) (r : Bool) (mask : BitVec 4) (v : Word) : Out.All State.Fields (msr r mask v s) := by
  unfold Machine.msr
  split
  · unfold msrSpsr
    split
    · trivial
    · exact hs
  · unfold msrCpsr
    dsimp only
    split
    · split
      · trivial
      · split
        · trivial
        · exact hs
    · exact hs

theorem recordBranch (hs : s.Fields) (word : Word) (taken : Bool) (target : Word) :
    (s.recordBranch word taken target).Fields := by
  have h2 (right : Bool) : (if right then s.note 0x05 else (s.note 0x05).note 0x06).Fields := by cases right <;> exact hs
  unfold State.recordBranch
  dsimp only
  split
  · split
    · exact h2 _
    · split <;> exact h2 _
  · exact h2 _

theorem predictedBranch (hs : s.Fields) (word : Word) (taken : Bool) (target : Word) :
    Out.All State.Fields (predictedBranch word taken target s) := by
  have h1 := hs.recordBranch word taken target
  unfold Machine.predictedBranch
  dsimp only
  split <;> exact h1

theorem branchExchange (hs : s.Fields) (v : Word) : Out.All State.Fields (branchExchange v s) := by
  unfold Machine.branchExchange
  split
  · trivial
  · exact hs

theorem noteBranch (hs : s.Fields) : s.noteBranch.Fields := hs

/-! ## Loads and stores -/

theorem writeLoaded (hs : s.Fields) (rd : Reg) (v : Word) : Out.All State.Fields (writeLoaded rd v s) := by
  unfold Machine.writeLoaded
  split
  · exact hs
  · exact hs.writeReg rd v

theorem loadWord (hs : s.Fields) (pr : Bool) (a : Addr) (rn rd : Reg) : Out.All State.Fields (loadWord pr a rn rd s) :=
  finish (hs.readWord _ _) _ (fun h => h.apply a rn) fun _ _ h => (h.apply a rn).writeLoaded _ _

theorem loadSmall (hs : s.Fields) (n : Nat) (sg pr : Bool) (a : Addr) (rn rd : Reg) :
    Out.All State.Fields (loadSmall n sg pr a rn rd s) :=
  finish (hs.readMem _ _ _) _ (fun h => h.apply a rn) fun _ _ h => (h.apply a rn).writeLoaded _ _

theorem store (hs : s.Fields) (n : Nat) (v : Word) (pr : Bool) (a : Addr) (rn : Reg) :
    Out.All State.Fields (store n v pr a rn s) :=
  finish (hs.writeMem _ _ _ _) _ (fun h => h.apply a rn) fun _ _ h => Out.all_next (h.apply a rn)

theorem doubleRegs (hs : s.Fields) {k : Out} (hk : Out.All State.Fields k) (rd : Reg) :
    Out.All State.Fields (doubleRegs rd s k) := hs.raiseUndef.ite ((Out.all_refused _ _).ite hk _) _

theorem loadDouble (hs : s.Fields) (a : Addr) (rn rd : Reg) : Out.All State.Fields (loadDouble a rn rd s) := by
  refine finish ?_ _ (fun h => h.apply a rn) fun v t h => Out.all_next (((h.apply a rn).setReg rd v.1).setReg (rd + 1) v.2)
  exact (Closed.alignDouble hs _).bind fun va _ h1 => (h1.readMem 4 va _).bind fun lo _ h2 =>
    (h2.readMem 4 (va + 4) _).bind fun hi _ h3 => h3

theorem storeDouble (hs : s.Fields) (a : Addr) (rn rd : Reg) : Out.All State.Fields (storeDouble a rn rd s) := by
  refine finish ?_ _ (fun h => h.apply a rn) fun _ _ h => Out.all_next (h.apply a rn)
  exact (Closed.alignDouble hs _).bind fun va _ h1 => (h1.writeMem 4 va _ _).bind fun _ _ h2 => h2.writeMem 4 (va + 4) _ _

theorem loadList (hs : s.Fields) (m : BitVec 5) (rs : List Reg) (pc : Bool) (start : Word) (rn : Reg) :
    (loadList m rs pc start rn s).All State.Fields := by
  refine Acc.All.onAbort ?_ fun t ht => State.Fields.setReg ht rn _
  exact (loadRegs m _ rs hs start).bind fun _ _ ht => Acc.All.ite (ht.readMem 4 _ _) (Acc.all_ok ht) _

theorem loadMultiple (hs : s.Fields) (a : Addr) (rn : Reg) (list : BitVec 16) :
    Out.All State.Fields (loadMultiple a rn list s) := by
  refine finish (hs.loadList _ _ _ _ _) _ (fun h => h.apply a rn) fun v t h => ?_
  have h1 := h.apply a rn
  dsimp only
  split <;> exact h1

theorem storeMultiple (hs : s.Fields) (m : BitVec 5) (a : Addr) (rn : Reg) (list : BitVec 16) :
    Out.All State.Fields (storeMultiple m a rn list s) := by
  have h1 : (s.draw 1).Fields := hs
  exact finish (storeWords _ _ h1 _) _ (fun h => h.apply a rn) fun _ _ h => Out.all_next (h.apply a rn)

theorem userBank {k : Out} (hk : Out.All State.Fields k) (a : Mode4) (s : State) :
    Out.All State.Fields (userBank a s k) := (Out.all_refused _ _).ite ((Out.all_fault _ _).ite hk _) _

theorem swap (hs : s.Fields) (n : Nat) (rn rd rm : Reg) : Out.All State.Fields (swap n rn rd rm s) :=
  finish (hs.swapMem _ _ _) _ id fun _ _ h => h.writeReg _ _

theorem preloadAt (hs : s.Fields) (va : Word) : Out.All State.Fields (preloadAt va s) :=
  finish (hs.preload va) _ id fun _ _ h => Out.all_next h

/-! ## Coprocessor registers (11_state R84 to R130, 12_state R142 to R174) -/

theorem freeBits (hs : s.Fields) (v mask : Word) : (freeBits v mask s).All State.Fields := hs

theorem cacheFunction (hs : s.Fields) (crm : BitVec 4) (op2 : BitVec 3) (v : Word) :
    (cacheFunction crm op2 v s).All State.Fields := by
  unfold Machine.cacheFunction
  repeat' with_reducible refine Acc.All.ite ?_ ?_ _
  all_goals first | exact hs | trivial | exact hs.cleanDLine v | exact hs.lineAllocate v

theorem tlbFunction (hs : s.Fields) (crm : BitVec 4) (op2 : BitVec 3) (v : Word) :
    (tlbFunction crm op2 v s).All State.Fields := by
  unfold Machine.tlbFunction
  repeat' with_reducible refine Acc.All.ite ?_ ?_ _
  all_goals first | exact hs | trivial

theorem cacheLockFunction (hs : s.Fields) (crm : BitVec 4) (op2 : BitVec 3) (v : Word) :
    (cacheLockFunction crm op2 v s).All State.Fields := by
  have lock : ({ s with cp15 := { s.cp15 with dcacheLock := v.getLsbD 0 } } : State).Fields :=
    hs.withCp15 { hs.cp15 with }
  unfold Machine.cacheLockFunction
  repeat' with_reducible refine Acc.All.ite ?_ ?_ _
  all_goals first | exact hs | trivial | exact lock | exact hs.fetchAndLockI v

theorem tlbLockFunction (hs : s.Fields) (crm : BitVec 4) (op2 : BitVec 3) (v : Word) :
    (tlbLockFunction crm op2 v s).All State.Fields := by
  unfold Machine.tlbLockFunction
  repeat' with_reducible refine Acc.All.ite ?_ ?_ _
  all_goals first | exact hs | trivial | exact hs.translateAndLock _ v

theorem writeControl (hs : s.Fields) (v : Word) : (s.writeControl v).Fields := by
  have key : ((v &&& controlMask) ||| 0x78) &&& ~~~(0x00003B87 : Word) = 0x78 := by
    rw [BitVec.and_comm, BitVec.and_or_distrib_left, BitVec.and_comm _ (v &&& controlMask), BitVec.and_assoc,
      show controlMask &&& ~~~(0x00003B87 : Word) = 0 by decide,
      show ~~~(0x00003B87 : Word) &&& 0x78 = 0x78 by decide]
    simp
  exact hs.withCp15 { hs.cp15 with control := key }

theorem writeAuxControl (hs : s.Fields) (v : Word) : (writeAuxControl v s).All State.Fields := by
  unfold Machine.writeAuxControl
  dsimp only
  split
  · trivial
  · exact hs.withCp15 { hs.cp15 with auxControl := within_and (by decide) v }

theorem writeCpar (hs : s.Fields) (v : Word) : (writeCpar v s).All State.Fields := by
  unfold Machine.writeCpar
  split
  · trivial
  · exact hs.withCp15 { hs.cp15 with cpar := within_and (by decide) v }

theorem writeIbcr (hs : s.Fields) (second : Bool) (v : Word) : (writeIbcr second v s).All State.Fields := by
  unfold Machine.writeIbcr
  split
  · trivial
  · split
    · exact hs.withCp15 { hs.cp15 with }
    · exact hs.withCp15 { hs.cp15 with }

theorem writeBreakpoint (hs : s.Fields) (crm : BitVec 4) (v : Word) : (writeBreakpoint crm v s).All State.Fields := by
  unfold Machine.writeBreakpoint
  repeat' with_reducible refine Acc.All.ite ?_ ?_ _
  · exact hs
  · exact hs.writeIbcr false v
  · exact hs.writeIbcr true v
  · exact hs.withCp15 { hs.cp15 with }
  · exact hs.withCp15 { hs.cp15 with }
  · exact hs.withCp15 { hs.cp15 with dbcon := within_and (by decide) v }
  · trivial

theorem writeCp15 (hs : s.Fields) (crn crm : BitVec 4) (op2 : BitVec 3) (v : Word) :
    (writeCp15 crn crm op2 v s).All State.Fields := by
  have h := hs.cp15
  unfold Machine.writeCp15
  dsimp only
  repeat' with_reducible refine Acc.All.ite ?_ ?_ _
  · exact hs
  · exact hs.writeControl v
  · exact hs.writeAuxControl v
  · exact hs.withCp15 { h with ttbr := within_and (by decide) v }
  · exact hs.withCp15 { h with }
  · exact hs.withCp15 { h with fsr := within_and (by decide) v }
  · exact hs.withCp15 { h with }
  · exact hs.cacheFunction crm op2 v
  · exact hs.tlbFunction crm op2 v
  · exact hs.cacheLockFunction crm op2 v
  · exact hs.tlbLockFunction crm op2 v
  · exact hs.withCp15 { h with pid := within_and (by decide) v }
  · exact hs.writeBreakpoint crm v
  · exact hs.writeCpar v
  · trivial

theorem writePmnc (hs : s.Fields) (v : Word) : (s.writePmnc v).Fields :=
  { hs with pmnc := (within_and (by decide) v).or ((hs.pmnc.and _).and _) }

theorem writeCclkcfg (hs : s.Fields) (v : Word) : (writeCclkcfg v s).All State.Fields := by
  unfold Machine.writeCclkcfg
  dsimp only
  split
  · trivial
  · rename_i h
    obtain ⟨h0, h10⟩ := not_or.1 h
    exact { hs with clock := ⟨h0, Nat.lt_of_not_le h10⟩ }

theorem writePwrmode (hs : s.Fields) (v : Word) : (writePwrmode v s).All State.Fields := by
  unfold Machine.writePwrmode
  dsimp only
  repeat' with_reducible refine Acc.All.ite ?_ ?_ _
  all_goals first | exact hs | trivial

theorem writeTx (hs : s.Fields) (v : Word) : (s.writeTx v).Fields := by
  have h1 : ({ s with dbg := { s.dbg with txrxctrl := setBit s.dbg.txrxctrl 28 true } } : State).Fields :=
    hs.withTxrxctrl (hs.txrxctrl.setBit (by decide) true)
  unfold State.writeTx
  split
  · exact hs
  · exact h1

theorem writeDcsr (hs : s.Fields) (v : Word) : (s.writeDcsr v).Fields := by
  have h1 := hs.withDcsr (hs.dcsr.mergeMask (k := dcsrSoftMask) (by decide) v)
  unfold State.writeDcsr
  dsimp only
  split
  · exact hs
  · split <;> exact h1

theorem writeCp14 (hs : s.Fields) (crn : BitVec 4) (v : Word) : (writeCp14 crn v s).All State.Fields := by
  unfold Machine.writeCp14
  repeat' with_reducible refine Acc.All.ite ?_ ?_ _
  all_goals first
    | exact hs
    | trivial
    | exact hs.writePmnc v
    | exact hs.writeCclkcfg v
    | exact hs.writePwrmode v
    | exact hs.writeTx v
    | exact hs.writeDcsr v
    | exact hs.withTxrxctrl (hs.txrxctrl.mergeMask (by decide) v)

theorem writeBcuctl (hs : s.Fields) (v : Word) : (writeBcuctl v s).All State.Fields := by
  unfold Machine.writeBcuctl
  dsimp only
  split
  · trivial
  · exact hs.withBcu { hs.bcu with bcuctl := ((hs.bcu.bcuctl.and _).and _).or (within_and (by decide) v) }

theorem writeEctst (hs : s.Fields) (v : Word) : (writeEctst v s).All State.Fields := by
  have hm : Within 0x800000FF (mergeMask s.bcu.ectst 0xFF v) := hs.bcu.ectst.mergeMask (by decide) v
  unfold Machine.writeEctst
  dsimp only
  split
  · exact hs.withBcu { hs.bcu with ectst := hm }
  · split
    · trivial
    · exact hs.withBcu { hs.bcu with ectst := hm.setBit (by decide) _ }

theorem writeCp13 (hs : s.Fields) (crn crm : BitVec 4) (v : Word) : (writeCp13 crn crm v s).All State.Fields := by
  unfold Machine.writeCp13
  repeat' with_reducible refine Acc.All.ite ?_ ?_ _
  · exact { hs with intctl := within_and (by decide) v }
  · exact hs
  · exact { hs with intstr := within_and (by decide) v }
  · trivial
  · exact hs.writeBcuctl v
  · exact hs.withBcu { hs.bcu with bcumod := within_and (by decide) v }
  · exact hs
  · exact hs.writeEctst v
  · trivial
  · trivial

theorem cpWrite (hs : s.Fields) (cp crn crm : BitVec 4) (op2 : BitVec 3) (v : Word) :
    (cpWrite cp crn crm op2 v s).All State.Fields :=
  Acc.All.ite (hs.writeCp15 crn crm op2 v) (Acc.All.ite (hs.writeCp14 crn v) (hs.writeCp13 crn crm v) _) _

theorem readCp15 (hs : s.Fields) (crn crm : BitVec 4) (op2 : BitVec 3) : (readCp15 crn crm op2 s).All State.Fields := by
  unfold Machine.readCp15 readBreakpoint
  dsimp only
  repeat' with_reducible refine Acc.All.ite ?_ ?_ _
  all_goals first | exact hs | trivial

theorem readCp14 (hs : s.Fields) (crn : BitVec 4) : (readCp14 crn s).All State.Fields := by
  unfold Machine.readCp14 readTbreg
  repeat' with_reducible refine Acc.All.ite ?_ ?_ _
  all_goals first
    | exact hs
    | trivial
    | exact hs.freeBits _ _
    | exact hs.withTxrxctrl (hs.txrxctrl.setBit (by decide) false)

theorem readCp13 (hs : s.Fields) (crn crm : BitVec 4) : (readCp13 crn crm s).All State.Fields := by
  unfold Machine.readCp13
  repeat' with_reducible refine Acc.All.ite ?_ ?_ _
  all_goals first | exact hs | trivial

theorem cpRead (hs : s.Fields) (cp crn crm : BitVec 4) (op2 : BitVec 3) : (cpRead cp crn crm op2 s).All State.Fields :=
  Acc.All.ite (hs.readCp15 crn crm op2) (Acc.All.ite (hs.readCp14 crn) (hs.readCp13 crn crm) _) _

theorem cpChecked (hs : s.Fields) {k : Out} (hk : Out.All State.Fields k) (accepted : Bool) (cp crn : BitVec 4) :
    Out.All State.Fields (cpChecked accepted cp crn s k) :=
  hs.raiseUndef.ite (hs.raiseUndef.ite (hs.raiseUndef.ite hk _) _) _

theorem moveToCp (hs : s.Fields) (crn : BitVec 4) (rd : Reg) (cp : BitVec 4) (op2 : BitVec 3) (crm : BitVec 4) :
    Out.All State.Fields (moveToCp crn rd cp op2 crm s) := by
  refine (Out.all_refused _ _).ite (finish (hs.cpWrite _ _ _ _ _) _ id fun v t h => ?_) _
  exact h

theorem moveFromCp (hs : s.Fields) (crn : BitVec 4) (rd : Reg) (cp : BitVec 4) (op2 : BitVec 3) (crm : BitVec 4) :
    Out.All State.Fields (moveFromCp crn rd cp op2 crm s) := by
  refine finish (hs.cpRead _ _ _ _) _ id fun v t h => ?_
  unfold writeFromCp
  split
  · exact h
  · exact h.writeReg rd v

theorem loadToCp (hs : s.Fields) (a : Addr) (rn : Reg) (crd cp : BitVec 4) :
    Out.All State.Fields (loadToCp a rn crd cp s) :=
  finish ((hs.readMem 4 _ _).bind fun v _ h => h.cpWrite cp crd 0 0 v) _ (fun h => h.apply a rn) fun _ _ h =>
    Out.all_next (h.apply a rn)

theorem storeFromCp (hs : s.Fields) (a : Addr) (rn : Reg) (crd cp : BitVec 4) :
    Out.All State.Fields (storeFromCp a rn crd cp s) := by
  refine finish ?_ _ (fun h => h.apply a rn) fun _ _ h => Out.all_next (h.apply a rn)
  exact (hs.checkStore 4 _ _).bind fun p _ h => (h.cpRead cp crd 0 0).bind fun v _ h => h.storeChecked 4 v p

/-! ## LDM (2) and LDM (3) -/

theorem loadUserBank (hs : s.Fields) (rs : List Reg) (start : Word) (rn : Reg) : Out.All State.Fields
    ((Machine.loadList modeUsr rs false start rn s).finish true id fun _ t => .next (t.advance t.isize)) := by
  refine finish (hs.loadList _ _ _ _ _) _ id fun v t h => ?_
  exact h

theorem loadAndReturn (hs : s.Fields) (rs : List Reg) (a : Addr) (rn : Reg) : Out.All State.Fields
    ((Machine.loadList s.mode rs true a.addr rn s).finish false (a.apply rn)
      fun v t => Machine.exceptionReturn v (a.apply rn t)) :=
  finish (hs.loadList _ _ _ _ _) _ (fun h => h.apply a rn) fun v _ h => (h.apply a rn).exceptionReturn v

theorem writeAcc (hs : s.Fields) (v : BitVec 40) : ({ s with acc0 := v }.advance s.isize : State).Fields := hs

theorem readAcc (hs : s.Fields) (hi lo : Reg) (v w : Word) :
    (((s.setReg hi v).setReg lo w).advance s.isize).Fields := (hs.setReg hi v).setReg lo w

/-! ## Branches -/

theorem execB (hs : s.Fields) (c : Cond) (imm : BitVec 24) : Out.All State.Fields (execB c imm s) :=
  hs.predictedBranch _ _ _

theorem execBl (hs : s.Fields) (c : Cond) (imm : BitVec 24) : Out.All State.Fields (execBl c imm s) :=
  ((hs.setReg 14 _).predictedBranch _ _ _).ite (hs.predictedBranch _ _ _) _

theorem execTB1 (hs : s.Fields) (c : Cond) (imm : BitVec 8) : Out.All State.Fields (execTB1 c imm s) :=
  hs.predictedBranch _ _ _

theorem execTB2 (hs : s.Fields) (imm : BitVec 11) : Out.All State.Fields (execTB2 imm s) := hs.predictedBranch _ _ _

theorem execBlx1 (hs : s.Fields) (h : Bool) (imm : BitVec 24) : Out.All State.Fields (execBlx1 h imm s) :=
  hs.noteBranch.setReg 14 (s.pc + 4)

theorem execTBlFirst (hs : s.Fields) (off : BitVec 11) : Out.All State.Fields (execTBlFirst off s) :=
  hs.setReg 14 (s.pc + 4 + (off.signExtend 32 <<< 12))

theorem execTBl (hs : s.Fields) (off : BitVec 11) : Out.All State.Fields (execTBl off s) :=
  hs.noteBranch.setReg 14 s.thumbLink

theorem execTBlx1 (hs : s.Fields) (off : BitVec 10) : Out.All State.Fields (execTBlx1 off s) :=
  hs.noteBranch.setReg 14 s.thumbLink

/-! ## Every instruction -/

theorem exec (hs : s.Fields) (i : Instr) : Out.All State.Fields (exec i s) :=
  match i with
  | .andShift c sb _ rd _ | .eorShift c sb _ rd _ | .subShift c sb _ rd _ | .rsbShift c sb _ rd _
  | .addShift c sb _ rd _ | .adcShift c sb _ rd _ | .sbcShift c sb _ rd _ | .rscShift c sb _ rd _
  | .orrShift c sb _ rd _ | .bicShift c sb _ rd _ | .andImm c sb _ rd _ | .eorImm c sb _ rd _
  | .subImm c sb _ rd _ | .rsbImm c sb _ rd _ | .addImm c sb _ rd _ | .adcImm c sb _ rd _ | .sbcImm c sb _ rd _
  | .rscImm c sb _ rd _ | .orrImm c sb _ rd _ | .bicImm c sb _ rd _ | .movShift c sb rd _ | .mvnShift c sb rd _
  | .movImm c sb rd _ | .mvnImm c sb rd _ => hs.armCond c (hs.writeAlu sb rd _)
  | .andRegShift c sb _ rd _ | .eorRegShift c sb _ rd _ | .subRegShift c sb _ rd _ | .rsbRegShift c sb _ rd _
  | .addRegShift c sb _ rd _ | .adcRegShift c sb _ rd _ | .sbcRegShift c sb _ rd _ | .rscRegShift c sb _ rd _
  | .orrRegShift c sb _ rd _ | .bicRegShift c sb _ rd _ | .movRegShift c sb rd _ | .mvnRegShift c sb rd _ =>
    hs.armCond c ((hs.writeAlu sb rd _).noR15 _)
  | .tstShift c .. | .teqShift c .. | .cmpShift c .. | .cmnShift c .. | .tstImm c .. | .teqImm c ..
  | .cmpImm c .. | .cmnImm c .. => hs.armCond c (hs.writeFlags _)
  | .tstRegShift c .. | .teqRegShift c .. | .cmpRegShift c .. | .cmnRegShift c .. =>
    hs.armCond c ((hs.writeFlags _).noR15 _)
  | .mul c sb rd .. | .mla c sb rd .. => hs.armCond c ((hs.writeProduct sb rd _).noR15 _)
  | .umull c sb hi lo .. | .umlal c sb hi lo .. | .smull c sb hi lo .. | .smlal c sb hi lo .. =>
    hs.armCond c ((twoDests (hs.writeLong sb hi lo _) _ _).noR15 _)
  | .smlalxy c hi lo .. => hs.armCond c ((twoDests (hs.writeLong false hi lo _) _ _).noR15 _)
  | .smlaxy c rd .. | .smlawy c rd .. | .qadd c _ rd _ | .qsub c _ rd _ | .qdadd c _ rd _ | .qdsub c _ rd _ =>
    hs.armCond c ((hs.writeSticky rd _ _).noR15 _)
  | .smulxy c rd .. | .smulwy c rd .. | .clz c rd _ => hs.armCond c ((hs.writeReg rd _).noR15 _)
  | .mia c _ acc _ | .miaph c _ acc _ | .miabb c _ acc _ | .miabt c _ acc _ | .miatb c _ acc _
  | .miatt c _ acc _ => hs.armCond c (hs.withAcc (hs.accumulate _) acc _)
  | .mar c _ _ sbz acc => hs.armCond c (hs.withAcc (sbzAcc (Out.all_next (hs.writeAcc _)) sbz) acc _)
  | .mra c hi lo sbz acc =>
    hs.armCond c (hs.withAcc (sbzAcc (twoDests (Out.all_next (hs.readAcc hi lo _ _)) _ _) sbz) acc _)
  | .mrs c r rd => hs.armCond c ((hs.mrs r rd).noR15 _)
  | .msrReg c r mask _ => hs.armCond c ((hs.msr r mask _).noR15 _)
  | .msrImm c r mask _ => hs.armCond c (hs.msr r mask _)
  | .undefMul c .. | .undefMisc c .. | .undefMsr c .. | .undefMedia c .. | .cdp c .. | .mcrr c .. | .mrrc c .. =>
    hs.armCond c hs.raiseUndef
  | .undefUncond _ | .tUndefMisc _ | .tUndefCond _ | .tUndefBlx _ => hs.raiseUndef
  | .swi c _ => hs.armCond c hs.raiseSwi
  | .tSwi _ => hs.raiseSwi
  | .bkpt c _ => hs.armCond c (hs.breakpoint.ite (Out.all_refused _ _) _)
  | .tBkpt _ => hs.breakpoint
  | .b c imm => hs.execB c imm
  | .bl c imm => hs.execBl c imm
  | .tB1 c imm => hs.execTB1 c imm
  | .tB2 imm => hs.execTB2 imm
  | .blx1 h imm => hs.execBlx1 h imm
  | .tBlFirst off => hs.execTBlFirst off
  | .tBl off => hs.execTBl off
  | .tBlx1 off => hs.execTBlx1 off
  | .bx c _ => hs.noteBranch.armCond c (hs.noteBranch.branchExchange _)
  | .blx2 c _ => hs.noteBranch.armCond c (((hs.noteBranch.setReg 14 _).branchExchange _).noR15 _)
  | .tBx _ => hs.noteBranch.branchExchange _
  | .tBlx2 _ => ((hs.noteBranch.setReg 14 _).branchExchange _).noR15 _
  | .ldrtImm c _ rn rd _ | .ldrtReg c _ rn rd _ =>
    hs.armCond c (((hs.loadWord false _ rn rd).unlessRefused _).noR15 _)
  | .ldrbtImm c _ rn rd _ | .ldrbtReg c _ rn rd _ =>
    hs.armCond c (((hs.loadSmall 1 false false _ rn rd).unlessRefused _).noR15 _)
  | .strtImm c _ rn .. | .strtReg c _ rn .. => hs.armCond c ((hs.store 4 _ false _ rn).unlessRefused _)
  | .strbtImm c _ rn .. | .strbtReg c _ rn .. => hs.armCond c (((hs.store 1 _ false _ rn).unlessRefused _).noR15 _)
  | .ldrImm c a rd _ | .ldrReg c a rd _ =>
    hs.armCond c ((((hs.loadWord _ _ a.rn rd).notInDebug s).ite (hs.loadWord _ _ a.rn rd) _).unlessRefused _)
  | .ldrbImm c a rd _ | .ldrbReg c a rd _ =>
    hs.armCond c (((hs.loadSmall 1 false _ _ a.rn rd).unlessRefused _).noR15 _)
  | .strImm c a .. | .strReg c a .. => hs.armCond c ((hs.store 4 _ _ _ a.rn).unlessRefused _)
  | .strbImm c a .. | .strbReg c a .. => hs.armCond c (((hs.store 1 _ _ _ a.rn).unlessRefused _).noR15 _)
  | .ldrhImm c a rd _ | .ldrhReg c a rd _ =>
    hs.armCond c (((hs.loadSmall 2 false _ _ a.rn rd).unlessRefused _).noR15 _)
  | .ldrshImm c a rd _ | .ldrshReg c a rd _ =>
    hs.armCond c (((hs.loadSmall 2 true _ _ a.rn rd).unlessRefused _).noR15 _)
  | .ldrsbImm c a rd _ | .ldrsbReg c a rd _ => hs.armCond c ((hs.loadSmall 1 true _ _ a.rn rd).unlessRefused _)
  | .strhImm c a .. | .strhReg c a .. => hs.armCond c (((hs.store 2 _ _ _ a.rn).unlessRefused _).noR15 _)
  | .ldrdImm c a rd _ => hs.armCond c (hs.doubleRegs ((hs.loadDouble _ a.rn rd).unlessRefused _) rd)
  | .ldrdReg c a rd _ =>
    hs.armCond c (hs.doubleRegs (((Out.all_refused _ _).ite (hs.loadDouble _ a.rn rd) _).unlessRefused _) rd)
  | .strdImm c a rd _ | .strdReg c a rd _ =>
    hs.armCond c (hs.doubleRegs ((hs.storeDouble _ a.rn rd).unlessRefused _) rd)
  | .ldm1 c a list =>
    hs.armCond c (((Out.all_refused _ _).ite ((hs.loadMultiple _ a.rn list).notInDebug s) _).unlessRefused _)
  | .ldm2 c a _ => hs.armCond c ((userBank ((hs.loadUserBank _ _ a.rn).notInDebug s) a s).unlessRefused _)
  | .ldm3 c a _ =>
    hs.armCond c (((Out.all_refused _ _).ite ((hs.loadAndReturn _ _ a.rn).notInDebug s) _).unlessRefused _)
  | .stm1 c a list => hs.armCond c ((hs.storeMultiple _ _ a.rn list).unlessRefused _)
  | .stm2 c a list => hs.armCond c ((userBank (hs.storeMultiple modeUsr _ a.rn list) a s).unlessRefused _)
  | .swp c rn rd rm => hs.armCond c (((hs.swap 4 rn rd rm).notInDebug s).unlessRefused _)
  | .swpb c rn rd rm => hs.armCond c (((hs.swap 1 rn rd rm).notInDebug s).unlessRefused _)
  | .pldImm .. => hs.preloadAt _
  | .pldReg .. => (hs.preloadAt _).noR15 _
  | .mcr c _ crn rd cp op2 crm => hs.armCond c (hs.cpChecked (hs.moveToCp crn rd cp op2 crm) _ cp crn)
  | .mrc c _ crn rd cp op2 crm => hs.armCond c (hs.cpChecked (hs.moveFromCp crn rd cp op2 crm) _ cp crn)
  | .ldc c a crd cp _ =>
    hs.armCond c (hs.cpChecked (((hs.loadToCp _ a.rn crd cp).notInDebug s).unlessRefused _) _ cp crd)
  | .stc c a crd cp _ =>
    hs.armCond c (hs.cpChecked (((hs.storeFromCp _ a.rn crd cp).notInDebug s).unlessRefused _) _ cp crd)
  | .tLsl1 _ _ rd | .tLsr1 _ _ rd | .tAsr1 _ _ rd | .tAdd3 _ _ rd | .tSub3 _ _ rd | .tAdd1 _ _ rd
  | .tSub1 _ _ rd | .tMov1 rd _ | .tAdd2 rd _ | .tSub2 rd _ | .tAnd _ rd | .tEor _ rd | .tLsl2 _ rd
  | .tLsr2 _ rd | .tAsr2 _ rd | .tAdc _ rd | .tSbc _ rd | .tRor _ rd | .tNeg _ rd | .tOrr _ rd | .tBic _ rd
  | .tMvn _ rd => hs.writeAlu true (lowReg rd) _
  | .tCmp1 .. | .tTst .. | .tCmp2 .. | .tCmn .. => hs.writeFlags _
  | .tMul _ rd => hs.writeProduct true (lowReg rd) _
  | .tAdd4 d m | .tMov3 d m => notBothLow (hs.writeSum d _) d m
  | .tCmp3 n m => notBothLow ((hs.writeFlags _).noR15 _) n m
  | .tAdd5 rd _ | .tAdd6 rd _ => hs.writeReg (lowReg rd) _
  | .tAdd7 _ | .tSub4 _ => hs.writeReg 13 _
  | .tLdr3 rd _ => hs.loadWord _ _ 15 (lowReg rd)
  | .tLdr2 _ rn rd | .tLdr1 _ rn rd => hs.loadWord _ _ (lowReg rn) (lowReg rd)
  | .tLdr4 rd _ => hs.loadWord _ _ 13 (lowReg rd)
  | .tLdrsb _ rn rd => hs.loadSmall 1 true _ _ (lowReg rn) (lowReg rd)
  | .tLdrsh _ rn rd => hs.loadSmall 2 true _ _ (lowReg rn) (lowReg rd)
  | .tLdrh2 _ rn rd | .tLdrh1 _ rn rd => hs.loadSmall 2 false _ _ (lowReg rn) (lowReg rd)
  | .tLdrb2 _ rn rd | .tLdrb1 _ rn rd => hs.loadSmall 1 false _ _ (lowReg rn) (lowReg rd)
  | .tStr2 _ rn _ | .tStr1 _ rn _ => hs.store 4 _ _ _ (lowReg rn)
  | .tStrh2 _ rn _ | .tStrh1 _ rn _ => hs.store 2 _ _ _ (lowReg rn)
  | .tStrb2 _ rn _ | .tStrb1 _ rn _ => hs.store 1 _ _ _ (lowReg rn)
  | .tStr3 .. => hs.store 4 _ _ _ 13
  | .tPush .. => (hs.storeMultiple _ _ 13 _).unlessRefused _
  | .tPop .. => ((hs.loadMultiple _ 13 _).notInDebug s).unlessRefused _
  | .tStmia rn _ => (hs.storeMultiple _ _ (lowReg rn) _).unlessRefused _
  | .tLdmia rn _ => ((hs.loadMultiple _ (lowReg rn) _).notInDebug s).unlessRefused _

end State.Fields
end Sys2Proof.Machine
end

section
/-!
PROOFS. No step sets a bit of a system register outside its table (O9): the end of a step, resets, scans and the other inputs,
then the step.
-/

namespace Sys2Proof.Machine
namespace State.Fields
variable {s : State}

/-! ## After an instruction or an exception entry -/

theorem pmuCount (hs : s.Fields) (executed : Bool) : (s.pmuCount executed).Fields := by
  have flag {w v : Word} (hw : Within 0x0FFFF779 w) (hv : v &&& ~~~(0x0FFFF779 : Word) = 0) (c : Bool) :
      Within 0x0FFFF779 (w ||| if c then v else 0) :=
    hw.or (Within.ite hv (show (0 : Word) &&& _ = 0 by simp) _)
  exact { hs with pmnc := flag (flag (flag hs.pmnc (by decide) _) (by decide) _) (by decide) _ }

theorem retire (hs : s.Fields) (s0 : State) (executed : Bool) : (s0.retire executed s).Fields := by
  have h1 : (if s0.traceOn && s.traceOn then s.traceStep else s).Fields := by split <;> exact hs
  unfold State.retire
  generalize (if s0.traceOn && s.traceOn then s.traceStep else s) = s1 at h1
  have h2 : (if s0.pmuOn && s1.pmuOn then s1.pmuCount executed else s1).Fields := by
    split
    · exact h1.pmuCount executed
    · exact h1
  dsimp only
  generalize (if s0.pmuOn && s1.pmuOn then s1.pmuCount executed else s1) = s2 at h2
  have h3 : s2.reportDataBreak.Fields := by
    unfold State.reportDataBreak
    split
    · exact h2.debugException _ _ _
    · exact h2
  exact h3

theorem hide13 (hs : s.Fields) (i : Instr) : (s.hide13 i).Fields := by
  obtain ⟨v, n, e⟩ := hide13_eq i s
  rw [e]
  exact hs

theorem retireInstr (hs : s.Fields) (s0 : State) (i : Instr) : (s0.retireInstr i s).Fields := by
  have h1 := hs.retire s0 true
  unfold State.retireInstr
  dsimp only
  split
  · exact h1.hide13 i
  · exact h1

/-! ## The instruction at the pc -/

theorem runDecoded (hs : s.Fields) (s0 : State) (i : Instr) : Out.All State.Fields (runDecoded s0 i s) := by
  have he := (hs.hide13 i).exec i
  unfold Machine.runDecoded
  split
  · rename_i t ht
    exact State.Fields.retireInstr (he.next ht) s0 i
  · trivial
  · trivial

theorem runInstr (hs : s.Fields) : Out.All State.Fields (runInstr s) := by
  have hf := hs.fetch
  unfold Machine.runInstr
  split
  · rename_i w s1 hw
    split
    · exact State.Fields.runDecoded (hf.ok hw) s _
    · trivial
  · rename_i f s1 hw
    have h1 : s1.Fields := hf.abort hw
    split
    · trivial
    · refine State.Fields.retire ?_ s false
      split
      · exact h1.recordFault f
      · exact h1.recordFault _
  · trivial
  · trivial

/-! ## The step of the core -/

theorem takePending (hs : s.Fields) (k : AbortKind) : (takePending k s).Fields := by
  have h0 : ({ s with pendingAbort := none } : State).Fields := hs
  unfold Machine.takePending
  split
  · exact (h0.recordFault _).setSticky
  · refine State.Fields.retire ?_ s false
    exact (h0.recordFault _).takeException .data _ false

theorem activeStep (hs : s.Fields) : Out.All State.Fields (activeStep s) := by
  unfold Machine.activeStep
  split
  · exact State.Fields.retire (hs.debugEntryHalt _ _) s false
  · split
    · exact hs.takePending _
    · refine Out.All.ite (Out.all_next ((hs.debugException _ _ _).retire s false)) ?_ _
      refine Out.All.ite (Out.all_next ((hs.takeException .fiq _ false).retire s false)) ?_ _
      refine Out.All.ite (Out.all_next ((hs.takeException .irq _ false).retire s false)) ?_ _
      exact Out.All.ite (Out.all_next ((hs.debugException _ _ _).retire s false)) hs.runInstr _

theorem coreStep (hs : s.Fields) : Out.All State.Fields (coreStep s) := by
  have h0 : ({ s with scratch := .empty } : State).Fields := hs
  unfold Machine.coreStep
  split
  · exact hs
  · split
    · exact hs
    · refine Out.all_next ?_
      split <;> exact hs
    · exact h0.activeStep

/-! ## Resets (70_reset R901) -/

theorem resetInstrCaches (hs : s.Fields) : s.resetInstrCaches.Fields := by
  unfold State.resetInstrCaches
  split <;> exact hs

/-- The clock configuration that a reset samples. -/
theorem sampledClock (pllcfg : Bool) : (if pllcfg then 4 else 1 : BitVec 4) ≠ 0
    ∧ (if pllcfg then 4 else 1 : BitVec 4).toNat < 10 := by
  cases pllcfg <;> decide

theorem reset : State.reset.Fields := (State.registersWf_iff _).1 (by decide)

theorem trst (hs : s.Fields) : s.trst.Fields := hs.withDcsr (hs.dcsr.and _)

theorem afterSleep (s : State) : s.afterSleep.Fields := reset

/-- DCSR alone of these registers has bits that a reset keeps, and PLLCFG selects the clock. -/
theorem assertReset (hs : s.Fields) (trst : Bool) : (s.assertReset trst).Fields := by
  have h0 : (if s.power.mode = .sleep then s.afterSleep else s).Fields := by
    split
    · exact afterSleep s
    · exact hs
  unfold State.assertReset
  generalize (if s.power.mode = .sleep then s.afterSleep else s) = s0 at h0
  have h1 : (if trst then s0.trst else s0).Fields := by
    split
    · exact h0.trst
    · exact h0
  dsimp only
  generalize (if trst then s0.trst else s0) = s1 at h1
  refine resetInstrCaches ?_
  exact { reset with clock := sampledClock _, dcsr := h1.dcsr.and _ }

theorem releaseReset (hs : s.Fields) : s.releaseReset.Fields := by
  unfold State.releaseReset
  split
  · exact { hs with clock := sampledClock _ }
  · exact hs

/-! ## The JTAG host (61_debug R762 to R768) -/

theorem scanSeldcsr (hs : s.Fields) (din : BitVec 36) : (s.scanSeldcsr din).Fields := by
  have h1 := hs.withDcsr (hs.dcsr.mergeMask (k := dcsrJtagMask) (by decide) (din.extractLsb' 3 32))
  unfold State.scanSeldcsr
  dsimp only
  split
  · exact resetInstrCaches (s := { s with dbg := _, jtag := _, inReset := _ }) h1
  · exact h1

theorem scanDbgrx (hs : s.Fields) (din : BitVec 36) : (s.scanDbgrx din).Fields := by
  have put {w : Word} (hw : Within 0xF0000000 w) {i : Nat} (hi : BitVec.twoPow 32 i &&& ~~~(0xF0000000 : Word) = 0)
      (b : Bool) : Within 0xF0000000 (setBit w i b) := hw.setBit hi b
  have h1 := put hs.txrxctrl (i := 29) (by decide) (din.getLsbD 2)
  have h2 := (put h1 (i := 31) (by decide) false).ite h1 (din.getLsbD 1 = true)
  unfold State.scanDbgrx
  dsimp only
  split
  · exact { hs with txrxctrl := put ((put h2 (i := 30) (by decide) true).ite h2 _) (by decide) true }
  · exact { hs with txrxctrl := h2 }

theorem scanDr (hs : s.Fields) (din : BitVec 36) : Out.All State.Fields (scanDr din s) := by
  have tx : (s.scanDbgtx din).Fields := hs.withTxrxctrl (hs.txrxctrl.setBit (by decide) false)
  unfold Machine.scanDr
  dsimp only
  repeat' with_reducible refine Out.All.ite ?_ ?_ _
  · exact hs.scanSeldcsr din
  · exact tx
  · exact hs.scanDbgrx din
  · exact hs
  · exact hs
  · trivial
  · exact hs

theorem loadIr (hs : s.Fields) (code : BitVec 5) : Out.All State.Fields (loadIr code s) := by
  have h1 : ({ s with jtag := { s.jtag with ir := code, out := 0b00001 } } : State).Fields := hs
  unfold Machine.loadIr
  dsimp only
  repeat' with_reducible refine Out.All.ite ?_ ?_ _
  · trivial
  · trivial
  · refine Out.all_next ?_
    split
    · exact h1.resetInstrCaches
    · exact h1

theorem ldicStore (hs : s.Fields) (f : LdicLoad) : (s.ldicStore f).Fields := by
  unfold State.ldicStore
  dsimp only
  split <;> exact hs

theorem ldicPacket (hs : s.Fields) (p : BitVec 33) (ok : Bool) : Out.All State.Fields (ldicPacket p ok s) := by
  have h1 : s.freeOut.Fields := hs
  unfold Machine.ldicPacket ldicFunction
  dsimp only
  repeat' split
  all_goals first | exact hs | exact h1.ldicStore _ | trivial

/-! ## Every step -/

theorem applyEvent (hs : s.Fields) (e : HostEvent) : Out.All State.Fields (applyEvent e s) := by
  have flush {t : State} (ht : t.Fields) (c : Bool) : Out.All State.Fields (.next (if c then t.resetInstrCaches else t)) := by
    cases c
    · exact ht
    · exact ht.resetInstrCaches
  have withdrawn {t : State} (ht : t.Fields) (c : Prop) [Decidable c] :
      Out.All State.Fields (if c then .refused .interruptWithdrawn else .next t) :=
    (Out.all_refused _ _).ite (Out.all_next ht) c
  cases e with
  | fiq on | irq on =>
    refine withdrawn ?_ _
    exact hs
  | reset trst => exact (hs.assertReset trst).releaseReset
  | resetAssert trst => exact hs.assertReset trst
  | resetRelease => exact hs.releaseReset
  | shortReset => trivial
  | trst => exact flush (t := { s.trst with inReset := s.resetPin }) hs.trst _
  | busWrite pa b => exact flush (t := s.otherWrite pa b) hs _
  | jtagIr code => exact hs.loadIr code
  | scanDr din => exact hs.scanDr din
  | ldic p ok => exact hs.ldicPacket p ok
  | upsetI mini | upsetD mini => cases mini <;> exact hs
  | tick | imprecise | abortRegions | between | cwf | eccError | pins => exact hs

theorem step (hs : s.Fields) : Out.All State.Fields (step s) := by
  have rest (l : List HostEvent) : ({ s with hostEvents := l } : State).Fields := hs
  unfold Machine.step stepCycle
  split
  · exact hs.coreStep
  · exact (rest _).coreStep
  · exact (rest _).applyEvent _

end State.Fields

/-- Settles O9: no write of a register, no exception, reset or scan sets a bit outside its table. -/
theorem stepKeepsRegisterFields : Obligations.StepKeepsRegisterFields := by
  unfold Obligations.StepKeepsRegisterFields
  intro s t hs ht
  rw [State.registersWf_iff] at hs ⊢
  exact hs.step.next ht

end Sys2Proof.Machine
end

section
/-!
PROOFS. The functions of CP15: how an MCR reaches one, then those of the TLBs and of the instruction cache (O41).
-/

namespace Sys2Proof.Machine

/-! ## An MCR to CP15 -/

section
variable {s t : State} {v : Word} {crn crm : BitVec 4} {op2 : BitVec 3}

/-- In a privileged mode an MCR to a register other than the debug ones is its write and the end of the instruction. -/
theorem exec_mcr15 {c : Cond} (hm : s.mode ≠ modeUsr) (hn : crn ≠ 14) (hc : condPassed c s.cpsr = true) (op1 : BitVec 3)
    (rd : Reg) : exec (.mcr c op1 crn rd 15 op2 crm) s
      = (writeCp15 crn crm op2 (s.reg rd) s).finish true id fun _ u => .next (u.advance u.isize) := by
  have denied : s.cpDenied 15 = false := by simpa [State.cpDenied, State.priv, modePriv] using hm
  have debug : isDebugRegister 15 crn = false := by
    have h14 : (crn == 14) = false := by simpa using hn
    rw [isDebugRegister, h14, Bool.and_false]
    rfl
  have traps : s.debugAccessTraps 15 crn = false := by rw [State.debugAccessTraps, debug, Bool.false_and, Bool.false_and]
  show armCond c s (cpChecked true 15 crn s (moveToCp crn rd 15 op2 crm s)) = _
  rw [armCond_pass hc, cpChecked, denied, traps]
  rfl

theorem cp15Function_of_ok (ht : s.thumb = false) (hm : s.mode ≠ modeUsr) (hn : crn ≠ 14)
    (h : writeCp15 crn crm op2 v s = .ok () t) : Cp15Function crn crm op2 v s t := by
  intro c op1 rd hc hr
  have same := (writeCp15_sameStatus (.refl s) crn crm op2 v).ok h
  have size : t.isize = 4 := isize_arm ((congrArg bitT same.cpsr).trans ht)
  rw [exec_mcr15 hm hn hc, hr, h, Acc.finish_ok, size, State.advance, same.pc]

theorem exec_mcr15_fault {c : Cond} (hm : s.mode ≠ modeUsr) (hn : crn ≠ 14) (hc : condPassed c s.cpsr = true)
    (op1 : BitVec 3) (rd : Reg) {f : Fault} (h : writeCp15 crn crm op2 (s.reg rd) s = .fault f) :
    exec (.mcr c op1 crn rd 15 op2 crm) s = .fault f := by
  rw [exec_mcr15 hm hn hc, h]
  rfl

end

/-! ## TLB entries (21_mmu R293 to R297) -/

section
variable (t : Tlb) (mva : Word)

theorem locked_mem_invalidate : ∀ e ∈ t.entries, e.locked = true → e ∈ t.invalidate.entries :=
  fun e he hl => List.mem_map.2 ⟨e, he, if_pos hl⟩

theorem locked_of_mem_invalidate : ∀ e ∈ t.invalidate.entries, e.valid = true → e.locked = true := by
  intro e he hv
  obtain ⟨k, -, rfl⟩ := List.mem_map.1 he
  split at hv
  · rename_i hl
    rw [if_pos hl, hl]
  · cases hv

theorem hits_of_mem_invalidateEntry : ∀ e ∈ (t.invalidateEntry mva).entries, e.hits mva = false := by
  intro e he
  obtain ⟨k, -, rfl⟩ := List.mem_map.1 he
  split
  · rfl
  · rename_i hk
    simpa using hk

theorem mem_invalidateEntry : ∀ e ∈ t.entries, e.hits mva = false → e ∈ (t.invalidateEntry mva).entries :=
  fun e he hh => List.mem_map.2 ⟨e, he, if_neg (by simp [hh])⟩

theorem mem_unlock : ∀ e ∈ t.entries, { e with locked := false } ∈ t.unlock.entries :=
  fun _ he => List.mem_map_of_mem he

theorem fillLocked_free {t : Tlb} (h : t.lock ≠ 31) (e : TlbEntry) :
    (t.fillLocked e).lock = t.lock + 1 ∧ (t.fillLocked e).rr = 31
      ∧ { e with index := t.lock, valid := true, locked := true } ∈ (t.fillLocked e).entries := by
  rw [Tlb.fillLocked, if_neg h]
  exact ⟨rfl, rfl, List.mem_cons_self⟩

theorem fillLocked_full {t : Tlb} (h : t.lock = 31) (e : TlbEntry) :
    (t.fillLocked e).lock = 31 ∧ (t.fillLocked e).rr = 31
      ∧ { e with index := 31, valid := true, locked := false } ∈ (t.fillLocked e).entries := by
  rw [Tlb.fillLocked, if_pos h]
  exact ⟨h, rfl, List.mem_cons_self⟩

end

/-! ## The TLB lock function (21_mmu R295, R299) -/

/-- The access check changes nothing. -/
theorem checkAccess_state (e : TlbEntry) (m : Word) (w p : Bool) (s : State) : (checkAccess e m w p s).All (· = s) :=
  Closed.checkAccess (P := (· = s)) rfl e m w p

/-- The TLB lock function of the MVA `v` ends in the Lock Abort (60_exceptions R713). -/
def LockAborts (v : Word) (s : State) (crm : BitVec 4) (f : DataFault) (t : State) : Prop := t.dbg.sds = false →
  ∀ (c : Cond) (op1 : BitVec 3) (rd : Reg), condPassed c s.cpsr = true → s.reg rd = v →
    exec (.mcr c op1 10 rd 15 0 crm) s = .next (takeDataAbort { f with code := .lock } true t)

section
variable {s t : State} {v : Word} {crm : BitVec 4} {instr : Bool}

theorem lockAborts_of_abort (hm : s.mode ≠ modeUsr) {f : DataFault}
    (h : writeCp15 10 crm 0 v s = .abort { f with code := .lock } t) : LockAborts v s crm f t := by
  intro sds c op1 rd hc hr
  rw [exec_mcr15 hm (by decide) hc, hr, h, Acc.finish_abort sds]

theorem translateAndLock_resident (hon : s.mmuOn = true) (h : ((s.tlb instr).entries.any fun k => k.hits v) = true) :
    translateAndLock instr v s = .ok () s := by
  rw [translateAndLock, hon, if_neg (by decide), if_pos h]

theorem translateAndLock_walks (hon : s.mmuOn = true) (h : ((s.tlb instr).entries.any fun k => k.hits v) = false) :
    translateAndLock instr v s = ((walk v s).bind fun e s1 => (checkAccess e v false s.priv s1).bind fun _ s2 =>
      .ok () (s2.setTlb instr ((s2.tlb instr).fillLocked e))).lockAbort := by
  rw [translateAndLock, hon, if_neg (by decide), h, if_neg (by decide)]

theorem translateAndLock_off (hoff : s.mmuOn = false) : translateAndLock instr v s = .fault .tlbLockMmuOff := by
  rw [translateAndLock, hoff]
  rfl

/-- What the lock function of either TLB does: nothing for a resident MVA; else the entry of the walk is locked, or an abort of
the walk or of the check is a Lock Abort. -/
theorem tlbLock_cases (ht : s.thumb = false) (hm : s.mode ≠ modeUsr) (hon : s.mmuOn = true)
    (hw : writeCp15 10 crm 0 v s = translateAndLock instr v s) :
    (((s.tlb instr).entries.any fun k => k.hits v) = true → Cp15Function 10 crm 0 v s s)
    ∧ (((s.tlb instr).entries.any fun k => k.hits v) = false →
      (∀ f t, walk v s = .abort f t → LockAborts v s crm f t)
      ∧ ∀ e t, walk v s = .ok e t →
        (∀ u, checkAccess e v false true t = .ok () u → u = t
          ∧ Cp15Function 10 crm 0 v s (t.setTlb instr ((t.tlb instr).fillLocked e)))
        ∧ ∀ f u, checkAccess e v false true t = .abort f u → u = t ∧ LockAborts v s crm f t) := by
  have priv : s.priv = true := by simpa [State.priv, modePriv] using hm
  refine ⟨fun hr => cp15Function_of_ok ht hm (by decide) (hw.trans (translateAndLock_resident hon hr)), fun hr => ?_⟩
  have walks := hw.trans (translateAndLock_walks hon hr)
  rw [priv] at walks
  refine ⟨fun f t h => lockAborts_of_abort hm ?_, fun e t h => ⟨fun u hu => ?_, fun f u hu => ?_⟩⟩
  · rw [walks, h]
    rfl
  · obtain rfl : u = t := (checkAccess_state e v false true t).ok hu
    refine ⟨rfl, cp15Function_of_ok ht hm (by decide) ?_⟩
    rw [walks, h, Acc.bind, hu]
    rfl
  · obtain rfl : u = t := (checkAccess_state e v false true t).abort hu
    refine ⟨rfl, lockAborts_of_abort hm ?_⟩
    rw [walks, h, Acc.bind, hu]
    rfl

end

/-! ## Cache lines (21_mmu R305, R306, R308) -/

section
variable (c : Cache) (mva : Word)

theorem locked_of_mem_invalidateUnlocked : ∀ l ∈ c.invalidateUnlocked.lines, l.valid = true → l.locked = true := by
  intro l hl hv
  obtain ⟨k, -, rfl⟩ := List.mem_map.1 hl
  split at hv
  · rename_i hk
    rw [if_pos hk, hk]
  · cases hv

theorem locked_mem_invalidateUnlocked : ∀ l ∈ c.lines, l.locked = true → l ∈ c.invalidateUnlocked.lines :=
  fun l hl hk => List.mem_map.2 ⟨l, hl, if_pos hk⟩

theorem hits_of_mem_invalidateLine : ∀ l ∈ (c.invalidateLine mva).lines, l.hits mva = false := by
  intro l hl
  obtain ⟨k, -, rfl⟩ := List.mem_map.1 hl
  split
  · rfl
  · rename_i hk
    simpa using hk

theorem mem_invalidateLine : ∀ l ∈ c.lines, l.hits mva = false → l ∈ (c.invalidateLine mva).lines :=
  fun l hl hh => List.mem_map.2 ⟨l, hl, if_neg (by simp [hh])⟩

/-- The line found is one of the cache's, and it holds the address. -/
theorem mem_of_find {c : Cache} {mva : Word} {l : CacheLine} (h : c.find mva = some l) : l ∈ c.lines ∧ l.hits mva = true :=
  ⟨List.mem_of_find?_eq_some h, List.find?_some (p := (CacheLine.hits · mva)) h⟩

/-- Of the lines of an address the one placed last is found. -/
theorem find_put {mva : Word} {l : CacheLine} (h : l.hits mva = true) : (c.put l).find mva = some l :=
  List.find?_cons_of_pos h

end

/-- A line made for an address holds it. -/
theorem hits_of_tag {l : CacheLine} {mva : Word} (hv : l.valid = true) (hs : l.set = setOf mva) (ht : l.tag = tagOf mva) :
    l.hits mva = true := by
  simp [CacheLine.hits, hv, hs, ht]

/-- The data caches' lines keep their dirty bits when they are invalidated. -/
theorem noDirtyLine_invalidateDCache {s : State} (h : s.noDirtyLine = true) : s.invalidateDCache.noDirtyLine = true := by
  have keep (c : Cache) (hc : (c.lines.all fun l => !l.dirtyLo && !l.dirtyHi) = true) :
      (c.invalidateUnlocked.lines.all fun l => !l.dirtyLo && !l.dirtyHi) = true := by
    rw [List.all_eq_true] at hc ⊢
    intro l hl
    obtain ⟨k, hk, rfl⟩ := List.mem_map.1 hl
    have := hc k hk
    split <;> exact this
  simp only [State.noDirtyLine, Bool.and_eq_true] at h ⊢
  exact ⟨keep _ h.1, keep _ h.2⟩

/-- After the instruction cache is invalidated, no code counts as changed (20_memory R246). -/
theorem codeChanged_invalidateICache {s : State} (h : s.noDirtyLine = true) (a : Word) (n : Nat) :
    s.invalidateICache.codeChanged a n = false :=
  codeChanged_of_synced (s := s.invalidateICache) rfl rfl h a n

/-- No line can be locked in a disabled cache (R110). -/
theorem fetchAndLockI_off {s : State} (h : s.icacheOn = false) (v : Word) :
    fetchAndLockI v s = .fault .icacheLockMisused := by
  rw [fetchAndLockI, State.icacheLockAllowed, h]
  rfl

/-- A line that the lock function brings in is at the next lockable way, or at the last one (R307). -/
theorem victimLock_cases (c : Cache) (set : BitVec 5) :
    (c.victimLock set).locked = true ∨ (c.victimLock set).way = 31 := by
  unfold Cache.victimLock
  dsimp only
  split
  · exact .inl rfl
  · exact .inr rfl

/-- A sequence answers when both its parts do. -/
theorem Acc.bind_ok {α β : Type} {x : Acc α} {k : α → State → Acc β} {v : β} {t : State} (h : x.bind k = .ok v t) :
    ∃ a u, x = .ok a u ∧ k a u = .ok v t := by
  cases x with
  | ok a u => exact ⟨a, u, rfl, h⟩
  | abort f u => cases h
  | fault e => cases h
  | refused e => cases h

theorem fetchAndLockI_ok {s t : State} {v : Word} (h : fetchAndLockI v s = .ok () t) :
    ∃ l, t.icache.find (v &&& 0xFFFFFFE0) = some l ∧ l.valid = true ∧ (l.locked = true ∨ l.way = 31) := by
  unfold fetchAndLockI at h
  dsimp only at h
  split at h
  · cases h
  · split at h
    · split at h
      · cases h
      · obtain ⟨r, u, -, hk⟩ := Acc.bind_ok h
        split at hk
        · cases hk
        · cases hk
          exact ⟨_, find_put _ (hits_of_tag rfl rfl rfl), rfl, victimLock_cases _ _⟩
    · cases h
    · cases h
    · cases h

/-- Invalidating a line keeps those of other addresses. -/
theorem invalidateILine_spec (s : State) (v : Word) :
    (∀ l ∈ (s.invalidateILine v).minic.lines, l.hits v = false)
    ∧ ((∀ l ∈ s.icache.lines, l.locked = false) → ∀ l ∈ (s.invalidateILine v).icache.lines, l.hits v = false)
    ∧ ∀ l ∈ s.icache.lines, l.hits v = false → l ∈ (s.invalidateILine v).icache.lines := by
  have all := hits_of_mem_invalidateLine s.icache v
  refine ⟨hits_of_mem_invalidateLine s.minic v, fun hu => ?_, fun l hl hh => ?_⟩
  · unfold State.invalidateILine
    cases hf : s.icache.find v with
    | none => exact all
    | some l =>
      dsimp only
      rw [hu l (mem_of_find hf).1]
      exact all
  · have either (p : Prop) [Decidable p] : l ∈ (if p then s.icache else s.icache.invalidateLine v).lines := by
      split
      · exact hl
      · exact mem_invalidateLine _ _ l hl hh
    exact either _

/-- Settles O41: which MCR makes which function, by `cp15Function_of_ok`; what each does, by the lemmas above. -/
theorem tlbAndInstructionCacheFunctions : Obligations.TlbAndInstructionCacheFunctions := by
  unfold Obligations.TlbAndInstructionCacheFunctions
  refine ⟨fun t mva e => ⟨locked_mem_invalidate t, locked_of_mem_invalidate t, hits_of_mem_invalidateEntry t mva,
    mem_invalidateEntry t mva, mem_unlock t, rfl, fun h => fillLocked_free h e, fun h => fillLocked_full h e⟩,
    fun v s ht hm => ?_⟩
  intro Fn Stops
  have fn {crn crm op2} {t : State} (hn : crn ≠ 14) (h : writeCp15 crn crm op2 v s = .ok () t) : Fn crn crm op2 t :=
    cp15Function_of_ok ht hm hn h
  have stops {crn crm op2} {f : Fault} (hn : crn ≠ 14) (h : ∀ w, writeCp15 crn crm op2 w s = .fault f) :
      Stops crn crm op2 f := fun c op1 rd hc => exec_mcr15_fault hm hn hc op1 rd (h _)
  refine ⟨⟨fn (by decide) rfl, fn (by decide) rfl, fn (by decide) rfl, fn (by decide) rfl, fn (by decide) rfl⟩,
    fun hon => ⟨fn (by decide) ?_, fn (by decide) ?_, ?_⟩, fun hoff => ⟨?_, ?_, ?_, ?_⟩, ?_, ?_, fn (by decide) rfl,
    fun t h => ⟨fn (by decide) h, fetchAndLockI_ok h⟩, fun hon => ⟨s.unlockICache, fn (by decide) ?_, rfl⟩,
    fun hoff => ⟨?_, ?_⟩⟩
  · exact if_pos hon
  · exact if_pos hon
  · exact ⟨tlbLock_cases (instr := true) ht hm hon rfl, tlbLock_cases (instr := false) ht hm hon rfl⟩
  · exact stops (by decide) fun w => translateAndLock_off hoff
  · exact stops (by decide) fun w => if_neg (by simp [hoff])
  · exact stops (by decide) fun w => translateAndLock_off hoff
  · exact stops (by decide) fun w => if_neg (by simp [hoff])
  · intro Emptied
    have emptied {t : State} (hi : t.icache = s.icache.invalidateUnlocked) (hc : t.minic = s.minic) (hb : t.btb = [])
        (hmem : t.mem = s.mem) (changed : s.noDirtyLine = true → ∀ (a : Word) (n : Nat), t.codeChanged a n = false) :
        Emptied t :=
      ⟨hi ▸ locked_of_mem_invalidateUnlocked _, hi ▸ locked_mem_invalidateUnlocked _, hc, hb, hmem, changed⟩
    refine ⟨⟨s.invalidateICache, fn (by decide) rfl, emptied rfl rfl rfl rfl codeChanged_invalidateICache, rfl⟩,
      s.invalidateICache.invalidateDCache, fn (by decide) rfl, emptied rfl rfl rfl rfl fun hd => ?_,
      locked_of_mem_invalidateUnlocked _, locked_of_mem_invalidateUnlocked _⟩
    exact codeChanged_of_synced (s := s.invalidateICache.invalidateDCache) rfl rfl (noDirtyLine_invalidateDCache hd)
  · exact ⟨_, fn (by decide) rfl, invalidateILine_spec s v⟩
  · exact if_pos hon
  · exact stops (by decide) (fetchAndLockI_off hoff)
  · exact stops (by decide) fun w => if_neg (by simp [hoff])

end Sys2Proof.Machine
end

section
/-!
PROOFS. The system registers read after a write, and the debugger's scans (O53).
-/

namespace Sys2Proof.Machine

/-! ## Words under masks -/

section
variable (v w : Word) {k m n : Word}

theorem and_and_mask (h : k &&& m = n) : v &&& k &&& m = v &&& n := by rw [BitVec.and_assoc, h]

theorem and_all_ones : v &&& 0xFFFFFFFF = v := BitVec.and_allOnes

theorem or_and_mask : (v ||| w) &&& m = (v &&& m) ||| (w &&& m) := by
  rw [BitVec.and_comm, BitVec.and_or_distrib_left, BitVec.and_comm m, BitVec.and_comm m]

/-- A mask may be taken before the bits that a write of ones clears. -/
theorem clear_and_mask (h : k &&& m = n) : v &&& k &&& ~~~w &&& m = v &&& n &&& ~~~w := by
  rw [BitVec.and_assoc _ (~~~w), BitVec.and_comm (~~~w), ← BitVec.and_assoc, and_and_mask v h]

theorem mergeMask_and (h : ~~~k &&& m = n) (hk : k &&& m = k) : mergeMask w k v &&& m = (v &&& k) ||| (w &&& n) := by
  rw [mergeMask, or_and_mask, and_and_mask w h, and_and_mask v hk, BitVec.or_comm]

end

/-- The low four bits as a field and as a word. -/
theorem setWidth_lowNibble (v : Word) : (v.extractLsb' 0 4).setWidth 32 = v &&& 0xF := by
  refine BitVec.eq_of_toNat_eq ?_
  rw [BitVec.toNat_and, BitVec.toNat_setWidth, BitVec.extractLsb'_toNat]
  refine Eq.trans ?_ (Nat.and_two_pow_sub_one_eq_mod v.toNat 4).symm
  simp only [Nat.shiftRight_zero]
  omega

/-! ## A register read after a write -/

/-- The write leaves the registers, the CPSR and memory, and a read after it answers `want` in the bits of `mask`. -/
def ReadsBack (v : Word) (s : State) (cp crn crm : BitVec 4) (op2 : BitVec 3) (mask want : Word) : Prop :=
  ∃ t, cpWrite cp crn crm op2 v s = .ok () t ∧ t.regs = s.regs ∧ t.cpsr = s.cpsr ∧ t.mem = s.mem
    ∧ ∃ x u, cpRead cp crn crm op2 t = .ok x u ∧ x &&& mask = want

/-- The write changed system registers only. -/
structure WroteSystem (s t : State) : Prop where
  regs : t.regs = s.regs
  cpsr : t.cpsr = s.cpsr
  mem : t.mem = s.mem

section
variable {v w mask want free : Word} {s t u : State} {cp crn crm : BitVec 4} {op2 : BitVec 3}

theorem readsBack (hw : cpWrite cp crn crm op2 v s = .ok () t) (kept : WroteSystem s t)
    (hr : cpRead cp crn crm op2 t = .ok w u) (hx : w &&& mask = want) : ReadsBack v s cp crn crm op2 mask want :=
  ⟨t, hw, kept.regs, kept.cpsr, kept.mem, w, u, hr, hx⟩

theorem readsBack_all (hw : cpWrite cp crn crm op2 v s = .ok () t) (kept : WroteSystem s t)
    (hr : cpRead cp crn crm op2 t = .ok w u) : ReadsBack v s cp crn crm op2 0xFFFFFFFF w :=
  readsBack hw kept hr (and_all_ones w)

/-- The bits that read as free values lie outside the mask. -/
theorem readsBack_free (hw : cpWrite cp crn crm op2 v s = .ok () t) (kept : WroteSystem s t)
    (hr : cpRead cp crn crm op2 t = freeBits w free t) (hf : free &&& mask = 0) (hx : w &&& mask = want) :
    ReadsBack v s cp crn crm op2 mask want := by
  refine readsBack hw kept hr ?_
  rw [or_and_mask, hx, and_and_mask _ hf]
  exact (congrArg (want ||| ·) BitVec.and_zero).trans BitVec.or_zero

end

/-! ## CP15 (11_state R82 to R130) -/

section
variable (v : Word) (s : State)

theorem id_readsBack : ReadsBack v s 15 0 0 0 0xFFFFFFF0 0x69052000 := by
  refine readsBack rfl ⟨rfl, rfl, rfl⟩ rfl ?_
  unfold idRegister
  generalize Config.stepping = st
  cases st <;> decide

theorem control_readsBack : ReadsBack v s 15 1 0 0 0x00003FFF ((v &&& 0x00003B87) ||| 0x78) := by
  refine readsBack_free (t := s.writeControl v) rfl ⟨rfl, rfl, rfl⟩ rfl (by decide) ?_
  refine (or_and_mask _ _).trans ?_
  rw [and_and_mask v (show controlMask &&& 0x3FFF = 0x3B87 by decide)]
  rfl

theorem auxControl_readsBack (h : s.minid.lines = []) : ReadsBack v s 15 1 0 1 0x00000033 (v &&& 0x33) := by
  have hw : cpWrite 15 1 0 1 v s = .ok () { s with cp15 := { s.cp15 with auxControl := v &&& 0x33 } } := by
    show writeAuxControl v s = _
    rw [writeAuxControl, h, List.any_nil, Bool.and_false]
    rfl
  exact readsBack_free hw ⟨rfl, rfl, rfl⟩ rfl (by decide) (and_and_mask v (by decide))

/-- A breakpoint register that may be written reads back; an instruction breakpoint may be enabled under GE only. -/
theorem breakpoints_readBack (hl : s.debugLocked = false) (hg : v.getLsbD 0 = true → s.ge = true) :
    ReadsBack v s 15 14 8 0 0xFFFFFFFF v ∧ ReadsBack v s 15 14 9 0 0xFFFFFFFF v := by
  have enable : (v.getLsbD 0 && !s.ge) = false := by
    cases hv : v.getLsbD 0
    · rfl
    · rw [hg hv]
      rfl
  have write (second : Bool) : writeIbcr second v s
      = .ok () { s with cp15 := if second then { s.cp15 with ibcr1 := v } else { s.cp15 with ibcr0 := v } } := by
    rw [writeIbcr, enable]
    cases second <;> rfl
  have unlocked {k : Acc Unit} : (if s.debugLocked then .ok () s else k) = k := if_neg (by simp [hl])
  exact ⟨readsBack_all (unlocked.trans (write false)) ⟨rfl, rfl, rfl⟩ rfl,
    readsBack_all (unlocked.trans (write true)) ⟨rfl, rfl, rfl⟩ rfl⟩

/-- Bit 0 alone, as the lock register keeps it. -/
theorem bit0_word : (if v.getLsbD 0 then 1 else 0 : Word) &&& 1 = v &&& 1 := by
  refine BitVec.eq_of_getLsbD_eq fun i _ => ?_
  cases i with
  | zero => cases h : v.getLsbD 0 <;> simp [h, - BitVec.getLsbD_eq_getElem]
  | succ i => simp

theorem dataBreakpoints_readBack (hl : s.debugLocked = false) : ReadsBack v s 15 14 0 0 0xFFFFFFFF v
    ∧ ReadsBack v s 15 14 3 0 0xFFFFFFFF v ∧ ReadsBack v s 15 14 4 0 0xFFFFFFFF (v &&& 0x10F) := by
  have unlocked {k : Acc Unit} : (if s.debugLocked then .ok () s else k) = k := if_neg (by simp [hl])
  exact ⟨readsBack_all unlocked ⟨rfl, rfl, rfl⟩ rfl, readsBack_all unlocked ⟨rfl, rfl, rfl⟩ rfl,
    readsBack_all unlocked ⟨rfl, rfl, rfl⟩ rfl⟩

theorem cpar_readsBack (h : v &&& 0x1FFE = 0) : ReadsBack v s 15 15 1 0 0x0000FFFF (v &&& 0x2001) :=
  have hw : cpWrite 15 15 1 0 v s = .ok () { s with cp15 := { s.cp15 with cpar := v &&& 0x2001 } } := by
    show writeCpar v s = _
    rw [writeCpar, h]
    rfl
  readsBack_free hw ⟨rfl, rfl, rfl⟩ rfl (by decide) (and_and_mask v (by decide))

/-! ## CP14 (12_state R140 to R157) -/

/-- The register takes the software bits; that E starts the trace counts anew does not concern it. -/
theorem dcsr_readsBack (hl : s.debugLocked = false) :
    ReadsBack v s 14 10 0 0 0xC0DF003F ((v &&& 0x8000003F) ||| (s.dbg.dcsr &&& 0x40DF0000)) := by
  have written : WroteSystem s (s.writeDcsr v) ∧ (s.writeDcsr v).dbg.dcsr = mergeMask s.dbg.dcsr dcsrSoftMask v := by
    rw [State.writeDcsr, if_neg (by simp [hl])]
    dsimp only
    split <;> exact ⟨⟨rfl, rfl, rfl⟩, rfl⟩
  obtain ⟨kept, hd⟩ := written
  exact readsBack_free rfl kept rfl (by decide)
    ((congrArg (· &&& _) hd).trans (mergeMask_and v _ (by decide) (by decide)))

theorem pmnc_readsBack :
    ReadsBack v s 14 0 0 0 0x0FFFF779 ((v &&& 0x0FFFF079) ||| (s.pmu.pmnc &&& 0x700 &&& ~~~v &&& 0x700)) := by
  refine readsBack_free (t := s.writePmnc v) rfl ⟨rfl, rfl, rfl⟩ rfl (by decide) ?_
  refine (or_and_mask _ _).trans ?_
  rw [and_and_mask v (show (0x0FFFF079 &&& 0x0FFFF779 : Word) = 0x0FFFF079 by decide),
    clear_and_mask _ v (show (0x700 &&& 0x0FFFF779 : Word) = 0x700 by decide),
    clear_and_mask _ v (show (0x700 &&& 0x700 : Word) = 0x700 by decide)]

theorem cclkcfg_readsBack (h0 : 0 < (v &&& 0xF).toNat) (h9 : (v &&& 0xF).toNat < 10) :
    ReadsBack v s 14 6 0 0 0x0000000F (v &&& 0xF) := by
  have hf : (v.extractLsb' 0 4).toNat = (v &&& 0xF).toNat := by
    rw [← setWidth_lowNibble, BitVec.toNat_setWidth_of_le (by decide)]
  have legal : ¬(v.extractLsb' 0 4 = 0 ∨ 10 ≤ (v.extractLsb' 0 4).toNat) := by
    rintro (h | h)
    · rw [← hf, h] at h0
      exact absurd h0 (by decide)
    · omega
  refine readsBack_free (if_neg legal) ⟨rfl, rfl, rfl⟩ rfl (by decide) ?_
  exact (congrArg (· &&& _) (setWidth_lowNibble v)).trans (and_and_mask v (by decide))

/-- Every mode but the reserved one is entered, and the register reads zero. -/
theorem pwrmode_readsBack (h : v &&& 3 ≠ 2) : ReadsBack v s 14 7 0 0 0x00000003 0 := by
  have legal : v.extractLsb' 0 2 ≠ 2 := by
    intro h2
    refine h (BitVec.eq_of_toNat_eq ?_)
    have hn : v.toNat % 4 = 2 := by simpa [BitVec.extractLsb'_toNat] using congrArg BitVec.toNat h2
    rw [BitVec.toNat_and]
    exact (Nat.and_two_pow_sub_one_eq_mod v.toNat 2).trans hn
  have written : ∃ t, writePwrmode v s = .ok () t ∧ WroteSystem s t := by
    unfold writePwrmode
    dsimp only
    rw [if_neg legal]
    split
    · exact ⟨s, rfl, rfl, rfl, rfl⟩
    split <;> exact ⟨_, rfl, rfl, rfl, rfl⟩
  obtain ⟨t, ht, kept⟩ := written
  exact readsBack_free ht kept rfl (by decide) (by decide)

/-- A write of TX is dropped while TR is set, and on an A-step also while RR is. -/
theorem tx_dropped (h : (s.tr || (Config.stepping.isA && s.rr)) = true) :
    cpWrite 14 8 0 0 v s = .ok () s ∧ ReadsBack v s 14 8 0 0 0xFFFFFFFF s.dbg.tx := by
  have hw : cpWrite 14 8 0 0 v s = .ok () s := congrArg (Acc.ok ()) (if_pos h)
  exact ⟨hw, readsBack_all hw ⟨rfl, rfl, rfl⟩ rfl⟩

theorem tx_taken (h : (s.tr || (Config.stepping.isA && s.rr)) = false) : ReadsBack v s 14 8 0 0 0xFFFFFFFF v
    ∧ ∃ t, cpWrite 14 8 0 0 v s = .ok () t ∧ t.dbg.txrxctrl = s.dbg.txrxctrl ||| 0x10000000 := by
  have hw := congrArg (Acc.ok ()) (if_neg (Bool.eq_false_iff.mp h) : s.writeTx v = _)
  exact ⟨readsBack_all hw ⟨rfl, rfl, rfl⟩ rfl, _, hw, rfl⟩

/-- A write of RX is ignored, a read of it clears RR. -/
theorem rx_readsBack : ReadsBack v s 14 9 0 0 0xFFFFFFFF s.dbg.rx :=
  readsBack_all (t := s) rfl ⟨rfl, rfl, rfl⟩ rfl

theorem txrxctrl_readsBack :
    ReadsBack v s 14 14 0 0 0xFFFFFFFF ((s.dbg.txrxctrl &&& 0xBFFFFFFF) ||| (v &&& 0x40000000)) :=
  readsBack_all rfl ⟨rfl, rfl, rfl⟩ rfl

theorem tbreg_read (h : s.traceOn = false) : ∃ t, cpRead 14 11 0 0 s = .ok ((s.trace.bytes.headD 0).setWidth 32) t
    ∧ t.trace.bytes = s.trace.bytes.drop 1 ++ [0] :=
  ⟨_, (if_neg (by simp [h]) : readTbreg s = _), rfl⟩

theorem checkpoints_readBack (h : s.traceOn = false) :
    ReadsBack v s 14 12 0 0 0xFFFFFFFF v ∧ ReadsBack v s 14 13 0 0 0xFFFFFFFF v := by
  have idle {A : Type} {k : Acc A} : (if s.traceOn then .fault .traceBusy else k) = k := if_neg (by simp [h])
  exact ⟨readsBack_all idle ⟨rfl, rfl, rfl⟩ idle, readsBack_all idle ⟨rfl, rfl, rfl⟩ idle⟩

/-! ## CP13 (12_state R158 to R175) -/

theorem intsrc_readsBack : ReadsBack v s 13 4 0 0 0xF0000000 (BitVec.ofBool s.icu.fiqPin ++ BitVec.ofBool s.icu.irqPin
    ++ BitVec.ofBool s.bcuRequest ++ BitVec.ofBool s.pmuRequest ++ 0#28) := by
  refine readsBack_free (t := s) rfl ⟨rfl, rfl, rfl⟩ rfl (by decide) ?_
  unfold State.intsrc
  generalize BitVec.ofBool s.icu.fiqPin ++ BitVec.ofBool s.icu.irqPin ++ BitVec.ofBool s.bcuRequest
    ++ BitVec.ofBool s.pmuRequest = pins
  revert pins
  decide

/-- The log flags are cleared by ones; correction and reporting may change only while ECC is off. -/
theorem bcuctl_readsBack (h : s.bcu.bcuctl.getLsbD 3 = false ∨ (v ^^^ s.bcu.bcuctl) &&& 5 = 0) :
    ReadsBack v s 13 0 1 0 0xF000000D ((s.bcu.bcuctl &&& 0x70000000 &&& ~~~v) ||| (v &&& 0xD)) := by
  have legal : ¬(s.bcu.bcuctl.getLsbD 3 && !((v ^^^ s.bcu.bcuctl) &&& 0x5 == 0)) = true := by
    rcases h with h | h
    · rw [h, Bool.false_and]
      exact Bool.false_ne_true
    · rw [h]
      simp
  refine readsBack_free (if_neg legal) ⟨rfl, rfl, rfl⟩ rfl (by decide) ?_
  refine (or_and_mask _ _).trans ?_
  rw [clear_and_mask _ v (show (0x70000000 &&& 0xF000000D : Word) = 0x70000000 by decide),
    and_and_mask v (show (0xD &&& 0xF000000D : Word) = 0xD by decide)]

/-- The double-write test bit is written too where the stepping has it, outside the byte that a read answers. -/
theorem ectst_readsBack (he : s.bcu.bcuctl.getLsbD 3 = false) (hw : s.bcu.dweWritten = false) :
    ReadsBack v s 13 8 1 0 0x000000FF (v &&& 0xFF) := by
  have byte : mergeMask s.bcu.ectst 0xFF v &&& 0xFF = v &&& 0xFF :=
    (mergeMask_and v _ (n := 0) (by decide) (by decide)).trans
      ((congrArg (_ ||| ·) BitVec.and_zero).trans BitVec.or_zero)
  have written : ∃ t, writeEctst v s = .ok () t ∧ WroteSystem s t ∧ t.bcu.ectst &&& 0xFF = v &&& 0xFF := by
    unfold writeEctst
    rw [he, hw]
    dsimp only
    split
    · exact ⟨_, rfl, ⟨rfl, rfl, rfl⟩, byte⟩
    · refine ⟨_, rfl, ⟨rfl, rfl, rfl⟩, Eq.trans ?_ byte⟩
      refine BitVec.eq_of_getLsbD_eq fun i _ => ?_
      rw [BitVec.getLsbD_and, BitVec.getLsbD_and]
      by_cases hi : i = 31
      · subst hi
        rw [show (0xFF : Word).getLsbD 31 = false by decide, Bool.and_false, Bool.and_false]
      · rw [getLsbD_setBit_of_ne _ hi]
  obtain ⟨t, ht, kept, hb⟩ := written
  refine readsBack_free ht kept rfl (by decide) ?_
  rw [hb]
  exact and_and_mask v (by decide)

end

/-! ## The scans (61_debug R762 to R768) -/

/-- Bit 0 of a capture is the status flag. -/
theorem captured_flag {n : Nat} (a : BitVec n) (f : Bool) : (a ++ BitVec.ofBool f).getLsbD 0 = f := by
  rw [BitVec.getLsbD_append, if_pos (by decide)]
  cases f <;> rfl

/-- While internal reset lasts, a scan may invalidate the instruction caches, and nothing else. -/
theorem resetInstrCaches_eq (b : Bool) (s : State) : ∃ main mini synced overwritten,
    (if b then s.resetInstrCaches else s)
      = { s with icache := main, minic := mini, synced := synced, overwritten := overwritten } := by
  unfold State.resetInstrCaches
  split
  · split <;> exact ⟨_, _, _, _, rfl⟩
  · exact ⟨_, _, _, _, rfl⟩

/-- What a SELDCSR scan captures. -/
def State.capturedDcsr (s : State) : BitVec 36 :=
  s.fresh.extractLsb' 0 1 ++ (s.dbg.dcsr ||| (s.fresh2 &&& dcsrReserved)) ++ 0#1 ++ 1#1 ++ s.fresh.extractLsb' 1 1

/-- A SELDCSR scan before internal reset invalidates the instruction caches. -/
def State.scannedDcsr (s : State) (din : BitVec 36) : State :=
  let u := s.latchDr din s.capturedDcsr
  { u with
    dbg := { u.dbg with dcsr := mergeMask s.dbg.dcsr dcsrJtagMask (din.extractLsb' 3 32)
                        extBreak := s.dbg.extBreak || (din.getLsbD 2 && s.ge) }
    jtag := { u.jtag with holdRst := din.getLsbD 1 }
    inReset := s.inReset && (s.resetPin || din.getLsbD 1) }

section
variable (din : BitVec 36) (s : State)

theorem scanSeldcsr_eq : ∃ main mini synced overwritten, s.scanSeldcsr din
    = { (s.scannedDcsr din).draw 2 with
        icache := main, minic := mini, synced := synced, overwritten := overwritten } := by
  obtain ⟨main, mini, synced, overwritten, h⟩ := resetInstrCaches_eq s.inReset (s.scannedDcsr din)
  exact ⟨main, mini, synced, overwritten, congrArg (State.draw · 2) h⟩

theorem capturedDcsr_image : s.capturedDcsr.extractLsb' 3 32 = s.dbg.dcsr ||| (s.fresh2 &&& dcsrReserved) :=
  calc s.capturedDcsr.extractLsb' 3 32
    _ = _ := BitVec.extractLsb'_append_eq_of_le (by decide)
    _ = _ := BitVec.extractLsb'_append_eq_of_le (by decide)
    _ = _ := BitVec.extractLsb'_append_eq_of_le (by decide)
    _ = _ := BitVec.extractLsb'_append_eq_right

theorem capturedDcsr_marks : s.capturedDcsr.extractLsb' 1 2 = 0b01 := by
  unfold State.capturedDcsr
  rw [BitVec.extractLsb'_append_eq_of_le (by decide)]
  refine BitVec.eq_of_getLsbD_eq fun i hi => ?_
  simp only [BitVec.getLsbD_extractLsb', BitVec.getLsbD_append]
  interval_cases i <;> rfl

/-- A scan leaves the core: its registers, status, pc and memory; the image is latched. -/
structure ScanKeeps (t : State) : Prop where
  regs : t.regs = s.regs
  cpsr : t.cpsr = s.cpsr
  pc : t.pc = s.pc
  mem : t.mem = s.mem
  data : t.jtag.data = din.extractLsb' 3 32

/-- The conclusion of every scan: one next state, the core kept, and `p` of it. -/
def Scans (p : State → Prop) : Prop := ∃ t, applyEvent (.scanDr din) s = .next t ∧ t.regs = s.regs ∧ t.cpsr = s.cpsr
  ∧ t.pc = s.pc ∧ t.mem = s.mem ∧ t.jtag.data = din.extractLsb' 3 32 ∧ p t

variable {din s} {t : State} {p : State → Prop}

theorem scans (h : applyEvent (.scanDr din) s = .next t) (kept : ScanKeeps din s t) (hp : p t) : Scans din s p :=
  ⟨t, h, kept.regs, kept.cpsr, kept.pc, kept.mem, kept.data, hp⟩

theorem scanDr_seldcsr (h : s.jtag.ir = irSeldcsr) : applyEvent (.scanDr din) s = .next (s.scanSeldcsr din) :=
  if_pos h

theorem scanDr_dbgtx (h : s.jtag.ir = irDbgtx) : applyEvent (.scanDr din) s = .next (s.scanDbgtx din) := by
  show scanDr din s = _
  unfold scanDr
  rw [h]
  rfl

theorem scanDr_dbgrx (h : s.jtag.ir = irDbgrx) : applyEvent (.scanDr din) s = .next (s.scanDbgrx din) := by
  show scanDr din s = _
  unfold scanDr
  rw [h]
  rfl

theorem scans_seldcsr (h : s.jtag.ir = irSeldcsr) : Scans din s fun t =>
    t.jtag.out.extractLsb' 3 32 &&& 0xC0DF003F = s.dbg.dcsr &&& 0xC0DF003F ∧ t.jtag.out.extractLsb' 1 2 = 0b01
    ∧ t.dbg.dcsr = (s.dbg.dcsr &&& 0xBF20FFFF) ||| (din.extractLsb' 3 32 &&& 0x40DF0000)
    ∧ t.jtag.holdRst = din.getLsbD 1 ∧ t.dbg.extBreak = (s.dbg.extBreak || (din.getLsbD 2 && s.ge))
    ∧ t.inReset = (s.inReset && (s.resetPin || din.getLsbD 1))
    ∧ t.dbg.tx = s.dbg.tx ∧ t.dbg.rx = s.dbg.rx ∧ t.dbg.txrxctrl = s.dbg.txrxctrl := by
  obtain ⟨main, mini, synced, overwritten, hs⟩ := scanSeldcsr_eq din s
  have image : s.capturedDcsr.extractLsb' 3 32 &&& 0xC0DF003F = s.dbg.dcsr &&& 0xC0DF003F := by
    rw [capturedDcsr_image, or_and_mask, and_and_mask _ (show dcsrReserved &&& 0xC0DF003F = 0#32 by decide),
      BitVec.and_zero, BitVec.or_zero]
  exact scans ((scanDr_seldcsr h).trans (congrArg Host.Outcome.next hs)) ⟨rfl, rfl, rfl, rfl, rfl⟩
    ⟨image, capturedDcsr_marks s, rfl, rfl, rfl, rfl, rfl, rfl, rfl⟩

theorem scans_dbgtx (h : s.jtag.ir = irDbgtx) : Scans din s fun t =>
    t.jtag.out.extractLsb' 3 32 = s.dbg.tx ∧ t.jtag.out.getLsbD 0 = s.dbg.txrxctrl.getLsbD 28
    ∧ t.dbg = { s.dbg with txrxctrl := s.dbg.txrxctrl &&& 0xEFFFFFFF } :=
  have image : (s.scanDbgtx din).jtag.out.extractLsb' 3 32 = s.dbg.tx :=
    calc (s.scanDbgtx din).jtag.out.extractLsb' 3 32
      _ = _ := BitVec.extractLsb'_append_eq_of_le (by decide)
      _ = _ := BitVec.extractLsb'_append_eq_of_le (by decide)
      _ = _ := BitVec.extractLsb'_append_eq_right
  scans (scanDr_dbgtx h) ⟨rfl, rfl, rfl, rfl, rfl⟩ ⟨image, captured_flag _ s.tr, rfl⟩

/-- TXRXCTRL after a DBGRX scan: D, then flush, then the valid write with its overflow flag. -/
def rxControl (c : Word) (valid d flush : Bool) : Word :=
  let c1 := setBit c 29 d
  let c2 := if flush then setBit c1 31 false else c1
  if valid then setBit (if c2.getLsbD 31 then setBit c2 30 true else c2) 31 true else c2

theorem dbg_scanDbgrx : (s.scanDbgrx din).dbg = { s.dbg with
    rx := if din.getLsbD 35 then din.extractLsb' 3 32 else s.dbg.rx
    txrxctrl := rxControl s.dbg.txrxctrl (din.getLsbD 35) (din.getLsbD 2) (din.getLsbD 1) } := by
  unfold State.scanDbgrx rxControl
  cases din.getLsbD 35 <;> rfl

/-- The flags after D and flush. -/
theorem rxControl_flushed (c : Word) (d flush : Bool) : let e := rxControl c false d flush
    e.getLsbD 31 = (c.getLsbD 31 && !flush) ∧ e.getLsbD 30 = c.getLsbD 30 ∧ e.getLsbD 29 = d
    ∧ e.getLsbD 28 = c.getLsbD 28 := by
  have kept {j : Nat} (h : j ≠ 29) : (setBit c 29 d).getLsbD j = c.getLsbD j := getLsbD_setBit_of_ne c h d
  have set : (setBit c 29 d).getLsbD 29 = d := getLsbD_setBit_self c (by decide) d
  cases flush with
  | false =>
    exact ⟨(kept (by decide)).trans (Bool.and_true _).symm, kept (by decide), set, kept (by decide)⟩
  | true =>
    have other {j : Nat} (h : j ≠ 31) : (rxControl c false d true).getLsbD j = (setBit c 29 d).getLsbD j :=
      getLsbD_setBit_of_ne _ h false
    exact ⟨(getLsbD_setBit_self _ (by decide) false).trans (Bool.and_false _).symm,
      (other (by decide)).trans (kept (by decide)), (other (by decide)).trans set,
      (other (by decide)).trans (kept (by decide))⟩

/-- A valid write sets RR, and the overflow flag if RR stood after the flush. -/
theorem rxControl_bits (c : Word) (valid d flush : Bool) : let e := rxControl c valid d flush
    e.getLsbD 31 = (valid || (c.getLsbD 31 && !flush)) ∧ e.getLsbD 30 = (c.getLsbD 30 || (valid && c.getLsbD 31 && !flush))
    ∧ e.getLsbD 29 = d ∧ e.getLsbD 28 = c.getLsbD 28 := by
  obtain ⟨h31, h30, h29, h28⟩ := rxControl_flushed c d flush
  cases valid with
  | false => exact ⟨h31, h30.trans (Bool.or_false _).symm, h29, h28⟩
  | true =>
    have unfolded : rxControl c true d flush = setBit (if (rxControl c false d flush).getLsbD 31
      then setBit (rxControl c false d flush) 30 true else rxControl c false d flush) 31 true := rfl
    rw [h31] at unfolded
    generalize rxControl c false d flush = e at *
    have ne31 {j : Nat} (w : Word) (h : j ≠ 31) : (setBit w 31 true).getLsbD j = w.getLsbD j := getLsbD_setBit_of_ne w h true
    have ne30 {j : Nat} (h : j ≠ 30) : (setBit e 30 true).getLsbD j = e.getLsbD j := getLsbD_setBit_of_ne e h true
    have set : (setBit e 30 true).getLsbD 30 = true := getLsbD_setBit_self e (by decide) true
    rw [unfolded]
    refine ⟨getLsbD_setBit_self _ (by decide) true, ?_⟩
    rw [ne31 _ (by decide), ne31 _ (by decide), ne31 _ (by decide), Bool.true_and]
    cases c.getLsbD 31 && !flush with
    | false => exact ⟨h30.trans (Bool.or_false _).symm, h29, h28⟩
    | true => exact ⟨set.trans (Bool.or_true _).symm, (ne30 (by decide)).trans h29, (ne30 (by decide)).trans h28⟩

theorem scans_dbgrx (h : s.jtag.ir = irDbgrx) : Scans din s fun t => t.jtag.out.getLsbD 0 = s.dbg.txrxctrl.getLsbD 31
    ∧ t.dbg.rx = (if din.getLsbD 35 then din.extractLsb' 3 32 else s.dbg.rx)
    ∧ t.dbg.txrxctrl.getLsbD 31 = (din.getLsbD 35 || (s.dbg.txrxctrl.getLsbD 31 && !din.getLsbD 1))
    ∧ t.dbg.txrxctrl.getLsbD 30
        = (s.dbg.txrxctrl.getLsbD 30 || (din.getLsbD 35 && s.dbg.txrxctrl.getLsbD 31 && !din.getLsbD 1))
    ∧ t.dbg.txrxctrl.getLsbD 29 = din.getLsbD 2 ∧ t.dbg.txrxctrl.getLsbD 28 = s.dbg.txrxctrl.getLsbD 28
    ∧ t.dbg.tx = s.dbg.tx ∧ t.dbg.dcsr = s.dbg.dcsr := by
  refine scans (scanDr_dbgrx h) ⟨rfl, rfl, rfl, rfl, rfl⟩ ⟨captured_flag _ s.rr, ?_⟩
  rw [dbg_scanDbgrx]
  obtain ⟨h31, h30, h29, h28⟩ := rxControl_bits s.dbg.txrxctrl (din.getLsbD 35) (din.getLsbD 2) (din.getLsbD 1)
  exact ⟨rfl, h31, h30, h29, h28, rfl, rfl⟩

end

/-! ## The obligation -/

/-- Settles O53: each register by its lemma, then the three scans. -/
theorem systemRegistersAndScans : Obligations.SystemRegistersAndScans := by
  refine ⟨fun v s => ?_, fun din s => ⟨scans_seldcsr, scans_dbgtx, scans_dbgrx⟩⟩
  have and {k m : Word} (h : k &&& m = k) : v &&& k &&& m = v &&& k := and_and_mask v h
  refine ⟨id_readsBack v s, readsBack_all (t := s) rfl ⟨rfl, rfl, rfl⟩ rfl, control_readsBack v s, auxControl_readsBack v s,
    readsBack_free rfl ⟨rfl, rfl, rfl⟩ rfl (by decide) (and (by decide)), readsBack_all rfl ⟨rfl, rfl, rfl⟩ rfl,
    readsBack_free rfl ⟨rfl, rfl, rfl⟩ rfl (by decide) (and (by decide)), readsBack_all rfl ⟨rfl, rfl, rfl⟩ rfl,
    readsBack_free rfl ⟨rfl, rfl, rfl⟩ rfl (by decide) (bit0_word v), readsBack_all rfl ⟨rfl, rfl, rfl⟩ rfl,
    breakpoints_readBack v s, ?_⟩
  refine ⟨fun hl => ?_, cpar_readsBack v s, pmnc_readsBack v s, ⟨_, rfl, rfl, rfl, rfl⟩,
    readsBack_all rfl ⟨rfl, rfl, rfl⟩ rfl, readsBack_all rfl ⟨rfl, rfl, rfl⟩ rfl, readsBack_all rfl ⟨rfl, rfl, rfl⟩ rfl,
    cclkcfg_readsBack v s, pwrmode_readsBack v s, fun (htr : s.tr = true) => ?_,
    fun (htr : s.tr = false) (hrr : s.rr = false) => ?_, fun (htr : s.tr = false) (hrr : s.rr = true) => ?_, ?_⟩
  · obtain ⟨h0, h3, h4⟩ := dataBreakpoints_readBack v s hl
    exact ⟨h0, h3, h4, dcsr_readsBack v s hl⟩
  · exact (tx_dropped v s (by simp [htr])).2
  · exact tx_taken v s (by simp [htr, hrr])
  · cases hA : Config.stepping.isA with
    | true =>
      obtain ⟨hw, hr⟩ := tx_dropped v s (by simp [hA, hrr])
      exact ⟨hr, s, hw, rfl⟩
    | false => exact tx_taken v s (by simp [htr, hA])
  refine ⟨rx_readsBack v s, ⟨_, rfl, rfl⟩, txrxctrl_readsBack v s, rfl, tbreg_read s, checkpoints_readBack v s,
    readsBack_free rfl ⟨rfl, rfl, rfl⟩ rfl (by decide) (and (by decide)),
    readsBack_free rfl ⟨rfl, rfl, rfl⟩ rfl (by decide) (and (by decide)),
    readsBack_free rfl ⟨rfl, rfl, rfl⟩ rfl (by decide) (and (by decide)), intsrc_readsBack v s, bcuctl_readsBack v s,
    readsBack_free (t := s) rfl ⟨rfl, rfl, rfl⟩ rfl (by decide) rfl,
    readsBack_free (t := s) rfl ⟨rfl, rfl, rfl⟩ rfl (by decide) rfl,
    readsBack_all (t := s) rfl ⟨rfl, rfl, rfl⟩ rfl, readsBack_all (t := s) rfl ⟨rfl, rfl, rfl⟩ rfl, ectst_readsBack v s⟩

end Sys2Proof.Machine
end

section
/-!
PROOFS. The data cache: what a plain bus request changes, what a line holds, hits, misses, evictions, and the functions of
CP15 (O42).
-/

namespace Sys2Proof.Machine

/-! ## What a plain bus request keeps -/

/-- The caches, the configuration and the regions that abort are kept; memory stays well formed, and where no other master was
to write none is to write now. -/
structure Keeps (s t : State) : Prop where
  cp15 : t.cp15 = s.cp15
  bcu : t.bcu = s.bcu
  dcache : t.dcache = s.dcache
  minid : t.minid = s.minid
  regions : t.board.abortRegions = s.board.abortRegions
  memOk : s.MemOk → t.MemOk
  quiet : ∀ a, s.othersMayWrite a = false → t.othersMayWrite a = false

/-- Memory as it was but for `bs` at `pa`, wherever no other master was to write. -/
def Lands (s t : State) (pa : Word) (bs : List Byte) : Prop := ∀ a : Word, s.othersMayWrite a = false →
  let d := (a - pa).toNat
  t.byteAt a = if d < bs.length then bs.getD d 0 else s.byteAt a

section
variable {s t u : State} {pa : Word} {bs : List Byte}

theorem Keeps.refl (s : State) : Keeps s s := ⟨rfl, rfl, rfl, rfl, rfl, id, fun _ => id⟩

theorem Keeps.trans (h : Keeps s t) (k : Keeps t u) : Keeps s u :=
  ⟨k.cp15.trans h.cp15, k.bcu.trans h.bcu, k.dcache.trans h.dcache, k.minid.trans h.minid, k.regions.trans h.regions,
    k.memOk ∘ h.memOk, fun a => k.quiet a ∘ h.quiet a⟩

theorem keeps_scratch (s : State) (z : Scratch) : Keeps s { s with scratch := z } :=
  ⟨rfl, rfl, rfl, rfl, rfl, id, fun _ => id⟩

theorem Keeps.dataCache (h : Keeps s t) (mini : Bool) : t.dataCache mini = s.dataCache mini := by
  cases mini with
  | false => exact h.dcache
  | true => exact h.minid

theorem othersMayWrite_eq_false {a : Word} :
    s.othersMayWrite a = false ↔ ∀ ws ∈ s.board.between, ∀ w ∈ ws, w.1 ≠ a := by
  simp only [State.othersMayWrite, List.any_eq_false, Bool.not_eq_true, beq_eq_false_iff_ne]

theorem othersMayWrite_of_none (h : s.board.between = []) (a : Word) : s.othersMayWrite a = false := by
  simp [State.othersMayWrite, h]

/-- A write that the lock holds off was to come before. -/
theorem mem_postpone {held ws : List (Word × Byte)} {rest : List (List (Word × Byte))} {w : Word × Byte}
    (hw : ws ∈ postpone held rest) (hm : w ∈ ws) : w ∈ held ∨ ∃ l ∈ rest, w ∈ l := by
  unfold postpone at hw
  split at hw
  · exact .inr ⟨ws, hw, hm⟩
  · rcases List.mem_cons.1 hw with rfl | hw
    · rcases List.mem_append.1 hm with hm | hm
      · exact .inl hm
      · cases rest with
        | nil => cases hm
        | cons l rest => exact .inr ⟨l, List.mem_cons_self, hm⟩
    · exact .inr ⟨ws, List.mem_of_mem_tail hw, hm⟩

theorem board_otherWrites (ws : List (Word × Byte)) (t : State) :
    (ws.foldl (fun t w => t.otherWrite w.1 w.2) t).board = t.board := by
  induction ws generalizing t with
  | nil => rfl
  | cons w ws ih => exact ih (t.otherWrite w.1 w.2)

theorem othersMayWrite_othersWrite {a : Word} (h : s.othersMayWrite a = false) : s.othersWrite.othersMayWrite a = false := by
  unfold State.othersWrite
  split
  · exact h
  · rename_i ws rest hb
    rw [othersMayWrite_eq_false, hb] at h
    rw [othersMayWrite_eq_false, board_otherWrites]
    intro l hl w hw
    rcases mem_postpone hl hw with hm | ⟨k, hk, hm⟩
    · exact h ws List.mem_cons_self w (List.mem_filter.1 hm).1
    · exact h k (List.mem_cons_of_mem _ hk) w hm

theorem keeps_othersWrite (s : State) : Keeps s s.othersWrite := by
  have quiet : ∀ a, s.othersMayWrite a = false → s.othersWrite.othersMayWrite a = false :=
    fun a => othersMayWrite_othersWrite
  have ok : s.MemOk → s.othersWrite.MemOk := closed_memOk.othersWrite
  obtain ⟨m, o, b, e⟩ := othersWrite_eq s
  rw [e] at quiet ok ⊢
  exact ⟨rfl, rfl, rfl, rfl, rfl, ok, quiet⟩

theorem setBytesAt_eq (bs : List Byte) (s : State) (pa : Word) : ∃ m, s.setBytesAt pa bs = { s with mem := m } := by
  induction bs generalizing s pa with
  | nil => exact ⟨_, rfl⟩
  | cons b bs ih =>
    obtain ⟨m, e⟩ := ih (s.setByteAt pa b) (pa + 1)
    exact ⟨m, e⟩

theorem keeps_setBytesAt (s : State) (pa : Word) (bs : List Byte) : Keeps s (s.setBytesAt pa bs) := by
  have ok : s.MemOk → (s.setBytesAt pa bs).MemOk := fun h => closed_memOk.setBytesAt bs h pa
  obtain ⟨m, e⟩ := setBytesAt_eq bs s pa
  rw [e] at ok ⊢
  exact ⟨rfl, rfl, rfl, rfl, rfl, ok, fun _ => id⟩

theorem clearZeroBlocks_eq (ks : List Nat) (s : State) :
    ∃ e, State.clearZeroBlocks ks s = { s with board := { s.board with ecc := e } } := by
  induction ks generalizing s with
  | nil => exact ⟨_, rfl⟩
  | cons k ks ih =>
    unfold State.clearZeroBlocks
    split
    · exact ih (s.setEcc k .good)
    · exact ih s

/-- Bytes stored, read at any address. -/
theorem byteAt_setBytesAt (h : s.MemOk) (pa : Word) (hl : bs.length ≤ 32) (a : Word) :
    (s.setBytesAt pa bs).byteAt a = if (a - pa).toNat < bs.length then bs.getD (a - pa).toNat 0 else s.byteAt a := by
  split
  · rename_i hd
    have at_ : pa + BitVec.ofNat 32 (a - pa).toNat = a := by
      rw [BitVec.ofNat_toNat, BitVec.setWidth_eq]
      bv_omega
    have self := byteAt_setBytesAt_self bs h pa _ hd (by omega)
    rw [at_] at self
    rw [self, List.getD_eq_getElem _ _ hd]
  · rename_i hd
    exact byteAt_setBytesAt_other bs h pa a (by omega)

/-! ## Plain requests -/

/-- Without regions that abort, every byte is taken. -/
theorem takenBytes_all (h : s.board.abortRegions = []) (w : Bool) (pa : Word) (n : Nat) :
    ∀ fuel k, n ≤ k + fuel → s.takenBytes w pa n fuel k = n := by
  intro fuel
  induction fuel with
  | zero => intro k hk; exact Nat.min_eq_right hk
  | succ fuel ih =>
    intro k hk
    have noAbort (a : Word) (m : Nat) : s.busAborts w a m = false := by simp [State.busAborts, h]
    unfold State.takenBytes
    dsimp only
    rw [noAbort]
    split
    · rfl
    · rw [if_neg Bool.false_ne_true]
      refine ih _ ?_
      split <;> omega

/-- The address of the word that holds a byte. -/
theorem toNat_wordAddress (pa : Word) : (pa &&& 0xFFFFFFFC).toNat = pa.toNat / 4 * 4 := by
  have e : pa &&& (0xFFFFFFFC : Word) = (pa >>> 2) <<< 2 := by
    rw [BitVec.shiftLeft_ushiftRight]
    rfl
  rw [e, BitVec.toNat_shiftLeft, BitVec.toNat_ushiftRight, Nat.shiftRight_eq_div_pow, Nat.shiftLeft_eq]
  omega

/-- The bytes lie within the span the request is made with. -/
theorem writeSpan_covers (u : Bool) (pa : Word) (n : Nat) :
    n ≤ (writeSpan u pa n).2 - (pa.toNat - (writeSpan u pa n).1.toNat) := by
  cases u with
  | false =>
    show n ≤ n - (pa.toNat - pa.toNat)
    omega
  | true =>
    have low := toNat_wordAddress pa
    show n ≤ (pa.toNat % 4 + n + 3) / 4 * 4 - (pa.toNat - (pa &&& 0xFFFFFFFC).toNat)
    omega

/-- A write request without ECC and without an abort stores its bytes. -/
theorem busWrite_lands (u : Bool) (pa : Word) {p : Bool} (hp : (p && s.bcu.bcuctl.getLsbD 3) = false)
    (hr : s.board.abortRegions = []) (hm : s.MemOk) (hl : bs.length ≤ 32) :
    ∃ t, busWrite u pa bs p s = .ok () t ∧ Keeps s t ∧ Lands s t pa bs := by
  have kept : Keeps s (s.othersWrite.note 0x10) := (keeps_othersWrite s).trans (keeps_scratch _ _)
  have before (a : Word) (ha : s.othersMayWrite a = false) : (s.othersWrite.note 0x10).byteAt a = s.byteAt a :=
    byteAt_othersWrite hm ha
  unfold busWrite
  generalize s.othersWrite.note 0x10 = v at kept before
  have ecc : v.eccOn p = false := by
    rw [State.eccOn, kept.bcu, hp, Bool.false_and]
  have taken (w : Bool) (a : Word) (n : Nat) : v.takenBytes w a n n 0 = n :=
    takenBytes_all (kept.regions.trans hr) w a n n 0 (by omega)
  have all : min bs.length ((writeSpan u pa bs.length).2 - (pa.toNat - (writeSpan u pa bs.length).1.toNat)) = bs.length :=
    Nat.min_eq_left (writeSpan_covers u pa bs.length)
  have lands : Lands s (v.setBytesAt pa bs) pa bs := by
    intro a ha
    rw [byteAt_setBytesAt (kept.memOk hm) pa hl, before a ha]
  dsimp only
  rw [ecc, Bool.false_and, Bool.false_and, Bool.false_and, if_neg Bool.false_ne_true, if_neg Bool.false_ne_true, taken,
    all, List.take_length, if_neg (Nat.lt_irrefl _)]
  refine ⟨_, rfl, ?_⟩
  split
  · rename_i h0
    rw [List.length_eq_zero_iff.1 h0] at lands ⊢
    exact ⟨kept, lands⟩
  · obtain ⟨e, he⟩ := clearZeroBlocks_eq (blocksOf pa bs.length) (v.setBytesAt pa bs)
    have eccStored : (v.setBytesAt pa bs).eccOn p = false := by
      rw [State.eccOn, (keeps_setBytesAt v pa bs).bcu, kept.bcu, hp, Bool.false_and]
    rw [State.writeCheckBits, eccStored, if_neg Bool.false_ne_true, he]
    exact ⟨(kept.trans (keeps_setBytesAt v pa bs)).trans ⟨rfl, rfl, rfl, rfl, rfl, id, fun _ => id⟩, lands⟩

/-- A read request without ECC and without an abort delivers memory's bytes, when no other master is to write before it. -/
theorem busRead_plain (pa req : Word) (n : Nat) {p : Bool} (hp : (p && s.bcu.bcuctl.getLsbD 3) = false)
    (hr : s.board.abortRegions = []) (hb : s.board.between = []) :
    ∃ z, busRead pa req n p s = .ok (.data (s.bytesAt pa n)) { s with scratch := z } := by
  obtain ⟨z, hz⟩ := assertLock_eq s
  have ecc : (s.assertLock.note 0x10).eccOn p = false := by
    rw [hz]
    show (p && s.bcu.bcuctl.getLsbD 3 && s.mmuOn) = false
    rw [hp, Bool.false_and]
  have noAbort : (s.assertLock.note 0x10).busAborts false pa n = false := by
    rw [hz]
    show (s.board.abortRegions.any fun r => r.reads && r.meets pa n) = false
    rw [hr, List.any_nil]
  unfold busRead
  rw [othersWrite_of_none hb]
  dsimp only
  rw [ecc, noAbort, Bool.false_and, if_neg Bool.false_ne_true, if_neg Bool.false_ne_true, if_neg Bool.false_ne_true,
    State.readBytes, ecc, if_neg Bool.false_ne_true, hz, bytesAt_eq_map, bytesAt_eq_map]
  exact ⟨_, rfl⟩

end

/-! ## The bytes of a line -/

section
variable (d : Vector Byte 32) (off n : Nat) (bs : List Byte)

theorem toList_lineOfBytes {bs : List Byte} (h : bs.length = 32) : (lineOfBytes bs).toList = bs := by
  refine List.ext_getElem (by simp [h]) fun i h1 h2 => ?_
  simp [lineOfBytes, h2]

theorem length_lineBytes : (lineBytes d off n).length = n := by simp [lineBytes]

theorem lineBytes_eq (h : off + n ≤ 32) : lineBytes d off n = (d.toList.drop off).take n := by
  refine List.ext_getElem ?_ fun i h1 h2 => ?_
  · simp [lineBytes]
    omega
  · have hi : off + i < 32 := by
      rw [length_lineBytes] at h1
      omega
    simp [lineBytes, Vector.getD, hi]

theorem toList_lineStore (h : off + bs.length ≤ 32) :
    (lineStore d off bs).toList = d.toList.take off ++ bs ++ d.toList.drop (off + bs.length) := by
  refine List.ext_getElem ?_ fun i h1 h2 => ?_
  · simp
    omega
  · have hi : i < 32 := by simpa using h1
    have left : (lineStore d off bs).toList[i] = if off ≤ i ∧ i < off + bs.length then bs.getD (i - off) 0 else d[i] := by
      simp [lineStore, Vector.getD, hi]
    have first : (d.toList.take off).length = off := by simp; omega
    refine left.trans ?_
    split <;> rename_i inside
    · rw [List.getElem_append_left (by simp; omega), List.getElem_append_right (by omega),
        List.getD_eq_getElem _ _ (by omega)]
      simp only [first]
    · by_cases lo : i < off
      · rw [List.getElem_append_left (by simp; omega), List.getElem_append_left (by omega)]
        simp
      · rw [List.getElem_append_right (by simp; omega)]
        simp [show min off 32 = off by omega, show off + bs.length + (i - (off + bs.length)) = i by omega]

/-- The bytes of a line, one at a time. -/
theorem getD_lineBytes {i : Nat} (h : i < n) : (lineBytes d off n).getD i 0 = d.getD (off + i) 0 := by
  rw [List.getD_eq_getElem _ _ (by rwa [length_lineBytes])]
  simp [lineBytes]

/-- Bytes stored in a line read back. -/
theorem lineBytes_lineStore (h : off + bs.length ≤ 32) : lineBytes (lineStore d off bs) off bs.length = bs := by
  have hd : (d.toList.take off).length = off := by simp; omega
  rw [lineBytes_eq _ _ _ h, toList_lineStore d off bs h, List.append_assoc, List.drop_left' hd, List.take_left' rfl]

end

/-- Storing over bytes of wrong parity mends them. -/
theorem bad_store (l : CacheLine) (mva : Word) (bs : List Byte) (dirty : Bool) :
    (l.store mva bs dirty).bad &&& byteMask (offsetOf mva) bs.length = 0 := by
  show l.bad &&& ~~~_ &&& _ = 0
  rw [BitVec.and_assoc, BitVec.not_and_self]
  exact BitVec.and_zero

/-! ## Hits (21_mmu R312, R314) -/

section
variable {s : State} {x : Xlat} {mva : Word} {l : CacheLine}

theorem noteAccess_eq (s : State) (x : Xlat) : ∃ z, s.noteAccess x = { s with scratch := z } := by
  unfold State.noteAccess
  split <;> exact ⟨_, rfl⟩

theorem findData_dcache (h : s.dcache.find mva = some l) : s.findData mva = some (false, l) := by
  rw [State.findData, h]

/-- A load that hits good bytes delivers them. -/
theorem dataRead_hit (ha : attributeFault x s = none) (hf : s.dcache.find mva = some l) {n : Nat}
    (hb : l.bad &&& byteMask (offsetOf mva) n = 0) :
    ∃ u, dataRead x mva n s = .ok (lineBytes l.data (offsetOf mva) n) u := by
  obtain ⟨z, hz⟩ := noteAccess_eq s x
  have found : ({ s with scratch := z } : State).findData mva = some (false, l) := findData_dcache hf
  unfold dataRead
  rw [ha]
  dsimp only
  rw [hz, found]
  exact ⟨_, if_pos hb⟩

/-- A store that hits changes the line, and in a write-through region goes to memory too. -/
theorem dataWrite_hit (ha : attributeFault x s = none) (hf : s.dcache.find mva = some l) (bs : List Byte) :
    ∃ z o, let u : State := { s with scratch := z, overwritten := o,
                                     dcache := s.dcache.put (l.store mva bs !s.writeThrough x) }
      dataWrite x mva bs s = if s.writeThrough x then busWrite x.buffered x.pa bs x.p u else .ok () u := by
  obtain ⟨z, hz⟩ := noteAccess_eq s x
  have found : (({ s with scratch := z } : State).noteOverwritten x.pa bs.length).findData mva = some (false, l) :=
    findData_dcache hf
  unfold dataWrite
  rw [ha]
  dsimp only
  rw [hz, found]
  exact ⟨_, _, rfl⟩

theorem find_put_store (h : l.hits mva = true) (c : Cache) (bs : List Byte) (dirty : Bool) :
    (c.put (l.store mva bs dirty)).find mva = some (l.store mva bs dirty) := find_put (l := l.store mva bs dirty) c h

/-- A load of what a store left in its line. -/
theorem dataRead_stored {t : State} (ha : attributeFault x t = none) {bs : List Byte} {dirty : Bool}
    (hf : t.dcache.find mva = some (l.store mva bs dirty)) (h : offsetOf mva + bs.length ≤ 32) :
    ∃ u, dataRead x mva bs.length t = .ok bs u := by
  obtain ⟨u, hu⟩ := dataRead_hit ha hf (bad_store l mva bs dirty)
  exact ⟨u, hu.trans (congrArg (Acc.ok · u) (lineBytes_lineStore _ _ bs h))⟩

end

/-! ## Write-backs (21_mmu R313, R314, R322) -/

/-- The byte of memory at an address after a line's dirty halves are written back. -/
def State.writtenBack (s : State) (l : CacheLine) (a : Word) : Byte :=
  let d := (a - l.pa).toNat
  if (d < 16 ∧ l.dirtyLo = true) ∨ (16 ≤ d ∧ d < 32 ∧ l.dirtyHi = true) then l.data.getD d 0 else s.byteAt a

section
variable {s : State} {l : CacheLine}

/-- Sixteen bytes of the line go to the sixteen of memory at their place. -/
theorem halfWrite_lands (he : (l.ecc && s.bcu.bcuctl.getLsbD 3) = false) (hr : s.board.abortRegions = []) (hm : s.MemOk)
    {base : Word} {off : Nat} (hb : base = l.pa + BitVec.ofNat 32 off) (ho : off ≤ 16) :
    ∃ t, busWrite false base (lineBytes l.data off 16) l.ecc ((s.note 0x0C).noteOverwritten base 16) = .ok () t ∧ Keeps s t
      ∧ ∀ a, s.othersMayWrite a = false → let d := (a - l.pa).toNat
        t.byteAt a = if off ≤ d ∧ d < off + 16 then l.data.getD d 0 else s.byteAt a := by
  have start : Keeps s ((s.note 0x0C).noteOverwritten base 16) := ⟨rfl, rfl, rfl, rfl, rfl, id, fun _ => id⟩
  obtain ⟨t, ht, kept, lands⟩ := busWrite_lands (s := (s.note 0x0C).noteOverwritten base 16)
    (bs := lineBytes l.data off 16) false base he hr hm (by rw [length_lineBytes]; decide)
  refine ⟨t, ht, start.trans kept, fun a ha => (lands a ha).trans ?_⟩
  rw [length_lineBytes]
  have within : (a - base).toNat < 16 ↔ off ≤ (a - l.pa).toNat ∧ (a - l.pa).toNat < off + 16 := by
    subst hb
    bv_omega
  split <;> rename_i h
  · have shift : off + (a - base).toNat = (a - l.pa).toNat := by
      subst hb
      bv_omega
    rw [getD_lineBytes _ _ _ h, shift, if_pos (within.1 h)]
  · rw [if_neg fun hw => h (within.2 hw)]
    rfl

/-- The dirty halves go to memory, and nothing else. -/
theorem evict_lands (he : (l.ecc && s.bcu.bcuctl.getLsbD 3) = false) (hr : s.board.abortRegions = []) (hm : s.MemOk) :
    ∃ t, evict l s = .ok () t ∧ Keeps s t ∧ ∀ a, s.othersMayWrite a = false → t.byteAt a = s.writtenBack l a := by
  have lower : ∃ t, (if l.dirtyLo then evictHalf l false s else .ok () s) = .ok () t ∧ Keeps s t
      ∧ ∀ a, s.othersMayWrite a = false → let d := (a - l.pa).toNat
        t.byteAt a = if d < 16 ∧ l.dirtyLo = true then l.data.getD d 0 else s.byteAt a := by
    cases l.dirtyLo with
    | false => exact ⟨s, rfl, .refl s, fun a _ => (if_neg (by simp)).symm⟩
    | true =>
      obtain ⟨t, ht, kept, low⟩ := halfWrite_lands he hr hm (off := 0) (BitVec.add_zero _).symm (by decide)
      exact ⟨t, ht, kept, fun a ha => (low a ha).trans (if_congr (by simp) rfl rfl)⟩
  obtain ⟨t, ht, kept, low⟩ := lower
  have upper : ∃ u, (if l.dirtyHi then evictHalf l true t else .ok () t) = .ok () u ∧ Keeps t u
      ∧ ∀ a, t.othersMayWrite a = false → let d := (a - l.pa).toNat
        u.byteAt a = if 16 ≤ d ∧ d < 32 ∧ l.dirtyHi = true then l.data.getD d 0 else t.byteAt a := by
    cases l.dirtyHi with
    | false => exact ⟨t, rfl, .refl t, fun a _ => (if_neg (by simp)).symm⟩
    | true =>
      rw [← kept.bcu] at he
      obtain ⟨u, hu, kept', high⟩ :=
        halfWrite_lands he (kept.regions.trans hr) (kept.memOk hm) (off := 16) rfl (by decide)
      exact ⟨u, hu, kept', fun a ha => (high a ha).trans (if_congr (by simp) rfl rfl)⟩
  obtain ⟨u, hu, kept', high⟩ := upper
  refine ⟨u, ?_, kept.trans kept', fun a ha => (high a (kept.quiet a ha)).trans ?_⟩
  · rw [evict, ht]
    exact hu
  · rw [low a ha, State.writtenBack]
    split <;> rename_i h
    · rw [if_pos (.inr h)]
    · by_cases h' : (a - l.pa).toNat < 16 ∧ l.dirtyLo = true
      · rw [if_pos h', if_pos (.inl h')]
      · rw [if_neg h', if_neg (by tauto)]

/-- A clean line is not written back. -/
theorem evict_clean (h : l.dirtyLo = false) (h' : l.dirtyHi = false) : evict l s = .ok () s := by
  rw [evict, h, if_neg Bool.false_ne_true]
  show (if l.dirtyHi then _ else _) = _
  rw [h', if_neg Bool.false_ne_true]

/-- The byte of memory at an address after the line about to be replaced is written back. -/
def State.afterVictim (s : State) (v : Option CacheLine) (a : Word) : Byte :=
  match v with
  | some k => if k.valid then s.writtenBack k a else s.byteAt a
  | none => s.byteAt a

theorem evictVictim_lands (he : s.bcu.bcuctl.getLsbD 3 = false) (hr : s.board.abortRegions = []) (hm : s.MemOk)
    (v : Option CacheLine) : ∃ t, evictVictim v s = .ok () t ∧ Keeps s t
      ∧ ∀ a, s.othersMayWrite a = false → t.byteAt a = s.afterVictim v a := by
  cases v with
  | none => exact ⟨s, rfl, .refl s, fun _ _ => rfl⟩
  | some k =>
    have evicted : evictVictim (some k) s = if k.valid then evict k s else .ok () s := rfl
    have after (a : Word) : s.afterVictim (some k) a = if k.valid then s.writtenBack k a else s.byteAt a := rfl
    simp only [evicted, after]
    cases k.valid with
    | false => exact ⟨s, rfl, .refl s, fun _ _ => rfl⟩
    | true => exact evict_lands (by rw [he, Bool.and_false]) hr hm

theorem evictVictim_clean {c : Cache} {set way : BitVec 5} (h : ∀ k ∈ c.lines, k.dirtyLo = false ∧ k.dirtyHi = false) :
    evictVictim (c.lineAt set way) s = .ok () s := by
  cases hc : c.lineAt set way with
  | none => rfl
  | some k =>
    obtain ⟨lo, hi⟩ := h k (List.mem_of_find?_eq_some hc)
    show (if k.valid then evict k s else .ok () s) = _
    rw [evict_clean lo hi, ite_self]

end

/-! ## Fills (21_mmu R313, R314, R319, R324) -/

/-- The place of a new line of a data cache. -/
def State.place (s : State) (mini : Bool) (set : BitVec 5) : Victim :=
  if mini then s.minid.victimRr set 1
  else if s.cp15.dcacheLock then s.dcache.victimLock set else s.dcache.victimRr set 31

/-- The line that an allocation makes. -/
def State.newLine (s : State) (mini : Bool) (x : Xlat) (mva : Word) (data : Vector Byte 32) : CacheLine where
  set := setOf mva
  way := (s.place mini (setOf mva)).way
  tag := tagOf mva
  valid := true
  locked := (s.place mini (setOf mva)).locked
  dirtyLo := false
  dirtyHi := false
  pa := x.pa &&& 0xFFFFFFE0
  ecc := x.p
  bad := 0
  data := data
  downloaded := false

section
variable {s t u : State} {mini : Bool} {x : Xlat} {mva : Word} {data : Vector Byte 32}

theorem allocateLine_eq (mini : Bool) (x : Xlat) (mva : Word) (data : Vector Byte 32) (s : State) :
    allocateLine mini x mva data s
      = (evictVictim ((s.dataCache mini).lineAt (setOf mva) (s.place mini (setOf mva)).way) s).bind fun _ u =>
        .ok (s.newLine mini x mva data) (u.setDataCache mini (((u.dataCache mini).put (s.newLine mini x mva data)).setRr
          (setOf mva) (s.place mini (setOf mva)).next)) := rfl

theorem hits_newLine (s : State) (mini : Bool) (x : Xlat) (mva : Word) (data : Vector Byte 32) :
    (s.newLine mini x mva data).hits mva = true := hits_of_tag rfl rfl rfl

/-- Round-robin replacement, or in lock mode, which the mini-data cache has not, the next lockable way (D12). -/
theorem place_eq (set : BitVec 5) (h : mini = true → s.cp15.dcacheLock = false) :
    let c := s.dataCache mini
    let n := c.lockedWays set
    let lock := s.cp15.dcacheLock
    let way : BitVec 5 := if lock then (if n < 28 then BitVec.ofNat 5 n else 31) else c.rr[set.toFin]
    s.place mini set = {
      way := way
      locked := lock && decide (n < 28)
      next := if lock then 31 else if way = (if mini then 1 else 31) then BitVec.ofNat 5 n else way + 1 } := by
  cases hl : s.cp15.dcacheLock with
  | false =>
    cases mini with
    | false =>
      show (if s.cp15.dcacheLock then _ else _) = _
      rw [hl]
      rfl
    | true => rfl
  | true =>
    cases mini with
    | true => exact absurd (h rfl) (by simp [hl])
    | false =>
      show (if s.cp15.dcacheLock then s.dcache.victimLock set else _) = _
      rw [hl, if_pos rfl, Cache.victimLock]
      show (if s.dcache.lockedWays set < 28 then _ else _) = _
      split <;> rename_i hn <;> simp [State.dataCache, hn]

/-- A line that stands where an allocation for the address puts it. -/
structure PlacedAt (s : State) (x : Xlat) (mva : Word) (k : CacheLine) : Prop where
  set : k.set = setOf mva
  way : k.way = (s.place x.toMini (setOf mva)).way
  locked : k.locked = (s.place x.toMini (setOf mva)).locked
  pa : k.pa = x.pa &&& 0xFFFFFFE0

/-- The line that an allocation for the address replaces. -/
def State.victimFor (s : State) (mini : Bool) (mva : Word) : Option CacheLine :=
  (s.dataCache mini).lineAt (setOf mva) (s.place mini (setOf mva)).way

theorem allocated {k : CacheLine} {bs : List Byte} (hl : x.toMini = true → s.cp15.dcacheLock = false)
    (hf : (t.dataCache x.toMini).find mva = some k) (hk : PlacedAt s x mva k) (hd : k.data.toList = bs)
    (hrr : (t.dataCache x.toMini).rr
      = (s.dataCache x.toMini).rr.set (setOf mva).toFin (s.place x.toMini (setOf mva)).next)
    (ho : t.dataCache (!x.toMini) = s.dataCache (!x.toMini))
    (hm : ∀ a, t.byteAt a = s.afterVictim (s.victimFor x.toMini mva) a) : Allocated s t x mva k bs := by
  obtain ⟨hset, hway, hlocked, hpa⟩ := hk
  have place := place_eq (setOf mva) hl
  dsimp only at place
  unfold State.victimFor at hm
  rw [place] at hway hlocked hrr hm
  refine ⟨hf, hset, hway, hlocked, hpa, hd, hrr, ho, fun a => (hm a).trans ?_⟩
  generalize (s.dataCache x.toMini).lineAt (setOf mva) _ = v
  cases v with
  | none => rfl
  | some v =>
    show (if v.valid then s.writtenBack v a else s.byteAt a) = _
    exact (ite_and ..).symm

/-- Lines kept apart from memory: replacing a cache changes no byte. -/
theorem byteAt_setDataCache (s : State) (mini : Bool) (c : Cache) (a : Word) :
    (s.setDataCache mini c).byteAt a = s.byteAt a := by
  cases mini <;> rfl

theorem dataCache_setDataCache (s : State) (mini : Bool) (c : Cache) : (s.setDataCache mini c).dataCache mini = c := by
  cases mini <;> rfl

theorem dataCache_setDataCache_other (s : State) (mini : Bool) (c : Cache) :
    (s.setDataCache mini c).dataCache (!mini) = s.dataCache (!mini) := by
  cases mini <;> rfl

/-- A cache after a line is placed. -/
def Cache.placed (c : Cache) (l : CacheLine) (set next : BitVec 5) : Cache := (c.put l).setRr set next

theorem allocateLine_places (he : s.bcu.bcuctl.getLsbD 3 = false) (hr : s.board.abortRegions = []) (hm : s.MemOk)
    (hq : ∀ a, s.othersMayWrite a = false) (mini : Bool) (x : Xlat) (mva : Word) (data : Vector Byte 32) :
    ∃ u, Keeps s u ∧ (∀ a, u.byteAt a = s.afterVictim (s.victimFor mini mva) a)
      ∧ allocateLine mini x mva data s = .ok (s.newLine mini x mva data)
        (u.setDataCache mini ((s.dataCache mini).placed (s.newLine mini x mva data) (setOf mva)
          (s.place mini (setOf mva)).next)) := by
  obtain ⟨u, hu, kept, mem⟩ := evictVictim_lands he hr hm (s.victimFor mini mva)
  refine ⟨u, kept, fun a => mem a (hq a), ?_⟩
  unfold State.victimFor at hu
  rw [allocateLine_eq, hu, Acc.bind, kept.dataCache]
  rfl

/-- A line read that nothing aborts brings memory's bytes in. -/
theorem fillLine_places (he : s.bcu.bcuctl.getLsbD 3 = false) (hr : s.board.abortRegions = []) (hm : s.MemOk)
    (hb : s.board.between = []) (hl : x.toMini = true → s.cp15.dcacheLock = false) :
    let l := s.newLine x.toMini x mva (lineOfBytes (s.bytesAt (x.pa &&& 0xFFFFFFE0) 32))
    ∃ u, Keeps s u ∧ (∀ a, u.byteAt a = s.afterVictim (s.victimFor x.toMini mva) a)
      ∧ fillLine x mva s = .ok (some l) (u.setDataCache x.toMini ((s.dataCache x.toMini).placed l (setOf mva)
          (s.place x.toMini (setOf mva)).next)) := by
  intro l
  obtain ⟨z, hz⟩ := busRead_plain (x.pa &&& 0xFFFFFFE0) (s.lineRequest x.pa) 32 (p := x.p) (by rw [he, Bool.and_false]) hr hb
  obtain ⟨u, kept, mem, hu⟩ := allocateLine_places (s := { s with scratch := z }) he hr hm (othersMayWrite_of_none hb)
    x.toMini x mva (lineOfBytes (s.bytesAt (x.pa &&& 0xFFFFFFE0) 32))
  refine ⟨u, (keeps_scratch s z).trans kept, mem, ?_⟩
  have open_ : (x.toMini && s.cp15.dcacheLock) = false := by
    cases hx : x.toMini with
    | false => rfl
    | true => exact hl hx
  rw [fillLine, open_, if_neg Bool.false_ne_true, busReadLine, hz, Acc.bind]
  show (allocateLine x.toMini x mva _ _).bind _ = _
  rw [hu]
  rfl

/-- The line that a miss brings in. -/
def State.filledLine (s : State) (x : Xlat) (mva : Word) : CacheLine :=
  s.newLine x.toMini x mva (lineOfBytes (s.bytesAt (x.pa &&& 0xFFFFFFE0) 32))

/-- A line's fill, whatever the access noted before it. -/
theorem fillLine_filled (he : s.bcu.bcuctl.getLsbD 3 = false) (hr : s.board.abortRegions = []) (hm : s.MemOk)
    (hb : s.board.between = []) (hl : x.toMini = true → s.cp15.dcacheLock = false) (mva : Word) (z : Scratch)
    (o : List (Nat × List Byte)) :
    ∃ t, fillLine x mva { s with scratch := z, overwritten := o } = .ok (some (s.filledLine x mva)) t
      ∧ t.dataCache x.toMini = (s.dataCache x.toMini).placed (s.filledLine x mva) (setOf mva)
          (s.place x.toMini (setOf mva)).next
      ∧ t.dataCache (!x.toMini) = s.dataCache (!x.toMini)
      ∧ ∀ a, t.byteAt a = s.afterVictim (s.victimFor x.toMini mva) a := by
  obtain ⟨u, kept, mem, hu⟩ :=
    fillLine_places (s := { s with scratch := z, overwritten := o }) (x := x) (mva := mva) he hr hm hb hl
  have line : ({ s with scratch := z, overwritten := o } : State).bytesAt (x.pa &&& 0xFFFFFFE0) 32
      = s.bytesAt (x.pa &&& 0xFFFFFFE0) 32 := by
    rw [bytesAt_eq_map, bytesAt_eq_map]
    rfl
  rw [line] at hu
  refine ⟨_, hu, dataCache_setDataCache .., (dataCache_setDataCache_other ..).trans (kept.dataCache _), fun a => ?_⟩
  rw [byteAt_setDataCache]
  exact mem a

theorem find_placed {k : CacheLine} (h : k.hits mva = true) (c : Cache) (set next : BitVec 5) :
    (c.placed k set next).find mva = some k := find_put c h

theorem toList_filledLine (s : State) (x : Xlat) (mva : Word) :
    (s.filledLine x mva).data.toList = s.bytesAt (x.pa &&& 0xFFFFFFE0) 32 :=
  toList_lineOfBytes (by simp [bytesAt_eq_map])

/-- A cacheable load that misses delivers from the line it brings in. -/
theorem dataRead_missed (ha : attributeFault x s = none) (hf : s.findData mva = none) (hc : s.cacheable x = true) (n : Nat) :
    ∃ z, ∀ l t, fillLine x mva { s with scratch := z } = .ok (some l) t → dataRead x mva n s = readLine l mva n t := by
  obtain ⟨z, hz⟩ := noteAccess_eq s x
  have missed : ({ s with scratch := z } : State).findData mva = none := hf
  have cacheable : ({ s with scratch := z } : State).cacheable x = true := hc
  refine ⟨(({ s with scratch := z } : State).note 0x0B).scratch, fun l t h => ?_⟩
  unfold dataRead
  rw [ha]
  dsimp only
  rw [hz, missed]
  dsimp only
  rw [cacheable, if_pos rfl]
  exact congrArg (Acc.bind · _) h

/-- A store that misses stores in the line it brings in, or goes to memory. -/
theorem dataWrite_missed (ha : attributeFault x s = none) (hf : s.findData mva = none) (bs : List Byte) : ∃ z o,
    ((s.cacheable x && s.writeAllocate x) = true → ∀ l t,
      fillLine x mva { s with scratch := z, overwritten := o } = .ok (some l) t →
      dataWrite x mva bs s = .ok () (t.setDataCache x.toMini ((t.dataCache x.toMini).put (l.store mva bs true))))
    ∧ ((s.cacheable x && s.writeAllocate x) = false →
      dataWrite x mva bs s = busWrite x.buffered x.pa bs x.p { s with scratch := z, overwritten := o }) := by
  obtain ⟨z, hz⟩ := noteAccess_eq s x
  have missed : (({ s with scratch := z } : State).noteOverwritten x.pa bs.length).findData mva = none := hf
  have allocates : ((({ s with scratch := z } : State).noteOverwritten x.pa bs.length).cacheable x
      && (({ s with scratch := z } : State).noteOverwritten x.pa bs.length).writeAllocate x)
      = (s.cacheable x && s.writeAllocate x) := rfl
  refine ⟨(({ s with scratch := z } : State).note 0x0B).scratch,
    (({ s with scratch := z } : State).noteOverwritten x.pa bs.length).overwritten, fun hc l t h => ?_, fun hc => ?_⟩
  all_goals
    unfold dataWrite
    rw [ha]
    dsimp only
    rw [hz, missed]
    dsimp only
    rw [allocates, hc]
  · rw [if_pos rfl]
    exact congrArg (Acc.bind · _) h
  · rfl

/-- A cacheable load that misses fills the line and delivers its bytes. -/
theorem dataRead_fills (ha : attributeFault x s = none) (he : s.bcu.bcuctl.getLsbD 3 = false)
    (hr : s.board.abortRegions = []) (hm : s.MemOk) (hb : s.board.between = []) (hf : s.findData mva = none)
    (hc : s.cacheable x = true) (hl : x.toMini = true → s.cp15.dcacheLock = false) {n : Nat} (hn : offsetOf mva + n ≤ 32) :
    let line := s.bytesAt (x.pa &&& 0xFFFFFFE0) 32
    ∃ t l, dataRead x mva n s = .ok ((line.drop (offsetOf mva)).take n) t ∧ Allocated s t x mva l line
      ∧ l.dirtyLo = false ∧ l.dirtyHi = false := by
  intro line
  obtain ⟨z, hz⟩ := dataRead_missed ha hf hc n
  obtain ⟨t, ht, cache, other, mem⟩ := fillLine_filled he hr hm hb hl mva z s.overwritten
  refine ⟨t, s.filledLine x mva, ?_, allocated hl ?_ ⟨rfl, rfl, rfl, rfl⟩ (toList_filledLine s x mva) ?_ other mem, rfl, rfl⟩
  · have good : (s.filledLine x mva).bad &&& byteMask (offsetOf mva) n = 0 := BitVec.zero_and
    rw [hz _ t ht, readLine, if_pos good, lineBytes_eq _ _ _ hn, toList_filledLine]
  · rw [cache]
    exact find_placed (hits_newLine ..) ..
  · rw [cache]
    rfl

/-- A store that misses with write allocation fills the line and stores in it. -/
theorem dataWrite_allocates (ha : attributeFault x s = none) (he : s.bcu.bcuctl.getLsbD 3 = false)
    (hr : s.board.abortRegions = []) (hm : s.MemOk) (hb : s.board.between = []) (hf : s.findData mva = none)
    (hc : (s.cacheable x && s.writeAllocate x) = true) (hl : x.toMini = true → s.cp15.dcacheLock = false)
    {bs : List Byte} (hn : offsetOf mva + bs.length ≤ 32) :
    let line := s.bytesAt (x.pa &&& 0xFFFFFFE0) 32
    let off := offsetOf mva
    ∃ t l, dataWrite x mva bs s = .ok () t
      ∧ Allocated s t x mva l (line.take off ++ bs ++ line.drop (off + bs.length))
      ∧ l.dirtyLo = decide (off < 16) ∧ l.dirtyHi = decide (16 ≤ off) := by
  intro line off
  obtain ⟨z, o, hw, -⟩ := dataWrite_missed ha hf bs
  obtain ⟨t, ht, cache, other, mem⟩ := fillLine_filled he hr hm hb hl mva z o
  have stored : ((s.filledLine x mva).store mva bs true).data.toList
      = line.take off ++ bs ++ line.drop (off + bs.length) := by
    refine (toList_lineStore _ _ _ hn).trans ?_
    rw [toList_filledLine]
  have lower : (!decide (16 ≤ off)) = decide (off < 16) := by
    rw [← decide_not]
    exact decide_eq_decide.2 Nat.not_le
  refine ⟨_, (s.filledLine x mva).store mva bs true, hw hc _ t ht, allocated hl ?_ ⟨rfl, rfl, rfl, rfl⟩ stored ?_
      ((dataCache_setDataCache_other ..).trans other) fun a => ?_, lower, rfl⟩
  · rw [dataCache_setDataCache]
    exact find_put_store (hits_newLine ..) ..
  · rw [dataCache_setDataCache, cache]
    rfl
  · rw [byteAt_setDataCache, mem]

/-- A store that misses without allocation goes to memory, and no cache changes. -/
theorem dataWrite_around (ha : attributeFault x s = none) (he : s.bcu.bcuctl.getLsbD 3 = false)
    (hr : s.board.abortRegions = []) (hm : s.MemOk) (hf : s.findData mva = none)
    (hc : (s.cacheable x && s.writeAllocate x) = false) {bs : List Byte} (hn : bs.length ≤ 32) :
    ∃ t, dataWrite x mva bs s = .ok () t ∧ Lands s t x.pa bs ∧ t.dcache = s.dcache ∧ t.minid = s.minid := by
  obtain ⟨z, o, -, hw⟩ := dataWrite_missed ha hf bs
  obtain ⟨t, ht, kept, lands⟩ := busWrite_lands (s := { s with scratch := z, overwritten := o }) x.buffered x.pa (p := x.p)
    (Bool.and_eq_false_iff.2 (.inr he)) hr hm hn
  exact ⟨t, (hw hc).trans ht, lands, kept.dcache, kept.minid⟩

end

/-! ## The functions of CP15 (11_state R94, R111; 21_mmu R318, R320 to R325) -/

section
variable {s t : State} {v : Word} {l : CacheLine}

/-- Cleaning a line writes its dirty halves back and leaves it valid and clean. -/
theorem cleanDLine_cleans (hf : s.dcache.find v = some l) (hb : l.bad = 0) (he : l.ecc = false)
    (hr : s.board.abortRegions = []) (hm : s.MemOk) : ∃ t, cleanDLine v s = .ok () t
      ∧ (∀ a, s.othersMayWrite a = false → t.byteAt a = s.writtenBack l a)
      ∧ t.dcache.find v = some { l with dirtyLo := false, dirtyHi := false } := by
  obtain ⟨u, hu, -, mem⟩ := evict_lands (s := s) (l := l) (by rw [he, Bool.false_and]) hr hm
  have hits : ({ l with dirtyLo := false, dirtyHi := false } : CacheLine).hits v = true := (mem_of_find hf).2
  refine ⟨u.setDataCache false (u.dcache.put { l with dirtyLo := false, dirtyHi := false }), ?_, mem, find_put _ hits⟩
  rw [cleanDLine, findData_dcache hf]
  dsimp only
  rw [if_pos hb, hu]
  rfl

theorem cleanDLine_absent (h : s.findData v = none) : cleanDLine v s = .ok () s := by
  rw [cleanDLine, h]

/-- A line that stands already is not allocated again. -/
theorem lineAllocate_resident {x : Xlat} (ht : translateUnchecked (v &&& 0xFFFFFFE0) s = .ok x t)
    (h : t.dcache.find (v &&& 0xFFFFFFE0) ≠ none) : lineAllocate v s = .ok () t := by
  obtain ⟨l, hl⟩ := Option.ne_none_iff_exists'.1 h
  rw [lineAllocate, ht, Acc.bind, hl]

/-- Where nothing is dirty, allocating a line leaves memory. -/
theorem lineAllocate_allocates {x : Xlat} (ht : translateUnchecked (v &&& 0xFFFFFFE0) s = .ok x t)
    (hf : t.dcache.find (v &&& 0xFFFFFFE0) = none) (hd : t.noDirtyLine = true) :
    ∃ u l, lineAllocate v s = .ok () u ∧ u.mem = t.mem ∧ u.dcache.find (v &&& 0xFFFFFFE0) = some l
      ∧ l.pa = x.pa &&& 0xFFFFFFE0 ∧ l.dirtyLo = false ∧ l.dirtyHi = false
      ∧ (l.locked = true → s.cp15.dcacheLock = true) := by
  have clean : ∀ k ∈ t.dcache.lines, k.dirtyLo = false ∧ k.dirtyHi = false := by
    simp only [State.noDirtyLine, Bool.and_eq_true, List.all_eq_true, Bool.not_eq_true'] at hd
    exact hd.1
  have evicted := evictVictim_clean (s := t.draw 8) (c := (t.draw 8).dataCache false) (set := setOf (v &&& 0xFFFFFFE0))
    (way := ((t.draw 8).place false (setOf (v &&& 0xFFFFFFE0))).way) clean
  have allocates : lineAllocate v s = .ok () ((t.draw 8).setDataCache false (((t.draw 8).dataCache false).placed
      ((t.draw 8).newLine false x (v &&& 0xFFFFFFE0) (lineOfBytes (freeBytes t.freeCount 32))) (setOf (v &&& 0xFFFFFFE0))
      ((t.draw 8).place false (setOf (v &&& 0xFFFFFFE0))).next)) := by
    rw [lineAllocate, ht, Acc.bind, hf]
    show (allocateLine false x _ _ (t.draw 8)).bind _ = _
    rw [allocateLine_eq, evicted]
    rfl
  have cp15 : t.cp15 = s.cp15 := ((closed_sameCore s).lineAllocate (.refl s) v |>.ok allocates).cp15
  refine ⟨_, _, allocates, rfl, find_placed (hits_newLine ..) .., rfl, rfl, rfl, fun hk => ?_⟩
  rw [← cp15]
  cases hl : t.cp15.dcacheLock with
  | true => rfl
  | false =>
    have place := congrArg Victim.locked
      (place_eq (s := t.draw 8) (mini := false) (setOf (v &&& 0xFFFFFFE0)) (fun h => nomatch h))
    exact absurd (hk.symm.trans place) (by simp [hl, State.draw])

theorem dcacheLockDisabled (hm : s.mode ≠ modeUsr) (hoff : s.dcacheOn = false) (c : Cond) (op1 : BitVec 3) (rd : Reg)
    (hc : condPassed c s.cpsr = true) : exec (.mcr c op1 9 rd 15 1 2) s = .fault .dcacheLockDisabled :=
  exec_mcr15_fault hm (by decide) hc op1 rd (if_neg (by simp [hoff]))

end

/-! ## The obligation -/

section
variable {s : State} {x : Xlat} {mva : Word} {l : CacheLine} {bs : List Byte}

/-- A store to a line of a write-back region stays in the line. -/
theorem storeHit_writeBack (ha : attributeFault x s = none) (hf : s.dcache.find mva = some l)
    (hw : s.writeThrough x = false) (hn : offsetOf mva + bs.length ≤ 32) :
    ∃ t, dataWrite x mva bs s = .ok () t ∧ t.mem = s.mem
      ∧ (∃ k, t.dcache.find mva = some k ∧ (if 16 ≤ offsetOf mva then k.dirtyHi = true else k.dirtyLo = true))
      ∧ ∃ u, dataRead x mva bs.length t = .ok bs u := by
  obtain ⟨z, o, h⟩ := dataWrite_hit ha hf bs
  have found := find_put_store (mem_of_find hf).2 s.dcache bs !s.writeThrough x
  rw [hw] at h found
  refine ⟨_, h, rfl, ⟨_, found, ?_⟩, dataRead_stored (l := l) (dirty := !false) ?_ ?_ hn⟩
  · split <;> rename_i hi
    · show (l.dirtyHi || (true && decide (16 ≤ offsetOf mva))) = true
      simp [hi]
    · show (l.dirtyLo || (true && !decide (16 ≤ offsetOf mva))) = true
      simp [hi]
  · exact ha
  · exact found

/-- A store to a line of a write-through region goes to memory too. -/
theorem storeHit_writeThrough (ha : attributeFault x s = none) (he : s.bcu.bcuctl.getLsbD 3 = false)
    (hr : s.board.abortRegions = []) (hm : s.MemOk) (hf : s.dcache.find mva = some l) (hw : s.writeThrough x = true)
    (hn : offsetOf mva + bs.length ≤ 32) : ∃ t k, dataWrite x mva bs s = .ok () t ∧ Lands s t x.pa bs
      ∧ t.dcache.find mva = some k ∧ k.dirtyLo = l.dirtyLo ∧ k.dirtyHi = l.dirtyHi
      ∧ ∃ u, dataRead x mva bs.length t = .ok bs u := by
  obtain ⟨z, o, h⟩ := dataWrite_hit ha hf bs
  have found := find_put_store (mem_of_find hf).2 s.dcache bs !s.writeThrough x
  rw [hw] at h found
  obtain ⟨t, ht, kept, lands⟩ := busWrite_lands (bs := bs) (p := x.p)
    (s := { s with scratch := z, overwritten := o, dcache := s.dcache.put (l.store mva bs !true) }) x.buffered x.pa
    (Bool.and_eq_false_iff.2 (.inr he)) hr hm (by omega)
  have foundThen : t.dcache.find mva = some (l.store mva bs !true) := (congrArg (Cache.find · mva) kept.dcache).trans found
  have attributes : attributeFault x t = none := by
    rw [← ha]
    unfold attributeFault State.mmuOn State.dcacheOn State.md
    rw [kept.cp15]
  exact ⟨t, _, h.trans ht, lands, foundThen, Bool.or_false _, Bool.or_false _, dataRead_stored attributes foundThen hn⟩

end

/-- Settles O42: hits and misses by the lemmas above, the functions of CP15 by `cp15Function_of_ok`. -/
theorem dataCacheAndItsFunctions : Obligations.DataCacheAndItsFunctions := by
  unfold Obligations.DataCacheAndItsFunctions
  refine ⟨fun x mva bs l s => storeHit_writeBack, fun x mva n bs s ha he hr hb hm hl => ?_, fun v s ht hm => ?_⟩
  · have quiet := othersMayWrite_of_none hb
    refine ⟨fun l hf hw hn => ?_, fun hf hc hlock => ⟨dataRead_fills ha he hr hm hb hf hc hlock, fun hw hn => ?_⟩,
      fun hf hc => ?_⟩
    · obtain ⟨t, k, h, lands, rest⟩ := storeHit_writeThrough ha he hr hm hf hw hn
      exact ⟨t, k, h, fun a => lands a (quiet a), rest⟩
    · exact dataWrite_allocates ha he hr hm hb hf (Bool.and_eq_true_iff.2 ⟨hc, hw⟩) hlock hn
    · obtain ⟨t, h, lands, rest⟩ := dataWrite_around ha he hr hm hf hc hl
      exact ⟨t, h, fun a => lands a (quiet a), rest⟩
  · intro Fn
    have fn {crn crm op2} {t : State} (hn : crn ≠ 14) (h : writeCp15 crn crm op2 v s = .ok () t) : Fn crn crm op2 t :=
      cp15Function_of_ok ht hm hn h
    have both {p : CacheLine → Prop} {t : State} (hd : ∀ l ∈ t.dcache.lines, p l) (hi : ∀ l ∈ t.minid.lines, p l) :
        ∀ l ∈ t.dcache.lines ++ t.minid.lines, p l := fun l h => (List.mem_append.1 h).elim (hd l) (hi l)
    refine ⟨fun l hf hb he hr hmem => ?_, fun h => fn (by decide) (cleanDLine_absent h),
      ⟨s.invalidateDCache, fn (by decide) rfl, rfl,
        both (locked_of_mem_invalidateUnlocked _) (locked_of_mem_invalidateUnlocked _), locked_mem_invalidateUnlocked _⟩,
      ⟨s.invalidateDLine v, fn (by decide) rfl, rfl,
        both (hits_of_mem_invalidateLine _ v) (hits_of_mem_invalidateLine _ v), mem_invalidateLine _ v⟩,
      fun x t hx => ⟨fun h => fn (by decide) (lineAllocate_resident hx h), fun hf hd => ?_⟩, ⟨_, fn (by decide) rfl⟩,
      fn (by decide) rfl, fun hon => ⟨s.unlockDCache, fn (by decide) (if_pos hon), rfl, rfl⟩, dcacheLockDisabled hm⟩
    · obtain ⟨t, h, mem, found⟩ := cleanDLine_cleans hf hb he hr hmem
      exact ⟨t, fn (by decide) h, mem, found⟩
    · obtain ⟨u, l, h, rest⟩ := lineAllocate_allocates hx hf hd
      exact ⟨u, l, fn (by decide) h, rest⟩

end Sys2Proof.Machine
end

section
/-!
PROOFS. Nothing but a store, a write-back of a dirty line or another master changes a byte of memory: what requests, translations,
fills of clean caches and the cache functions leave of memory and of the data caches.
-/

namespace Sys2Proof.Machine

/-! ## Clean caches (21_mmu R311) -/

/-- No line of a cache holds data that memory does not. -/
def Cache.Clean (c : Cache) : Prop := ∀ l ∈ c.lines, l.dirtyLo = false ∧ l.dirtyHi = false

theorem noDirtyLine_iff (s : State) : s.noDirtyLine = true ↔ s.dcache.Clean ∧ s.minid.Clean := by
  simp [State.noDirtyLine, Cache.Clean, List.all_eq_true]

section
variable {c : Cache}

theorem Cache.Clean.put (hc : c.Clean) {l : CacheLine} (lo : l.dirtyLo = false) (hi : l.dirtyHi = false) : (c.put l).Clean := by
  intro k hk
  rcases List.mem_cons.1 hk with rfl | hk
  · exact ⟨lo, hi⟩
  · exact hc k (List.mem_filter.1 hk).1

theorem Cache.Clean.map (hc : c.Clean) {f : CacheLine → CacheLine}
    (hf : ∀ l, (f l).dirtyLo = l.dirtyLo ∧ (f l).dirtyHi = l.dirtyHi) : ({ c with lines := c.lines.map f } : Cache).Clean := by
  intro k hk
  obtain ⟨l, hl, rfl⟩ := List.mem_map.1 hk
  obtain ⟨lo, hi⟩ := hf l
  rw [lo, hi]
  exact hc l hl

theorem Cache.Clean.invalidateUnlocked (hc : c.Clean) : c.invalidateUnlocked.Clean :=
  hc.map fun l => by split <;> exact ⟨rfl, rfl⟩

theorem Cache.Clean.invalidateLine (hc : c.Clean) (mva : Word) : (c.invalidateLine mva).Clean :=
  hc.map fun l => by split <;> exact ⟨rfl, rfl⟩

theorem Cache.Clean.unlock (hc : c.Clean) : c.unlock.Clean := hc.map fun _ => ⟨rfl, rfl⟩

end

/-- A line that a lookup of both data caches finds is one of its cache's. -/
theorem mem_of_findData {t : State} {mva : Word} {mini : Bool} {l : CacheLine} (h : t.findData mva = some (mini, l)) :
    l ∈ (t.dataCache mini).lines := by
  unfold State.findData at h
  split at h
  · rename_i k hk
    cases h
    exact (mem_of_find hk).1
  · obtain ⟨k, hk, e⟩ := Option.map_eq_some_iff.1 h
    cases e
    exact (mem_of_find hk).1

/-! ## Nothing was stored -/

/-- What memory `mem`, the two data caches and the writes other masters still have `between` requests are while nothing has been
stored since `s`: memory in canonical form, no dirty line, and each byte that no other master was to write as it was in `s` and
still not to be written. -/
structure NothingStored (s : State) (mem : List Host.Cell) (data mini : Cache) (between : List (List (Word × Byte))) : Prop where
  canonical : memWf mem = true
  data : data.Clean
  mini : mini.Clean
  frame : ∀ a : Word, s.othersMayWrite a = false → memGet mem a.toNat = s.byteAt a
  others : ∀ a : Word, s.othersMayWrite a = false → (between.any fun ws => ws.any fun w => w.1 == a) = false

/-- Nothing was stored between `s` and `t`. Other fields of `t` may change at will, by definition. -/
@[reducible] def Unstored (s t : State) : Prop := NothingStored s t.mem t.dcache t.minid t.board.between

theorem Unstored.refl {s : State} (hm : memWf s.mem = true) (hd : s.noDirtyLine = true) : Unstored s s := by
  obtain ⟨data, mini⟩ := (noDirtyLine_iff s).1 hd
  exact ⟨hm, data, mini, fun _ _ => rfl, fun _ h => h⟩

namespace Unstored
variable {s t : State}

theorem byteAt (h : Unstored s t) {a : Word} (ha : s.othersMayWrite a = false) : t.byteAt a = s.byteAt a := h.frame a ha

/-! ## Requests (62_platform R854 to R856, R875) -/

/-- Other masters write only where they were to write. -/
theorem othersWrite (h : Unstored s t) : Unstored s t.othersWrite := by
  have same := keeps_othersWrite t
  refine ⟨same.memOk h.canonical, same.dcache ▸ h.data, same.minid ▸ h.mini, fun a ha => ?_, fun a ha => ?_⟩
  · exact (byteAt_othersWrite h.canonical (h.others a ha)).trans (h.frame a ha)
  · exact same.quiet a (h.others a ha)

theorem assertLock (h : Unstored s t) : Unstored s t.assertLock := by
  obtain ⟨x, e⟩ := assertLock_eq t
  rw [e]
  exact h

theorem logError (h : Unstored s t) (w : Bool) (et : BitVec 2) (y : BitVec 8) (pa : Word) :
    Unstored s (t.logError w et y pa) := by
  unfold State.logError
  split
  · exact h
  · split
    · exact h
    · dsimp only
      split <;> exact h

theorem logAbort (h : Unstored s t) (w : Bool) (pa : Word) : Unstored s (t.logAbort w pa) := h.logError w _ _ pa

theorem eccCheck (req : Word) (bs : List Nat) (h : Unstored s t) : Unstored s (eccCheck req bs t).2 := by
  induction bs generalizing t with
  | nil => exact h
  | cons b bs ih =>
    have logged (multi : Bool) (y : BitVec 8) : Unstored s (t.logEcc multi y req) := h.logError _ _ _ _
    unfold Machine.eccCheck
    split
    · exact ih h
    · exact ih (logged _ _)
    · exact ih (logged _ _)
    · exact logged _ _

theorem abortedRead (h : Unstored s t) (pa req : Word) (n : Nat) (p : Bool) :
    (abortedRead pa req n p t).All (Unstored s) := by
  have hr : Unstored s (if t.eccOn p then Machine.eccCheck req (t.receivedBlocks pa req n) t else (true, t)).2 := by
    split
    · exact eccCheck _ _ h
    · exact h
  exact Acc.All.ite (Acc.all_ok (hr.logAbort _ _)) (Acc.all_ok hr) _

theorem busRead (h : Unstored s t) (pa req : Word) (n : Nat) (p : Bool) : (busRead pa req n p t).All (Unstored s) := by
  have h0 : Unstored s (t.othersWrite.assertLock.note 0x10) := h.othersWrite.assertLock
  refine Acc.All.ite Acc.all_fault (Acc.All.ite (h0.abortedRead _ _ _ _) (Acc.All.ite ?_ (Acc.all_ok h0) _) _) _
  exact eccCheck _ _ h0

/-! ## Translation -/

theorem readDescriptor (h : Unstored s t) (pa : Word) (c : FaultCode) (m : Word) (d : BitVec 4) :
    (readDescriptor pa c m d t).All (Unstored s) := by
  refine (h.busRead _ _ _ _).bind fun r u hu => ?_
  cases r <;> exact hu

theorem walk (h : Unstored s t) (m : Word) : (walk m t).All (Unstored s) := by
  refine (h.readDescriptor _ _ _ _).bind fun l1 u hu => ?_
  refine Acc.All.ite (Acc.all_abort hu) (Acc.All.ite (Acc.all_ok hu) ((hu.readDescriptor _ _ _ _).bind fun l2 v hv => ?_) _) _
  split <;> exact hv

theorem setTlb (h : Unstored s t) (i : Bool) (b : Tlb) : Unstored s (t.setTlb i b) := by cases i <;> exact h

theorem translate (h : Unstored s t) (i : Bool) (m : Word) (w pr : Bool) : (translate i m w pr t).All (Unstored s) := by
  have h0 (n : BitVec 8) : Unstored s (t.note n) := h
  unfold Machine.translate
  split
  · exact h
  · split
    · refine ((h0 _).walk m).bind fun e u hu => ?_
      exact (Closed.checkAccess (hu.setTlb i _) e m w pr).bind fun _ _ hv => hv
    · exact (Closed.checkAccess h _ m w pr).bind fun _ _ hv => hv
    · trivial

theorem translateAndLock (h : Unstored s t) (i : Bool) (m : Word) : (translateAndLock i m t).All (Unstored s) := by
  refine Acc.All.ite Acc.all_fault (Acc.All.ite (Acc.all_ok h) (Acc.All.lockAbort ?_) _) _
  refine (h.walk m).bind fun e u hu => ?_
  exact (Closed.checkAccess hu e m _ _).bind fun _ v hv => hv.setTlb i _

theorem translateUnchecked (h : Unstored s t) (m : Word) : (translateUnchecked m t).All (Unstored s) := by
  have h0 : Unstored s (t.note 0x4) := h
  unfold Machine.translateUnchecked
  split
  · exact h
  · split
    · exact (h0.walk m).bind fun _ _ hu => hu
    · exact h
    · trivial

/-! ## Clean data caches stay clean (21_mmu R313, R314, R320 to R323) -/

theorem dataCache (h : Unstored s t) (mini : Bool) : (t.dataCache mini).Clean := by
  cases mini
  · exact h.data
  · exact h.mini

theorem setDataCache (h : Unstored s t) (mini : Bool) {c : Cache} (hc : c.Clean) : Unstored s (t.setDataCache mini c) := by
  cases mini
  · exact { h with data := hc }
  · exact { h with mini := hc }

/-- No victim is dirty, so an allocation writes nothing back, and the new line is clean. -/
theorem allocateLine (h : Unstored s t) (mini : Bool) (x : Xlat) (mva : Word) (d : Vector Byte 32) :
    (allocateLine mini x mva d t).All (Unstored s) := by
  rw [allocateLine_eq, evictVictim_clean (h.dataCache mini)]
  exact h.setDataCache mini (Cache.Clean.put (h.dataCache mini) rfl rfl)

theorem fillLine (h : Unstored s t) (x : Xlat) (a : Word) : (fillLine x a t).All (Unstored s) := by
  refine Acc.All.ite Acc.all_fault ((h.busRead _ _ _ _).bind fun r u hu => ?_) _
  split
  · exact hu
  · exact (hu.allocateLine _ _ _ _).bind fun _ _ hv => hv

theorem cleanDLine (h : Unstored s t) (a : Word) : (cleanDLine a t).All (Unstored s) := by
  unfold Machine.cleanDLine
  split
  · exact h
  · rename_i mini l hf
    obtain ⟨lo, hi⟩ := h.dataCache mini l (mem_of_findData hf)
    have h1 : Unstored s (if l.bad = 0 then t else t.pend .parity) := by split <;> exact h
    rw [evict_clean lo hi]
    exact h1.setDataCache mini (Cache.Clean.put (h1.dataCache mini) rfl rfl)

theorem lineAllocate (h : Unstored s t) (rd : Word) : (lineAllocate rd t).All (Unstored s) := by
  refine (h.translateUnchecked _).bind fun x u hu => ?_
  have h1 : Unstored s (u.draw 8) := hu
  split
  · exact hu
  · exact (h1.allocateLine _ _ _ _).bind fun _ _ hv => hv

theorem invalidateDCache (h : Unstored s t) : Unstored s t.invalidateDCache :=
  { h with data := h.data.invalidateUnlocked, mini := h.mini.invalidateUnlocked }

theorem invalidateDLine (h : Unstored s t) (mva : Word) : Unstored s (t.invalidateDLine mva) :=
  { h with data := h.data.invalidateLine mva, mini := h.mini.invalidateLine mva }

theorem unlockDCache (h : Unstored s t) : Unstored s t.unlockDCache := { h with data := h.data.unlock }

theorem fetchAndLockI (h : Unstored s t) (rd : Word) : (fetchAndLockI rd t).All (Unstored s) := by
  have htr := h.translate true (rd &&& 0xFFFFFFE0) false t.priv
  unfold Machine.fetchAndLockI
  dsimp only
  refine Acc.All.ite Acc.all_fault ?_ _
  split
  · rename_i x u e
    have hu : Unstored s u := htr.ok e
    have h0 : Unstored s (u.note 0x00) := hu
    refine Acc.All.ite Acc.all_fault ((h0.busRead _ _ _ _).bind fun r v hv => ?_) _
    split <;> exact hv
  · rename_i e
    exact htr.abort e
  · trivial
  · trivial

/-! ## Loads -/

theorem noteAccess (h : Unstored s t) (x : Xlat) : Unstored s (t.noteAccess x) := by
  unfold State.noteAccess
  split <;> exact h

theorem readLine (h : Unstored s t) (l : CacheLine) (a : Word) (n : Nat) : (readLine l a n t).All (Unstored s) :=
  Acc.All.ite (Acc.all_ok h) (Acc.all_ok (t := (t.pend .parity).draw _) h) _

theorem dataRead (h : Unstored s t) (x : Xlat) (a : Word) (n : Nat) : (dataRead x a n t).All (Unstored s) := by
  have h0 := h.noteAccess x
  have h1 : Unstored s ((t.noteAccess x).note 0x0B) := h0
  unfold Machine.dataRead
  split
  · trivial
  · dsimp only
    split
    · exact h0.readLine _ _ _
    · refine Acc.All.ite ((h1.fillLine x a).bind fun r u hu => ?_) ((h1.busRead _ _ _ _).bind fun r u hu => ?_) _
      · split
        · exact hu.readLine _ _ _
        · exact hu
      · split <;> exact hu

theorem noteBreak (h : Unstored s t) (a : Word) (n : Nat) (st : Bool) : Unstored s (t.noteBreak a n st) := by
  unfold State.noteBreak
  split <;> exact h

theorem readMem (h : Unstored s t) (n : Nat) (va : Word) (pr : Bool) : (readMem n va pr t).All (Unstored s) :=
  (Closed.alignData h n va).bind fun a _ h1 => ((h1.translate _ _ _ _).faultAt _).bind fun x _ h2 =>
    ((h2.noteBreak a n false).dataRead x _ n).bind fun _ _ h3 => h3

theorem readWord (h : Unstored s t) (va : Word) (pr : Bool) : (readWord va pr t).All (Unstored s) :=
  (h.readMem 4 va pr).bind fun _ _ hu => hu

theorem preload (h : Unstored s t) (va : Word) : (preload va t).All (Unstored s) := by
  have h0 : Unstored s ((t.note 0x0A).note 0x0B) := h
  unfold Machine.preload
  dsimp only
  refine Acc.All.ite (Acc.all_ok h) ?_ _
  split
  · split
    · split
      · exact Acc.All.ite ((h0.fillLine _ _).bind fun _ _ hu => Acc.all_ok hu) (Acc.all_ok h) _
      · exact h
    · exact h
  · exact h

theorem loadRegs (m : BitVec 5) (pr : Bool) (rs : List Reg) (h : Unstored s t) (a : Word) :
    (loadRegs m pr rs a t).All (Unstored s) := by
  induction rs generalizing t a with
  | nil => exact h
  | cons r rs ih =>
    refine (h.readMem 4 a pr).bind fun v u hu => ?_
    have h1 : Unstored s (u.setBankReg m r v) := hu
    exact ih h1 _

end Unstored
end Sys2Proof.Machine
end

section
/-!
PROOFS. An instruction that is no store leaves every byte of memory as it was (O38): the operations that the instructions share,
the writes of coprocessor registers, then every instruction.
-/

namespace Sys2Proof.Machine
namespace Unstored
variable {s t : State}

/-! ## Registers, exceptions, returns -/

theorem setReg (h : Unstored s t) (r : Reg) (v : Word) : Unstored s (t.setReg r v) := by
  unfold State.setReg
  split <;> exact h

theorem apply (h : Unstored s t) (a : Addr) (rn : Reg) : Unstored s (a.apply rn t) := by
  unfold Addr.apply
  split
  · exact h.setReg _ _
  · exact h

theorem raiseUndef (h : Unstored s t) : Out.All (Unstored s) (raiseUndef t) := by
  refine Out.All.ite (Out.all_fault _ _) (Out.all_next ?_) _
  exact h

theorem raiseSwi (h : Unstored s t) : Out.All (Unstored s) (raiseSwi t) := by
  unfold Machine.raiseSwi
  split
  · trivial
  · show Unstored s (if t.mode == modeSvc then t.note 0x0D else t)
    split <;> exact h

theorem breakpoint (h : Unstored s t) : Out.All (Unstored s) (breakpoint t) := by
  unfold Machine.breakpoint debugException
  split
  · exact h
  · split <;> exact h

theorem exceptionReturn (h : Unstored s t) (v : Word) : Out.All (Unstored s) (exceptionReturn v t) := by
  unfold Machine.exceptionReturn
  split
  · trivial
  · exact h

theorem armCond (h : Unstored s t) (c : Cond) {k : Out} (hk : Out.All (Unstored s) k) : Out.All (Unstored s) (armCond c t k) := by
  refine hk.ite (Out.all_next ?_) _
  exact h

/-- The end of an instruction that accesses memory: a data abort stores nothing either. -/
theorem finish {α : Type} {x : Acc α} (hx : x.All (Unstored s)) (counted : Bool) {wb : State → State}
    (hwb : ∀ {u : State}, Unstored s u → Unstored s (wb u)) {k : α → State → Out}
    (hk : ∀ v {u : State}, Unstored s u → Out.All (Unstored s) (k v u)) : Out.All (Unstored s) (x.finish counted wb k) := by
  cases x with
  | ok v u => exact hk v hx
  | abort f u =>
    have hu : Unstored s (u.recordFault f).setSticky := hx
    unfold Acc.finish
    dsimp only
    split
    · exact hwb hu
    · exact hx
  | fault e => trivial
  | refused e => trivial

/-! ## Data processing, multiplies, branches -/

theorem writeReg (h : Unstored s t) (rd : Reg) (v : Word) : Out.All (Unstored s) (writeReg rd v t) := h.setReg rd v

theorem writeAlu (h : Unstored s t) (sb : Bool) (rd : Reg) (r : AluResult) : Out.All (Unstored s) (writeAlu sb rd r t) := by
  refine Out.All.ite (Out.All.ite (h.exceptionReturn _) (Out.all_next ?_) _) (Out.all_next ?_) _
  · exact h
  · exact h.setReg rd r.value

theorem writeFlags (h : Unstored s t) (r : AluResult) : Out.All (Unstored s) (writeFlags r t) := h

theorem writeSum (h : Unstored s t) (rd : Reg) (v : Word) : Out.All (Unstored s) (writeSum rd v t) := by
  refine Out.All.ite (Out.all_next ?_) (h.writeReg rd v) _
  exact h

theorem writeProduct (h : Unstored s t) (sb : Bool) (rd : Reg) (v : Word) : Out.All (Unstored s) (writeProduct sb rd v t) :=
  h.setReg rd v

theorem writeLong (h : Unstored s t) (sb : Bool) (hi lo : Reg) (v : BitVec 64) :
    Out.All (Unstored s) (writeLong sb hi lo v t) := (h.setReg hi _).setReg lo _

theorem writeSticky (h : Unstored s t) (rd : Reg) (v : Word) (q : Bool) : Out.All (Unstored s) (writeSticky rd v q t) :=
  h.setReg rd v

theorem withAcc (h : Unstored s t) {k : Out} (hk : Out.All (Unstored s) k) (acc : BitVec 3) (rs : List Reg) :
    Out.All (Unstored s) (withAcc acc rs t k) := h.raiseUndef.ite ((Out.all_refused _ _).ite (hk.noR15 rs) _) _

theorem accumulate (h : Unstored s t) (p : Int) : Out.All (Unstored s) (accumulate p t) := h

theorem msr (h : Unstored s t) (r : Bool) (mask : BitVec 4) (v : Word) : Out.All (Unstored s) (msr r mask v t) := by
  unfold Machine.msr msrSpsr msrCpsr
  dsimp only
  split
  · split
    · trivial
    · exact h
  · split
    · split
      · trivial
      · split
        · trivial
        · exact h
    · exact h

theorem execMrs (h : Unstored s t) (c : Cond) (r : Bool) (rd : Reg) : Out.All (Unstored s) (execMrs c r rd t) := by
  refine h.armCond c (Out.All.noR15 (Out.All.ite ?_ (h.writeReg rd _) _) _)
  split
  · trivial
  · exact h.writeReg rd _

theorem noteBranch (h : Unstored s t) : Unstored s t.noteBranch := h

theorem predictedBranch (h : Unstored s t) (word : Word) (taken : Bool) (target : Word) :
    Out.All (Unstored s) (predictedBranch word taken target t) := by
  have noted (right : Bool) : Unstored s (if right then t.note 0x05 else (t.note 0x05).note 0x06) := by cases right <;> exact h
  have recorded : Unstored s (t.recordBranch word taken target) := by
    unfold State.recordBranch
    dsimp only
    split
    · split
      · exact noted _
      · split <;> exact noted _
    · exact noted _
  unfold Machine.predictedBranch
  dsimp only
  split <;> exact recorded

theorem branchExchange (h : Unstored s t) (v : Word) : Out.All (Unstored s) (branchExchange v t) := by
  refine Out.All.ite (Out.all_fault _ _) (Out.all_next ?_) _
  exact h

/-! ## Loads -/

theorem writeLoaded (h : Unstored s t) (rd : Reg) (v : Word) : Out.All (Unstored s) (writeLoaded rd v t) := by
  refine Out.All.ite (Out.all_next ?_) (h.writeReg rd v) _
  exact h

theorem loadWord (h : Unstored s t) (pr : Bool) (a : Addr) (rn rd : Reg) : Out.All (Unstored s) (loadWord pr a rn rd t) :=
  finish (h.readWord _ _) _ (·.apply a rn) fun _ _ hu => (hu.apply a rn).writeLoaded _ _

theorem loadSmall (h : Unstored s t) (n : Nat) (sg pr : Bool) (a : Addr) (rn rd : Reg) :
    Out.All (Unstored s) (loadSmall n sg pr a rn rd t) :=
  finish (h.readMem _ _ _) _ (·.apply a rn) fun _ _ hu => (hu.apply a rn).writeLoaded _ _

theorem doubleRegs (h : Unstored s t) {k : Out} (hk : Out.All (Unstored s) k) (rd : Reg) :
    Out.All (Unstored s) (doubleRegs rd t k) := h.raiseUndef.ite ((Out.all_refused _ _).ite hk _) _

theorem loadDouble (h : Unstored s t) (a : Addr) (rn rd : Reg) : Out.All (Unstored s) (loadDouble a rn rd t) := by
  refine finish ?_ _ (·.apply a rn) fun v _ hu => Out.all_next (((hu.apply a rn).setReg rd v.1).setReg (rd + 1) v.2)
  exact (Closed.alignDouble h _).bind fun va _ h1 => (h1.readMem 4 va _).bind fun _ _ h2 =>
    (h2.readMem 4 (va + 4) _).bind fun _ _ h3 => h3

theorem loadList (h : Unstored s t) (m : BitVec 5) (rs : List Reg) (pc : Bool) (start : Word) (rn : Reg) :
    (loadList m rs pc start rn t).All (Unstored s) := by
  refine Acc.All.onAbort ?_ fun u hu => Unstored.setReg hu rn _
  exact (loadRegs m _ rs h start).bind fun _ _ hu => Acc.All.ite (hu.readMem 4 _ _) (Acc.all_ok hu) _

theorem loadMultiple (h : Unstored s t) (a : Addr) (rn : Reg) (list : BitVec 16) :
    Out.All (Unstored s) (loadMultiple a rn list t) := by
  refine finish (h.loadList _ _ _ _ _) _ (·.apply a rn) fun v u hu => ?_
  have h1 := hu.apply a rn
  dsimp only
  split <;> exact h1

theorem userBank {k : Out} (hk : Out.All (Unstored s) k) (a : Mode4) (u : State) :
    Out.All (Unstored s) (userBank a u k) := (Out.all_refused _ _).ite ((Out.all_fault _ _).ite hk _) _

theorem preloadAt (h : Unstored s t) (va : Word) : Out.All (Unstored s) (preloadAt va t) :=
  finish (h.preload va) _ id fun _ _ hu => Out.all_next hu

/-! ## Coprocessor registers (11_state R94 to R130, 12_state R141, R159) -/

theorem cacheFunction (h : Unstored s t) (crm : BitVec 4) (op2 : BitVec 3) (v : Word) :
    (cacheFunction crm op2 v t).All (Unstored s) := by
  unfold Machine.cacheFunction
  repeat' with_reducible refine Acc.All.ite ?_ ?_ _
  · exact h.invalidateDCache
  · exact h
  · exact h
  · exact h.invalidateDCache
  · exact h.invalidateDLine v
  · exact h.cleanDLine v
  · exact h
  · exact h
  · exact h.lineAllocate v
  · trivial

theorem tlbFunction (h : Unstored s t) (crm : BitVec 4) (op2 : BitVec 3) (v : Word) :
    (tlbFunction crm op2 v t).All (Unstored s) := by
  unfold Machine.tlbFunction
  repeat' with_reducible refine Acc.All.ite ?_ ?_ _
  iterate 5 · exact h
  · trivial

theorem cacheLockFunction (h : Unstored s t) (crm : BitVec 4) (op2 : BitVec 3) (v : Word) :
    (cacheLockFunction crm op2 v t).All (Unstored s) := by
  unfold Machine.cacheLockFunction
  repeat' with_reducible refine Acc.All.ite ?_ ?_ _
  · exact h.fetchAndLockI v
  · exact h
  · trivial
  · exact h
  · exact h.unlockDCache
  · trivial
  · trivial

theorem tlbLockFunction (h : Unstored s t) (crm : BitVec 4) (op2 : BitVec 3) (v : Word) :
    (tlbLockFunction crm op2 v t).All (Unstored s) := by
  unfold Machine.tlbLockFunction
  repeat' with_reducible refine Acc.All.ite ?_ ?_ _
  · exact h.translateAndLock true v
  · exact h.translateAndLock false v
  · exact h
  · trivial
  · exact h
  · trivial
  · trivial

theorem writeAuxControl (h : Unstored s t) (v : Word) : (writeAuxControl v t).All (Unstored s) := by
  refine Acc.All.ite Acc.all_fault (Acc.all_ok ?_) _
  exact h

theorem writeCpar (h : Unstored s t) (v : Word) : (writeCpar v t).All (Unstored s) := by
  refine Acc.All.ite Acc.all_fault (Acc.all_ok ?_) _
  exact h

theorem writeBreakpoint (h : Unstored s t) (crm : BitVec 4) (v : Word) : (writeBreakpoint crm v t).All (Unstored s) := by
  unfold Machine.writeBreakpoint writeIbcr
  repeat' with_reducible refine Acc.All.ite ?_ ?_ _
  all_goals first | exact h | trivial

theorem writeCp15 (h : Unstored s t) (crn crm : BitVec 4) (op2 : BitVec 3) (v : Word) :
    (writeCp15 crn crm op2 v t).All (Unstored s) := by
  unfold Machine.writeCp15
  dsimp only
  repeat' with_reducible refine Acc.All.ite ?_ ?_ _
  · exact h
  · exact h
  · exact h.writeAuxControl v
  iterate 4 · exact h
  · exact h.cacheFunction crm op2 v
  · exact h.tlbFunction crm op2 v
  · exact h.cacheLockFunction crm op2 v
  · exact h.tlbLockFunction crm op2 v
  · exact h
  · exact h.writeBreakpoint crm v
  · exact h.writeCpar v
  · trivial

/-- The registers of coprocessors 14 and 13 have nothing to do with memory. -/
theorem writeCp14 (h : Unstored s t) (crn : BitVec 4) (v : Word) : (writeCp14 crn v t).All (Unstored s) := by
  have tx : Unstored s (t.writeTx v) := by
    unfold State.writeTx
    split <;> exact h
  have dcsr : Unstored s (t.writeDcsr v) := by
    unfold State.writeDcsr
    dsimp only
    split
    · exact h
    · split <;> exact h
  unfold Machine.writeCp14 writeCclkcfg writePwrmode
  dsimp only
  repeat' with_reducible refine Acc.All.ite ?_ ?_ _
  all_goals first | exact h | exact tx | exact dcsr | trivial

theorem writeCp13 (h : Unstored s t) (crn crm : BitVec 4) (v : Word) : (writeCp13 crn crm v t).All (Unstored s) := by
  unfold Machine.writeCp13 writeBcuctl writeEctst
  dsimp only
  repeat' with_reducible refine Acc.All.ite ?_ ?_ _
  all_goals first | exact h | trivial

theorem cpWrite (h : Unstored s t) (cp crn crm : BitVec 4) (op2 : BitVec 3) (v : Word) :
    (cpWrite cp crn crm op2 v t).All (Unstored s) :=
  Acc.All.ite (h.writeCp15 crn crm op2 v) (Acc.All.ite (h.writeCp14 crn v) (h.writeCp13 crn crm v) _) _

theorem cpRead (h : Unstored s t) (cp crn crm : BitVec 4) (op2 : BitVec 3) :
    (cpRead cp crn crm op2 t).All (Unstored s) := by
  unfold Machine.cpRead readCp15 readBreakpoint readCp14 readTbreg readCp13
  dsimp only
  repeat' with_reducible refine Acc.All.ite ?_ ?_ _
  all_goals first | exact h | trivial

theorem cpChecked (h : Unstored s t) {k : Out} (hk : Out.All (Unstored s) k) (accepted : Bool) (cp crn : BitVec 4) :
    Out.All (Unstored s) (cpChecked accepted cp crn t k) :=
  h.raiseUndef.ite (h.raiseUndef.ite (h.raiseUndef.ite hk _) _) _

theorem moveToCp (h : Unstored s t) (crn : BitVec 4) (rd : Reg) (cp : BitVec 4) (op2 : BitVec 3) (crm : BitVec 4) :
    Out.All (Unstored s) (moveToCp crn rd cp op2 crm t) := by
  refine (Out.all_refused _ _).ite (finish (h.cpWrite _ _ _ _ _) _ id fun _ u hu => ?_) _
  exact hu

theorem moveFromCp (h : Unstored s t) (crn : BitVec 4) (rd : Reg) (cp : BitVec 4) (op2 : BitVec 3) (crm : BitVec 4) :
    Out.All (Unstored s) (moveFromCp crn rd cp op2 crm t) := by
  refine finish (h.cpRead _ _ _ _) _ id fun v u hu => Out.All.ite ?_ (hu.writeReg rd v) _
  exact hu

theorem loadToCp (h : Unstored s t) (a : Addr) (rn : Reg) (crd cp : BitVec 4) :
    Out.All (Unstored s) (loadToCp a rn crd cp t) :=
  finish ((h.readMem 4 _ _).bind fun v _ hu => hu.cpWrite cp crd 0 0 v) _ (·.apply a rn) fun _ _ hu =>
    Out.all_next (hu.apply a rn)

/-! ## LDM (2), LDM (3), MAR, MRA and the branches that link -/

theorem loadUserBank (h : Unstored s t) (rs : List Reg) (start : Word) (rn : Reg) : Out.All (Unstored s)
    ((Machine.loadList modeUsr rs false start rn t).finish true id fun _ u => .next (u.advance u.isize)) := by
  refine finish (h.loadList _ _ _ _ _) _ id fun _ u hu => ?_
  exact hu

theorem loadAndReturn (h : Unstored s t) (rs : List Reg) (a : Addr) (rn : Reg) : Out.All (Unstored s)
    ((Machine.loadList t.mode rs true a.addr rn t).finish false (a.apply rn)
      fun v u => Machine.exceptionReturn v (a.apply rn u)) :=
  finish (h.loadList _ _ _ _ _) _ (·.apply a rn) fun v _ hu => (hu.apply a rn).exceptionReturn v

theorem execMar (h : Unstored s t) (c : Cond) (hi lo : Reg) (sbz : BitVec 5) (acc : BitVec 3) :
    Out.All (Unstored s) (execMar c hi lo sbz acc t) := by
  refine h.armCond c (h.withAcc (Out.All.ite (Out.all_next ?_) (Out.all_refused _ _) _) acc _)
  exact h

theorem execMra (h : Unstored s t) (c : Cond) (hi lo : Reg) (sbz : BitVec 5) (acc : BitVec 3) :
    Out.All (Unstored s) (execMra c hi lo sbz acc t) := by
  refine h.armCond c (h.withAcc (Out.All.ite ((Out.all_refused _ _).ite (Out.all_next ?_) _) (Out.all_refused _ _) _) acc _)
  exact (h.setReg hi _).setReg lo _

theorem execBl (h : Unstored s t) (c : Cond) (imm : BitVec 24) : Out.All (Unstored s) (execBl c imm t) :=
  ((h.setReg 14 _).predictedBranch _ _ _).ite (h.predictedBranch _ _ _) _

theorem execTB2 (h : Unstored s t) (imm : BitVec 11) : Out.All (Unstored s) (execTB2 imm t) := h.predictedBranch _ _ _

theorem execBlx1 (h : Unstored s t) (b : Bool) (imm : BitVec 24) : Out.All (Unstored s) (execBlx1 b imm t) :=
  h.noteBranch.setReg 14 (t.pc + 4)

theorem execTBlFirst (h : Unstored s t) (off : BitVec 11) : Out.All (Unstored s) (execTBlFirst off t) :=
  h.setReg 14 (t.pc + 4 + (off.signExtend 32 <<< 12))

theorem execTBl (h : Unstored s t) (off : BitVec 11) : Out.All (Unstored s) (execTBl off t) :=
  h.noteBranch.setReg 14 t.thumbLink

theorem execTBlx1 (h : Unstored s t) (off : BitVec 10) : Out.All (Unstored s) (execTBlx1 off t) :=
  h.noteBranch.setReg 14 t.thumbLink

/-! ## Every instruction -/

/-- No instruction but a store stores. -/
theorem exec (h : Unstored s t) (i : Instr) : storesData i = false → Out.All (Unstored s) (exec i t) :=
  match i with
  | .andShift c sb _ rd _ | .eorShift c sb _ rd _ | .subShift c sb _ rd _ | .rsbShift c sb _ rd _
  | .addShift c sb _ rd _ | .adcShift c sb _ rd _ | .sbcShift c sb _ rd _ | .rscShift c sb _ rd _
  | .orrShift c sb _ rd _ | .bicShift c sb _ rd _ | .andImm c sb _ rd _ | .eorImm c sb _ rd _ | .subImm c sb _ rd _
  | .rsbImm c sb _ rd _ | .addImm c sb _ rd _ | .adcImm c sb _ rd _ | .sbcImm c sb _ rd _ | .rscImm c sb _ rd _
  | .orrImm c sb _ rd _ | .bicImm c sb _ rd _ | .movShift c sb rd _ | .mvnShift c sb rd _ | .movImm c sb rd _
  | .mvnImm c sb rd _ => fun _ => h.armCond c (h.writeAlu sb rd _)
  | .andRegShift c sb _ rd _ | .eorRegShift c sb _ rd _ | .subRegShift c sb _ rd _ | .rsbRegShift c sb _ rd _
  | .addRegShift c sb _ rd _ | .adcRegShift c sb _ rd _ | .sbcRegShift c sb _ rd _ | .rscRegShift c sb _ rd _
  | .orrRegShift c sb _ rd _ | .bicRegShift c sb _ rd _ | .movRegShift c sb rd _ | .mvnRegShift c sb rd _ => fun _ =>
    h.armCond c ((h.writeAlu sb rd _).noR15 _)
  | .tstShift c .. | .teqShift c .. | .cmpShift c .. | .cmnShift c .. | .tstImm c .. | .teqImm c .. | .cmpImm c ..
  | .cmnImm c .. => fun _ => h.armCond c (h.writeFlags _)
  | .tstRegShift c .. | .teqRegShift c .. | .cmpRegShift c .. | .cmnRegShift c .. => fun _ =>
    h.armCond c ((h.writeFlags _).noR15 _)
  | .mul c sb rd .. | .mla c sb rd .. => fun _ => h.armCond c ((h.writeProduct sb rd _).noR15 _)
  | .umull c sb hi lo .. | .umlal c sb hi lo .. | .smull c sb hi lo .. | .smlal c sb hi lo .. => fun _ =>
    h.armCond c (((Out.all_refused _ _).ite (h.writeLong sb hi lo _) _).noR15 _)
  | .smlalxy c hi lo .. => fun _ => h.armCond c (((Out.all_refused _ _).ite (h.writeLong false hi lo _) _).noR15 _)
  | .smlaxy c rd .. | .smlawy c rd .. | .qadd c _ rd _ | .qsub c _ rd _ | .qdadd c _ rd _ | .qdsub c _ rd _ => fun _ =>
    h.armCond c ((h.writeSticky rd _ _).noR15 _)
  | .smulxy c rd .. | .smulwy c rd .. | .clz c rd _ => fun _ => h.armCond c ((h.writeReg rd _).noR15 _)
  | .mia c _ acc _ | .miaph c _ acc _ | .miabb c _ acc _ | .miabt c _ acc _ | .miatb c _ acc _ | .miatt c _ acc _ => fun _ =>
    h.armCond c (h.withAcc (h.accumulate _) acc _)
  | .mar c hi lo sbz acc => fun _ => h.execMar c hi lo sbz acc
  | .mra c hi lo sbz acc => fun _ => h.execMra c hi lo sbz acc
  | .mrs c r rd => fun _ => h.execMrs c r rd
  | .msrReg c r mask _ => fun _ => h.armCond c ((h.msr r mask _).noR15 _)
  | .msrImm c r mask _ => fun _ => h.armCond c (h.msr r mask _)
  | .undefMul c .. | .undefMisc c .. | .undefMsr c .. | .undefMedia c .. | .cdp c .. | .mcrr c .. | .mrrc c .. => fun _ =>
    h.armCond c h.raiseUndef
  | .undefUncond _ | .tUndefMisc _ | .tUndefCond _ | .tUndefBlx _ => fun _ => h.raiseUndef
  | .swi c _ => fun _ => h.armCond c h.raiseSwi
  | .tSwi _ => fun _ => h.raiseSwi
  | .bkpt c _ => fun _ => h.armCond c (h.breakpoint.ite (Out.all_refused _ _) _)
  | .tBkpt _ => fun _ => h.breakpoint
  | .b .. | .tB1 .. => fun _ => h.predictedBranch _ _ _
  | .tB2 imm => fun _ => h.execTB2 imm
  | .bl c imm => fun _ => h.execBl c imm
  | .blx1 b imm => fun _ => h.execBlx1 b imm
  | .tBlFirst off => fun _ => h.execTBlFirst off
  | .tBl off => fun _ => h.execTBl off
  | .tBlx1 off => fun _ => h.execTBlx1 off
  | .bx c _ => fun _ => h.noteBranch.armCond c (h.noteBranch.branchExchange _)
  | .blx2 c _ => fun _ => h.noteBranch.armCond c (((h.noteBranch.setReg 14 _).branchExchange _).noR15 _)
  | .tBx _ => fun _ => h.noteBranch.branchExchange _
  | .tBlx2 _ => fun _ => ((h.noteBranch.setReg 14 _).branchExchange _).noR15 _
  | .ldrtImm c _ rn rd _ | .ldrtReg c _ rn rd _ => fun _ =>
    h.armCond c (((h.loadWord false _ rn rd).unlessRefused _).noR15 _)
  | .ldrbtImm c _ rn rd _ | .ldrbtReg c _ rn rd _ => fun _ =>
    h.armCond c (((h.loadSmall 1 false false _ rn rd).unlessRefused _).noR15 _)
  | .ldrImm c a rd _ | .ldrReg c a rd _ => fun _ =>
    h.armCond c ((((h.loadWord _ _ a.rn rd).notInDebug t).ite (h.loadWord _ _ a.rn rd) _).unlessRefused _)
  | .ldrbImm c a rd _ | .ldrbReg c a rd _ => fun _ =>
    h.armCond c (((h.loadSmall 1 false _ _ a.rn rd).unlessRefused _).noR15 _)
  | .ldrhImm c a rd _ | .ldrhReg c a rd _ => fun _ =>
    h.armCond c (((h.loadSmall 2 false _ _ a.rn rd).unlessRefused _).noR15 _)
  | .ldrshImm c a rd _ | .ldrshReg c a rd _ => fun _ =>
    h.armCond c (((h.loadSmall 2 true _ _ a.rn rd).unlessRefused _).noR15 _)
  | .ldrsbImm c a rd _ | .ldrsbReg c a rd _ => fun _ => h.armCond c ((h.loadSmall 1 true _ _ a.rn rd).unlessRefused _)
  | .ldrdImm c a rd _ => fun _ => h.armCond c (h.doubleRegs ((h.loadDouble _ a.rn rd).unlessRefused _) rd)
  | .ldrdReg c a rd _ => fun _ =>
    h.armCond c (h.doubleRegs (((Out.all_refused _ _).ite (h.loadDouble _ a.rn rd) _).unlessRefused _) rd)
  | .ldm1 c a list => fun _ =>
    h.armCond c (((Out.all_refused _ _).ite ((h.loadMultiple _ a.rn list).notInDebug t) _).unlessRefused _)
  | .ldm2 c a _ => fun _ => h.armCond c ((userBank ((h.loadUserBank _ _ a.rn).notInDebug t) a t).unlessRefused _)
  | .ldm3 c a _ => fun _ =>
    h.armCond c (((Out.all_refused _ _).ite ((h.loadAndReturn _ _ a.rn).notInDebug t) _).unlessRefused _)
  | .pldImm .. => fun _ => h.preloadAt _
  | .pldReg .. => fun _ => (h.preloadAt _).noR15 _
  | .mcr c _ crn rd cp op2 crm => fun _ => h.armCond c (h.cpChecked (h.moveToCp crn rd cp op2 crm) _ cp crn)
  | .mrc c _ crn rd cp op2 crm => fun _ => h.armCond c (h.cpChecked (h.moveFromCp crn rd cp op2 crm) _ cp crn)
  | .ldc c a crd cp _ => fun _ =>
    h.armCond c (h.cpChecked (((h.loadToCp _ a.rn crd cp).notInDebug t).unlessRefused _) _ cp crd)
  | .tLsl1 _ _ rd | .tLsr1 _ _ rd | .tAsr1 _ _ rd | .tAdd3 _ _ rd | .tSub3 _ _ rd | .tAdd1 _ _ rd | .tSub1 _ _ rd
  | .tMov1 rd _ | .tAdd2 rd _ | .tSub2 rd _ | .tAnd _ rd | .tEor _ rd | .tLsl2 _ rd | .tLsr2 _ rd | .tAsr2 _ rd
  | .tAdc _ rd | .tSbc _ rd | .tRor _ rd | .tNeg _ rd | .tOrr _ rd | .tBic _ rd | .tMvn _ rd => fun _ =>
    h.writeAlu true (lowReg rd) _
  | .tCmp1 .. | .tTst .. | .tCmp2 .. | .tCmn .. => fun _ => h.writeFlags _
  | .tMul _ rd => fun _ => h.writeProduct true (lowReg rd) _
  | .tAdd4 d _ | .tMov3 d _ => fun _ => (Out.all_refused _ _).ite (h.writeSum d _) _
  | .tCmp3 .. => fun _ => (Out.all_refused _ _).ite ((h.writeFlags _).noR15 _) _
  | .tAdd5 rd _ | .tAdd6 rd _ => fun _ => h.writeReg (lowReg rd) _
  | .tAdd7 _ | .tSub4 _ => fun _ => h.writeReg 13 _
  | .tLdr3 rd _ => fun _ => h.loadWord _ _ 15 (lowReg rd)
  | .tLdr2 _ rn rd | .tLdr1 _ rn rd => fun _ => h.loadWord _ _ (lowReg rn) (lowReg rd)
  | .tLdr4 rd _ => fun _ => h.loadWord _ _ 13 (lowReg rd)
  | .tLdrsb _ rn rd => fun _ => h.loadSmall 1 true _ _ (lowReg rn) (lowReg rd)
  | .tLdrsh _ rn rd => fun _ => h.loadSmall 2 true _ _ (lowReg rn) (lowReg rd)
  | .tLdrh2 _ rn rd | .tLdrh1 _ rn rd => fun _ => h.loadSmall 2 false _ _ (lowReg rn) (lowReg rd)
  | .tLdrb2 _ rn rd | .tLdrb1 _ rn rd => fun _ => h.loadSmall 1 false _ _ (lowReg rn) (lowReg rd)
  | .tPop .. => fun _ => ((h.loadMultiple _ 13 _).notInDebug t).unlessRefused _
  | .tLdmia rn _ => fun _ => ((h.loadMultiple _ (lowReg rn) _).notInDebug t).unlessRefused _
  | .strtImm .. | .strtReg .. | .strbtImm .. | .strbtReg .. | .strImm .. | .strReg .. | .strbImm .. | .strbReg ..
  | .strhImm .. | .strhReg .. | .strdImm .. | .strdReg .. | .stm1 .. | .stm2 .. | .swp .. | .swpb .. | .stc ..
  | .tStr2 .. | .tStr1 .. | .tStrh2 .. | .tStrh1 .. | .tStrb2 .. | .tStrb1 .. | .tStr3 .. | .tPush .. | .tStmia .. =>
    fun stores => nomatch stores

end Unstored

/-- Settles O38: nothing is stored, whatever the instruction does, and `Unstored` says so of each byte. -/
theorem onlyStoresChangeMemory : Obligations.OnlyStoresChangeMemory := by
  unfold Obligations.OnlyStoresChangeMemory
  intro i s t hi hd hm ht a ha
  have kept : Unstored s t := ((Unstored.refl hm hd).exec i hi).next ht
  exact kept.byteAt ha

end Sys2Proof.Machine
end

section
/-!
PROOFS. The access check (O40): what it answers by domain and AP field.
-/

namespace Sys2Proof.Machine

/-! ## The access check (21_mmu R275, R277) -/

/-- A domain's field of the DACR. -/
def State.domainAccess (s : State) (domain : BitVec 4) : BitVec 2 := (s.cp15.dacr >>> (2 * domain.toNat)).extractLsb' 0 2

/-- What Control.S and R make of an AP field for an access. -/
def State.permits (s : State) (ap : BitVec 2) (write priv : Bool) : Option Bool :=
  permitted ap (s.cp15.control.getLsbD 8) (s.cp15.control.getLsbD 9) write priv

/-- The domain fault of an access that the entry translates (60_exceptions R711). -/
def TlbEntry.domainFault (e : TlbEntry) (mva : Word) : DataFault :=
  { code := if e.size = .sect then .domSection else .domPage, mva := mva, domain := e.domain }

/-- Its permission fault. -/
def TlbEntry.permissionFault (e : TlbEntry) (mva : Word) : DataFault :=
  { code := if e.size = .sect then .permSection else .permPage, mva := mva, domain := e.domain }

section
variable {e : TlbEntry} {mva : Word} {w p : Bool} {s : State}

theorem checkAccess_manager (h : s.domainAccess e.domain = 0b11) : checkAccess e mva w p s = .ok () s := if_pos h

theorem checkAccess_denied (h : s.domainAccess e.domain = 0b00 ∨ s.domainAccess e.domain = 0b10) :
    checkAccess e mva w p s = .abort (e.domainFault mva) s := by
  rw [State.domainAccess] at h
  rcases h with h | h <;> simp [checkAccess, h, TlbEntry.domainFault]

theorem checkAccess_permitted (h : s.domainAccess e.domain = 0b01) (hp : s.permits (e.apAt mva) w p = some true) :
    checkAccess e mva w p s = .ok () s := by
  rw [State.domainAccess] at h
  rw [State.permits] at hp
  simp only [checkAccess, h, hp]
  rfl

theorem checkAccess_forbidden (h : s.domainAccess e.domain = 0b01) (hp : s.permits (e.apAt mva) w p = some false) :
    checkAccess e mva w p s = .abort (e.permissionFault mva) s := by
  rw [State.domainAccess] at h
  rw [State.permits] at hp
  simp only [checkAccess, h, hp, TlbEntry.permissionFault, beq_iff_eq]
  rfl

theorem checkAccess_reserved (h : s.domainAccess e.domain = 0b01) (hp : s.permits (e.apAt mva) w p = none) :
    checkAccess e mva w p s = .fault .reservedPermission := by
  rw [State.domainAccess] at h
  rw [State.permits] at hp
  simp only [checkAccess, h, hp]
  rfl

end

/-! ## The table of R277 -/

section
variable (s : State) (w p : Bool)

theorem permits_open : s.permits 0b11 w p = some true := rfl

theorem permits_userReadOnly : s.permits 0b10 w p = some (p || !w) := rfl

theorem permits_privileged : s.permits 0b01 w p = some p := rfl

/-- AP = 00 is governed by Control.S and R: S opens reads to privileged accesses, R to all. -/
theorem permits_system {sys rom : Bool} (hs : s.cp15.control.getLsbD 8 = sys) (hr : s.cp15.control.getLsbD 9 = rom) :
    s.permits 0b00 w p = if sys && rom then none else some ((sys && p || rom) && !w) := by
  rw [State.permits, hs, hr, permitted, if_pos rfl]
  cases sys <;> cases rom <;> simp

end

/-- Settles O40: the domain decides, and for a client the row of the table that the AP field selects. -/
theorem accessPermissions : Obligations.AccessPermissions := by
  unfold Obligations.AccessPermissions
  intro e mva w s
  refine ⟨fun hd p => checkAccess_manager hd, fun hd p => checkAccess_denied hd, fun hd => ?_⟩
  have pass {p : Bool} (h : s.permits (e.apAt mva) w p = some true) := checkAccess_permitted (w := w) hd h
  have stop {p : Bool} (h : s.permits (e.apAt mva) w p = some false) := checkAccess_forbidden (w := w) hd h
  refine ⟨fun ap p => pass ?_, fun ap => ⟨pass ?_, fun hw => stop ?_, fun hw => pass ?_⟩, fun ap => ⟨pass ?_, stop ?_⟩,
    fun ap => ⟨fun sys rom p => stop ?_, fun sys rom => ⟨stop ?_, fun hw => stop ?_, fun hw => pass ?_⟩,
      fun sys rom p => ⟨fun hw => stop ?_, fun hw => pass ?_⟩, fun sys rom p => checkAccess_reserved hd ?_⟩⟩
  · rw [ap, permits_open]
  · rw [ap, permits_userReadOnly, Bool.true_or]
  · rw [ap, permits_userReadOnly, hw]; rfl
  · rw [ap, permits_userReadOnly, hw]; rfl
  · rw [ap, permits_privileged]
  · rw [ap, permits_privileged]
  · rw [ap, permits_system s w p sys rom]; rfl
  · rw [ap, permits_system s w _ sys rom]; rfl
  · rw [ap, permits_system s w _ sys rom, hw]; rfl
  · rw [ap, permits_system s w _ sys rom, hw]; rfl
  · rw [ap, permits_system s w p sys rom, hw]; rfl
  · rw [ap, permits_system s w p sys rom, hw]; rfl
  · rw [ap, permits_system s w p sys rom]; rfl

end Sys2Proof.Machine
end

section
/-!
PROOFS. The table walk (O39): the addresses it reads, what the descriptors there make of it, and what a translation answers that
misses the TLB.
-/

namespace Sys2Proof.Machine

/-! ## Where the descriptors stand (21_mmu R262 to R264) -/

/-- Upper bits of a base, a word's index and 00, written as an address of a table entry. -/
theorem append_index_eq {m k : Nat} (base keep : Word) (index : BitVec m) (h : k + m + 2 = 32)
    (hk : ∀ i < 32, keep.getLsbD i = decide (m + 2 ≤ i)) :
    BitVec.cast h (base.extractLsb' (m + 2) k ++ index ++ 0#2) = (base &&& keep) ||| (index.setWidth 32 <<< 2) := by
  refine BitVec.eq_of_getLsbD_eq fun i hi => ?_
  rw [getLsbD_append', BitVec.getLsbD_or, BitVec.getLsbD_and, hk i hi, BitVec.getLsbD_shiftLeft, BitVec.getLsbD_append]
  by_cases low : i < 2
  · simp only [low, BitVec.getLsbD_zero, decide_eq_false (show ¬m + 2 ≤ i by omega), if_true, decide_true, Bool.not_true,
      Bool.and_false, Bool.false_and, Bool.or_self]
  · by_cases mid : i - 2 < m
    · simp [low, mid, hi, show ¬m + 2 ≤ i by omega, show i - 2 < 32 by omega]
    · simp [low, mid, hi, show m + 2 + (i - 2 - m) = i by omega, show m + 2 ≤ i by omega, show i - 2 - m < k by omega,
        BitVec.getLsbD_of_ge index (i - 2) (by omega)]

theorem shiftRight_twenty (mva : Word) : mva >>> 20 = (mva.extractLsb' 20 12).setWidth 32 := by
  refine BitVec.eq_of_getLsbD_eq fun i hi => ?_
  simp only [BitVec.getLsbD_ushiftRight, BitVec.getLsbD_setWidth, BitVec.getLsbD_extractLsb', hi, decide_true, Bool.true_and]
  by_cases h : i < 12
  · simp [h]
  · simp [h, BitVec.getLsbD_of_ge mva (20 + i) (by omega)]

/-- The address of the first-level descriptor. -/
def State.firstLevelAddress (s : State) (mva : Word) : Word := (s.cp15.ttbr &&& 0xFFFFC000) ||| ((mva >>> 20) <<< 2)

/-- That of the second-level descriptor in the coarse or fine table that a first-level descriptor names. -/
def secondLevelAddress (coarse : Bool) (l1 mva : Word) : Word :=
  if coarse then (l1 &&& 0xFFFFFC00) ||| ((mva.extractLsb' 12 8).setWidth 32 <<< 2)
  else (l1 &&& 0xFFFFF000) ||| ((mva.extractLsb' 10 10).setWidth 32 <<< 2)

theorem firstLevelAddress_eq (s : State) (mva : Word) :
    s.cp15.ttbr.extractLsb' 14 18 ++ mva.extractLsb' 20 12 ++ 0#2 = s.firstLevelAddress mva := by
  rw [State.firstLevelAddress, shiftRight_twenty]
  exact append_index_eq _ _ _ rfl (by decide)

theorem coarseAddress_eq (l1 mva : Word) :
    l1.extractLsb' 10 22 ++ mva.extractLsb' 12 8 ++ 0#2 = secondLevelAddress true l1 mva :=
  append_index_eq _ _ _ rfl (by decide)

theorem fineAddress_eq (l1 mva : Word) :
    l1.extractLsb' 12 20 ++ mva.extractLsb' 10 10 ++ 0#2 = secondLevelAddress false l1 mva :=
  append_index_eq _ _ _ rfl (by decide)

/-! ## The descriptors -/

/-- Table walks read plain memory: no request aborts, no other master writes, no ECC of page tables. -/
structure State.PlainTables (s : State) : Prop where
  regions : s.board.abortRegions = []
  between : s.board.between = []
  noEcc : s.cp15.auxControl.getLsbD 1 = false

/-- The word of memory at a physical address. -/
def State.descriptorAt (s : State) (a : Word) : Word := BitVec.ofNat 32 (assemble s.bigEndian (s.bytesAt a 4))

/-- The first-level descriptor of an MVA. -/
def State.firstLevel (s : State) (mva : Word) : Word := s.descriptorAt (s.firstLevelAddress mva)

/-- Its second-level descriptor. -/
def State.secondLevel (s : State) (coarse : Bool) (mva : Word) : Word :=
  s.descriptorAt (secondLevelAddress coarse (s.firstLevel mva) mva)

/-- A state but for the record of the step's requests and events. -/
def State.withScratch (s : State) (z : Scratch) : State := { s with scratch := z }

theorem descriptorAt_withScratch (s : State) (z : Scratch) (a : Word) : (s.withScratch z).descriptorAt a = s.descriptorAt a := by
  simp only [State.descriptorAt, bytesAt_eq_map]
  rfl

theorem firstLevel_withScratch (s : State) (z : Scratch) (mva : Word) : (s.withScratch z).firstLevel mva = s.firstLevel mva :=
  descriptorAt_withScratch s z _

theorem secondLevel_withScratch (s : State) (z : Scratch) (coarse : Bool) (mva : Word) :
    (s.withScratch z).secondLevel coarse mva = s.secondLevel coarse mva := by
  rw [State.secondLevel, firstLevel_withScratch, descriptorAt_withScratch, State.secondLevel]

section
variable {s : State} {mva : Word}

theorem State.PlainTables.withScratch (h : s.PlainTables) (z : Scratch) : (s.withScratch z).PlainTables :=
  ⟨h.regions, h.between, h.noEcc⟩

theorem readDescriptor_plain (h : s.PlainTables) (pa : Word) (c : FaultCode) (m : Word) (d : BitVec 4) :
    ∃ z, readDescriptor pa c m d s = .ok (s.descriptorAt pa) (s.withScratch z) := by
  obtain ⟨z, hz⟩ := busRead_plain pa pa 4 (p := s.cp15.auxControl.getLsbD 1) (by rw [h.noEcc, Bool.false_and]) h.regions h.between
  exact ⟨z, by rw [readDescriptor, hz]; rfl⟩

theorem readDescriptor_firstLevel (h : s.PlainTables) (mva : Word) :
    ∃ z, readDescriptor (s.firstLevelAddress mva) .extL1 mva 0 s = .ok (s.firstLevel mva) (s.withScratch z) :=
  readDescriptor_plain h _ _ _ _

theorem readDescriptor_secondLevel (h : s.PlainTables) (coarse : Bool) (mva : Word) (d : BitVec 4) (y : Scratch) :
    ∃ z, readDescriptor (secondLevelAddress coarse (s.firstLevel mva) mva) .extL2 mva d (s.withScratch y)
      = .ok (s.secondLevel coarse mva) (s.withScratch z) := by
  obtain ⟨z, hz⟩ := readDescriptor_plain (h.withScratch y) (secondLevelAddress coarse (s.firstLevel mva) mva) .extL2 mva d
  exact ⟨z, by rw [hz, descriptorAt_withScratch]; rfl⟩

/-! ## The walk (R270) -/

/-- The first-level type of a coarse or fine table. -/
def tableType (coarse : Bool) : BitVec 2 := if coarse then 0b01 else 0b11

/-- What a walk gives that reads a second-level descriptor. -/
def pageWalk (coarse : Bool) (l1 l2 mva : Word) (s : State) : Acc TlbEntry :=
  (pageEntry coarse l1 l2 mva).elim (.abort { code := .xlatPage, mva := mva, domain := l1.extractLsb' 5 4 } s) (.ok · s)

theorem walk_unmapped (h : s.PlainTables) (hl : (s.firstLevel mva).extractLsb' 0 2 = 0b00) :
    ∃ z, walk mva s = .abort { code := .xlatSection, mva := mva, domain := 0 } (s.withScratch z) := by
  obtain ⟨z, hz⟩ := readDescriptor_firstLevel h mva
  exact ⟨z, by rw [walk, firstLevelAddress_eq, hz]; exact if_pos hl⟩

theorem walk_section (h : s.PlainTables) (hl : (s.firstLevel mva).extractLsb' 0 2 = 0b10) :
    ∃ z, walk mva s = .ok (sectionEntry (s.firstLevel mva) mva) (s.withScratch z) := by
  obtain ⟨z, hz⟩ := readDescriptor_firstLevel h mva
  exact ⟨z, by rw [walk, firstLevelAddress_eq, hz]; exact (if_neg (by rw [hl]; decide)).trans (if_pos hl)⟩

theorem walk_table (h : s.PlainTables) {coarse : Bool} (hl : (s.firstLevel mva).extractLsb' 0 2 = tableType coarse) :
    ∃ z, walk mva s = pageWalk coarse (s.firstLevel mva) (s.secondLevel coarse mva) mva (s.withScratch z) := by
  obtain ⟨y, hy⟩ := readDescriptor_firstLevel h mva
  obtain ⟨z, hz⟩ := readDescriptor_secondLevel h coarse mva ((s.firstLevel mva).extractLsb' 5 4) y
  have notFault : tableType coarse ≠ 0b00 := by cases coarse <;> decide
  have notSection : tableType coarse ≠ 0b10 := by cases coarse <;> decide
  have isCoarse : decide (tableType coarse = 0b01) = coarse := by cases coarse <;> decide
  have address : (if coarse then (s.firstLevel mva).extractLsb' 10 22 ++ mva.extractLsb' 12 8 ++ 0#2
      else (s.firstLevel mva).extractLsb' 12 20 ++ mva.extractLsb' 10 10 ++ 0#2)
        = secondLevelAddress coarse (s.firstLevel mva) mva := by
    cases coarse
    · exact fineAddress_eq _ _
    · exact coarseAddress_eq _ _
  refine ⟨z, ?_⟩
  rw [walk, firstLevelAddress_eq, hy]
  simp only [Acc.bind, hl, if_neg notFault, if_neg notSection, isCoarse, address, hz]
  rw [pageWalk]
  cases pageEntry coarse (s.firstLevel mva) (s.secondLevel coarse mva) mva <;> rfl

end

/-! ## A translation that misses the TLB -/

/-- A translation that aborts with the fault; memory is as it was. -/
def State.TranslationAborts (s : State) (instr : Bool) (mva : Word) (w p : Bool) (f : DataFault) : Prop :=
  ∃ t, translate instr mva w p s = .abort f t ∧ t.mem = s.mem

/-- A translation by an entry that the walk makes, with the AP field that governs the MVA: the access check decides between the
entry's answer, the TLB then holding an entry for the MVA, and the entry's faults. -/
def State.TranslatedBy (s : State) (instr : Bool) (mva : Word) (w p : Bool) (e : TlbEntry) (ap : BitVec 2) : Prop :=
  (s.domainAccess e.domain = 0b11 ∨ (s.domainAccess e.domain = 0b01 ∧ s.permits ap w p = some true) →
    ∃ t, translate instr mva w p s = .ok (e.xlat mva) t ∧ t.mem = s.mem ∧ t.cp15 = s.cp15
      ∧ ((t.tlb instr).entries.any fun e => e.hits mva) = true)
  ∧ (s.domainAccess e.domain = 0b01 → s.permits ap w p = some false →
    s.TranslationAborts instr mva w p (e.permissionFault mva))
  ∧ (s.domainAccess e.domain = 0b00 ∨ s.domainAccess e.domain = 0b10 →
    s.TranslationAborts instr mva w p (e.domainFault mva))

/-- The entry's base is that of the MVA's region. -/
def TlbEntry.Covers (e : TlbEntry) (mva : Word) : Prop := mva &&& ~~~e.size.offsetMask = e.mva

theorem Tlb.fill_hits {e : TlbEntry} {mva : Word} (t : Tlb) (h : e.Covers mva) :
    ((t.fill e).entries.any fun e => e.hits mva) = true :=
  List.any_eq_true.2 ⟨_, List.mem_cons_self .., decide_eq_true h⟩

/-- The state of a walk: the miss is counted. -/
def State.missed (s : State) (instr : Bool) : State := s.note (if instr then 0x3 else 0x4)

/-- The MMU is on, and no TLB entry answers for the MVA. -/
structure State.Misses (s : State) (instr : Bool) (mva : Word) : Prop where
  on : s.mmuOn = true
  none : ((s.tlb instr).entries.filter fun e => e.hits mva) = []

section
variable {s : State} {instr w p : Bool} {mva : Word} {z : Scratch}

theorem tlb_setTlb (t : Tlb) : (s.setTlb instr t).tlb instr = t := by
  cases instr <;> rfl

theorem translate_miss (h : s.Misses instr mva) : translate instr mva w p s
    = (walk mva (s.missed instr)).bind fun e s1 =>
        (checkAccess e mva w p (s1.setTlb instr ((s1.tlb instr).fill e))).bind fun _ s2 => .ok (e.xlat mva) s2 := by
  rw [translate, h.on, Bool.not_true, if_neg Bool.false_ne_true, h.none]
  rfl

theorem translationAborts_of_walk (h : s.Misses instr mva) {f : DataFault}
    (hw : walk mva (s.missed instr) = .abort f ((s.missed instr).withScratch z)) : s.TranslationAborts instr mva w p f :=
  ⟨(s.missed instr).withScratch z, by rw [translate_miss h, hw]; rfl, rfl⟩

theorem translatedBy_of_walk (h : s.Misses instr mva) {e : TlbEntry} (hc : e.Covers mva)
    (hw : walk mva (s.missed instr) = .ok e ((s.missed instr).withScratch z)) :
    s.TranslatedBy instr mva w p e (e.apAt mva) := by
  let s1 := (s.missed instr).withScratch z
  let t := s1.setTlb instr ((s1.tlb instr).fill e)
  have mem : t.mem = s.mem := by cases instr <;> rfl
  have cp15 : t.cp15 = s.cp15 := by cases instr <;> rfl
  have domain : t.domainAccess e.domain = s.domainAccess e.domain := by rw [State.domainAccess, cp15, State.domainAccess]
  have perms : t.permits (e.apAt mva) w p = s.permits (e.apAt mva) w p := by rw [State.permits, cp15, State.permits]
  have run : translate instr mva w p s = (checkAccess e mva w p t).bind fun _ s2 => .ok (e.xlat mva) s2 := by
    rw [translate_miss h, hw]
    rfl
  have passes (hp : checkAccess e mva w p t = .ok () t) : ∃ t, translate instr mva w p s = .ok (e.xlat mva) t ∧ t.mem = s.mem
      ∧ t.cp15 = s.cp15 ∧ ((t.tlb instr).entries.any fun e => e.hits mva) = true :=
    ⟨t, by rw [run, hp]; rfl, mem, cp15, by rw [tlb_setTlb]; exact Tlb.fill_hits _ hc⟩
  have aborts {f : DataFault} (ha : checkAccess e mva w p t = .abort f t) : s.TranslationAborts instr mva w p f :=
    ⟨t, by rw [run, ha]; rfl, mem⟩
  rw [State.TranslatedBy, ← domain, ← perms]
  refine ⟨?_, fun hd hp => aborts (checkAccess_forbidden hd hp), fun hd => aborts (checkAccess_denied hd)⟩
  rintro (hd | ⟨hd, hp⟩)
  · exact passes (checkAccess_manager hd)
  · exact passes (checkAccess_permitted hd hp)

end

/-! ## The regions (R263 to R267) -/

/-- One AP field stands in every quarter. -/
theorem apAll_quarter (ap q : BitVec 2) : (apAll ap >>> (2 * q.toNat)).extractLsb' 0 2 = ap := by
  revert ap q
  decide

/-- A page's four AP fields, from bit 4 up. -/
theorem apField_quarter (l2 : Word) (q : BitVec 2) :
    ((l2.extractLsb' 4 8) >>> (2 * q.toNat)).extractLsb' 0 2 = l2.extractLsb' (4 + 2 * q.toNat) 2 := by
  have quarter : q.toNat < 4 := q.isLt
  refine BitVec.eq_of_getLsbD_eq fun i hi => ?_
  simp [show 2 * q.toNat + i < 8 by omega, Nat.add_assoc]

/-- The entry of a page. -/
def pageOf (size : RegionSize) (ap : BitVec 8) (x : Bool) (l1 l2 mva : Word) : TlbEntry :=
  { index := 0, valid := true, locked := false, size := size,
    mva := mva &&& ~~~size.offsetMask, pa := l2 &&& ~~~size.offsetMask, domain := l1.extractLsb' 5 4, ap := ap,
    x := x, c := l2.getLsbD 3, b := l2.getLsbD 2, p := l1.getLsbD 9 }

/-- The pages whose second-level type is 11: extended small ones in coarse tables, tiny ones in fine tables. -/
def extendedSize (coarse : Bool) : RegionSize := if coarse then .small else .tiny

section
variable {coarse : Bool} {l1 l2 mva : Word} {size : RegionSize} {ap : BitVec 8} {x : Bool}

theorem pageEntry_fault (h : l2.extractLsb' 0 2 = 0b00) : pageEntry coarse l1 l2 mva = none := if_pos h

theorem pageEntry_large (h : l2.extractLsb' 0 2 = 0b01) :
    pageEntry coarse l1 l2 mva = some (pageOf .large (l2.extractLsb' 4 8) (l2.getLsbD 12) l1 l2 mva) := by
  simp only [pageEntry, h]
  rfl

theorem pageEntry_small (h : l2.extractLsb' 0 2 = 0b10) :
    pageEntry coarse l1 l2 mva = some (pageOf .small (l2.extractLsb' 4 8) false l1 l2 mva) := by
  simp only [pageEntry, h]
  rfl

theorem pageEntry_extended (h : l2.extractLsb' 0 2 = 0b11) : pageEntry coarse l1 l2 mva
    = some (pageOf (extendedSize coarse) (apAll (l2.extractLsb' 4 2)) (l2.getLsbD 6) l1 l2 mva) := by
  simp only [pageEntry, h]
  cases coarse <;> rfl

theorem sectionEntry_covers : (sectionEntry l1 mva).Covers mva :=
  congrArg (mva &&& ·) (show ~~~(0x000FFFFF : Word) = 0xFFF00000 by decide)

theorem pageOf_covers : (pageOf size ap x l1 l2 mva).Covers mva := rfl

theorem apAt_section : (sectionEntry l1 mva).apAt mva = l1.extractLsb' 10 2 := apAll_quarter _ 0

theorem apAt_large : (pageOf .large (l2.extractLsb' 4 8) x l1 l2 mva).apAt mva
    = l2.extractLsb' (4 + 2 * (mva.extractLsb' 14 2).toNat) 2 := apField_quarter l2 _

theorem apAt_small : (pageOf .small (l2.extractLsb' 4 8) x l1 l2 mva).apAt mva
    = l2.extractLsb' (4 + 2 * (mva.extractLsb' 10 2).toNat) 2 := apField_quarter l2 _

theorem apAt_extended :
    (pageOf (extendedSize coarse) (apAll (l2.extractLsb' 4 2)) x l1 l2 mva).apAt mva = l2.extractLsb' 4 2 := by
  cases coarse
  · exact apAll_quarter _ 0
  · exact apAll_quarter _ _

end

section
variable {s : State} {instr w p coarse : Bool} {mva : Word}

theorem firstLevel_missed : (s.missed instr).firstLevel mva = s.firstLevel mva := firstLevel_withScratch s _ mva

theorem secondLevel_missed : (s.missed instr).secondLevel coarse mva = s.secondLevel coarse mva :=
  secondLevel_withScratch s _ coarse mva

theorem State.PlainTables.missed (h : s.PlainTables) : (s.missed instr).PlainTables := h.withScratch _

theorem translationAborts_unmapped (h : s.Misses instr mva) (ht : s.PlainTables)
    (hl : (s.firstLevel mva).extractLsb' 0 2 = 0b00) :
    s.TranslationAborts instr mva w p { code := .xlatSection, mva := mva, domain := 0 } := by
  rw [← firstLevel_missed (instr := instr)] at hl
  obtain ⟨z, hz⟩ := walk_unmapped ht.missed hl
  exact translationAborts_of_walk h hz

theorem translatedBy_section (h : s.Misses instr mva) (ht : s.PlainTables) (hl : (s.firstLevel mva).extractLsb' 0 2 = 0b10) :
    s.TranslatedBy instr mva w p (sectionEntry (s.firstLevel mva) mva) ((s.firstLevel mva).extractLsb' 10 2) := by
  rw [← firstLevel_missed (instr := instr)] at hl ⊢
  obtain ⟨z, hz⟩ := walk_section ht.missed hl
  rw [← apAt_section (mva := mva)]
  exact translatedBy_of_walk h sectionEntry_covers hz

/-- What the walk of a translation does that misses and finds a coarse or fine table. -/
theorem walk_missed_table (ht : s.PlainTables) (hl : (s.firstLevel mva).extractLsb' 0 2 = tableType coarse) :
    ∃ z, walk mva (s.missed instr)
      = pageWalk coarse (s.firstLevel mva) (s.secondLevel coarse mva) mva ((s.missed instr).withScratch z) := by
  rw [← firstLevel_missed (instr := instr)] at hl ⊢
  rw [← secondLevel_missed (instr := instr)]
  exact walk_table ht.missed hl

theorem translationAborts_page (h : s.Misses instr mva) (ht : s.PlainTables)
    (hl : (s.firstLevel mva).extractLsb' 0 2 = tableType coarse)
    (he : pageEntry coarse (s.firstLevel mva) (s.secondLevel coarse mva) mva = none) : s.TranslationAborts instr mva w p
      { code := .xlatPage, mva := mva, domain := (s.firstLevel mva).extractLsb' 5 4 } := by
  obtain ⟨z, hz⟩ := walk_missed_table ht hl
  rw [pageWalk, he] at hz
  exact translationAborts_of_walk h hz

theorem translatedBy_page (h : s.Misses instr mva) (ht : s.PlainTables)
    (hl : (s.firstLevel mva).extractLsb' 0 2 = tableType coarse) {size : RegionSize} {ap : BitVec 8} {x : Bool}
    (he : pageEntry coarse (s.firstLevel mva) (s.secondLevel coarse mva) mva
      = some (pageOf size ap x (s.firstLevel mva) (s.secondLevel coarse mva) mva)) {field : BitVec 2}
    (ha : (pageOf size ap x (s.firstLevel mva) (s.secondLevel coarse mva) mva).apAt mva = field) :
    s.TranslatedBy instr mva w p (pageOf size ap x (s.firstLevel mva) (s.secondLevel coarse mva) mva) field := by
  obtain ⟨z, hz⟩ := walk_missed_table ht hl
  rw [pageWalk, he] at hz
  rw [← ha]
  exact translatedBy_of_walk h pageOf_covers hz

/-- A translation through a coarse or fine table, by the type of the second-level descriptor. -/
theorem translation_table (h : s.Misses instr mva) (ht : s.PlainTables)
    (hl : (s.firstLevel mva).extractLsb' 0 2 = tableType coarse) :
    let l1 := s.firstLevel mva
    let l2 := s.secondLevel coarse mva
    (l2.extractLsb' 0 2 = 0b00 →
        s.TranslationAborts instr mva w p { code := .xlatPage, mva := mva, domain := l1.extractLsb' 5 4 })
    ∧ (l2.extractLsb' 0 2 = 0b01 →
        s.TranslatedBy instr mva w p (pageOf .large (l2.extractLsb' 4 8) (l2.getLsbD 12) l1 l2 mva)
          (l2.extractLsb' (4 + 2 * (mva.extractLsb' 14 2).toNat) 2))
    ∧ (l2.extractLsb' 0 2 = 0b10 →
        s.TranslatedBy instr mva w p (pageOf .small (l2.extractLsb' 4 8) false l1 l2 mva)
          (l2.extractLsb' (4 + 2 * (mva.extractLsb' 10 2).toNat) 2))
    ∧ (l2.extractLsb' 0 2 = 0b11 →
        s.TranslatedBy instr mva w p (pageOf (extendedSize coarse) (apAll (l2.extractLsb' 4 2)) (l2.getLsbD 6) l1 l2 mva)
          (l2.extractLsb' 4 2)) :=
  ⟨fun h2 => translationAborts_page h ht hl (pageEntry_fault h2),
    fun h2 => translatedBy_page h ht hl (pageEntry_large h2) apAt_large,
    fun h2 => translatedBy_page h ht hl (pageEntry_small h2) apAt_small,
    fun h2 => translatedBy_page h ht hl (pageEntry_extended h2) apAt_extended⟩

end

/-- Settles O39: by the type of the first-level descriptor, and in a coarse or fine table by that of the second-level one. -/
theorem tableWalkTranslation : Obligations.TableWalkTranslation := by
  unfold Obligations.TableWalkTranslation
  intro instr w p mva s hon hnone hr hb he
  have miss : s.Misses instr mva := ⟨hon, hnone⟩
  have plain : s.PlainTables := ⟨hr, hb, he⟩
  exact ⟨translationAborts_unmapped miss plain, translatedBy_section miss plain,
    translation_table (coarse := true) miss plain, translation_table (coarse := false) miss plain⟩

end Sys2Proof.Machine
end

section
/-!
PROOFS. What the decoder's search answers and when a row of the table hits a word, said of every table: the first row that
hits, the words of which two rows have none in common, the bits of a row's words field by field, and a check that no word
is left without a row.
-/

namespace Sys2Proof

/-! ## The first row that hits (30_encoding R378) -/

/-- Row `k` of the table is the first one that hits the word. -/
structure FirstHit {n : Nat} (rows : List (DecodeRow n)) (w : BitVec n) (k : Nat) (r : DecodeRow n) : Prop where
  row : rows[k]? = some r
  hit : r.hits w = true
  first : ∀ j q, j < k → rows[j]? = some q → q.hits w = false

theorem firstHit_zero {n : Nat} {r q : DecodeRow n} {rs : List (DecodeRow n)} {w : BitVec n} :
    FirstHit (r :: rs) w 0 q ↔ r = q ∧ r.hits w = true := by
  constructor
  · rintro ⟨hr, hit, -⟩
    obtain rfl : r = q := by simpa using hr
    exact ⟨rfl, hit⟩
  · rintro ⟨rfl, hit⟩
    exact ⟨rfl, hit, fun j _ hj => absurd hj (Nat.not_lt_zero j)⟩

theorem firstHit_succ {n : Nat} {r q : DecodeRow n} {rs : List (DecodeRow n)} {w : BitVec n} {k : Nat} :
    FirstHit (r :: rs) w (k + 1) q ↔ r.hits w = false ∧ FirstHit rs w k q := by
  constructor
  · rintro ⟨hr, hit, first⟩
    exact ⟨first 0 r (Nat.succ_pos k) rfl, hr, hit, fun j p hj => first (j + 1) p (Nat.succ_lt_succ hj)⟩
  · rintro ⟨miss, hr, hit, first⟩
    refine ⟨hr, hit, fun j p hj hp => ?_⟩
    cases j with
    | zero =>
      obtain rfl : r = p := by simpa using hp
      exact miss
    | succ j => exact first j p (Nat.lt_of_succ_lt_succ hj) hp

/-- The decoder answers what the first row that hits builds. -/
theorem decodeRows_eq_some_iff {n : Nat} {rows : List (DecodeRow n)} {w : BitVec n} {i : Instr} :
    decodeRows rows w = some i ↔ ∃ k r, FirstHit rows w k r ∧ r.build w = i := by
  induction rows with
  | nil =>
    constructor
    · intro h
      cases h
    · rintro ⟨k, r, h, -⟩
      cases h.row
  | cons r rs ih =>
    cases hit : r.hits w
    · rw [decodeRows, hit, if_neg Bool.false_ne_true, ih]
      constructor
      · rintro ⟨k, q, h, hb⟩
        exact ⟨k + 1, q, firstHit_succ.2 ⟨hit, h⟩, hb⟩
      · rintro ⟨k, q, h, hb⟩
        cases k with
        | zero =>
          obtain ⟨-, hit'⟩ := firstHit_zero.1 h
          rw [hit] at hit'
          cases hit'
        | succ k => exact ⟨k, q, (firstHit_succ.1 h).2, hb⟩
    · rw [decodeRows, hit, if_pos rfl]
      constructor
      · intro h
        exact ⟨0, r, firstHit_zero.2 ⟨rfl, hit⟩, Option.some.inj h⟩
      · rintro ⟨k, q, h, hb⟩
        cases k with
        | zero =>
          obtain ⟨rfl, -⟩ := firstHit_zero.1 h
          rw [hb]
        | succ k =>
          obtain ⟨miss, -⟩ := firstHit_succ.1 h
          rw [hit] at miss
          cases miss

theorem decodeRows_isSome {n : Nat} {rows : List (DecodeRow n)} {w : BitVec n} (h : ∃ r ∈ rows, r.hits w = true) :
    ∃ i, decodeRows rows w = some i := by
  induction rows with
  | nil =>
    obtain ⟨r, hr, -⟩ := h
    cases hr
  | cons q rs ih =>
    rw [decodeRows]
    split
    · exact ⟨_, rfl⟩
    · rename_i miss
      obtain ⟨r, hr, hit⟩ := h
      obtain rfl | hr := List.mem_cons.1 hr
      · exact absurd hit miss
      · exact ih ⟨r, hr, hit⟩

/-! ## When a row hits -/

theorem hits_iff {n : Nat} (r : DecodeRow n) (w : BitVec n) : r.hits w = true ↔ w &&& r.mask = r.pat := beq_iff_eq

/-- The bits of `w` that the mask selects are those of the pattern. -/
def agrees {n : Nat} (w : BitVec n) (mask pat : Nat) : Bool := w.toNat &&& mask == pat

theorem hits_eq_agrees {n : Nat} (r : DecodeRow n) (w : BitVec n) : r.hits w = agrees w r.mask.toNat r.pat.toNat := by
  rw [Bool.eq_iff_iff, hits_iff, agrees, beq_iff_eq, ← BitVec.toNat_and, BitVec.toNat_inj]

/-- The mask and the pattern of a row. -/
def DecodeRow.key {n : Nat} (r : DecodeRow n) : Nat × Nat := (r.mask.toNat, r.pat.toNat)

/-- The patterns of two rows differ in a bit that both masks select. -/
def apart (a b : Nat × Nat) : Bool := a.2 &&& b.1 != b.2 &&& a.1

theorem miss_of_apart {n : Nat} {r q : DecodeRow n} {w : BitVec n} (ha : apart r.key q.key = true)
    (h : r.hits w = true) : q.hits w = false := by
  rw [Bool.eq_false_iff]
  intro hq
  rw [hits_eq_agrees, agrees, beq_iff_eq] at h hq
  rw [apart, DecodeRow.key, DecodeRow.key, bne_iff_ne, ← h, ← hq, Nat.and_right_comm] at ha
  exact ha rfl

/-- Two rows of the table have no word in common, but for those that are exempt by their places. -/
def ApartBut {n : Nat} (exempt : Nat → Nat → Bool) (rows : List (DecodeRow n)) : Prop :=
  (rows.map DecodeRow.key).zipIdx.Pairwise fun q r => (apart r.1 q.1 || exempt q.2 r.2) = true

/-- No earlier row but an exempt one hits a word of row `k`. -/
theorem ApartBut.miss {n : Nat} {exempt : Nat → Nat → Bool} {rows : List (DecodeRow n)} (h : ApartBut exempt rows)
    {w : BitVec n} {j k : Nat} {q r : DecodeRow n} (hr : rows[k]? = some r) (hit : r.hits w = true) (hj : j < k)
    (hq : rows[j]? = some q) : exempt j k = true ∨ q.hits w = false := by
  obtain ⟨hk, rfl⟩ := List.getElem?_eq_some_iff.1 hr
  obtain ⟨hl, rfl⟩ := List.getElem?_eq_some_iff.1 hq
  have hp := List.pairwise_iff_getElem.1 h j k (by simpa using hl) (by simpa using hk) hj
  simp only [List.getElem_zipIdx, List.getElem_map, Nat.zero_add, Bool.or_eq_true] at hp
  exact hp.symm.imp id fun ha => miss_of_apart ha hit

/-! ## Every word hits a row -/

/-- Deciding the listed bits one after the other leads, whatever their values, to a row whose mask selects decided bits only;
`known` are the bits decided, and a row that a bit rules out is dropped. -/
def covers : List Nat → List (Nat × Nat) → Nat → Bool
  | [], rows, known => rows.any fun r => r.1 &&& known == r.1 && r.2 &&& known == r.2
  | b :: bits, rows, known =>
    (rows.any fun r => r.1 &&& known == r.1 && r.2 &&& known == r.2)
      || (covers bits (rows.filter fun r => r.2 &&& 2 ^ b == 0) (known ||| 2 ^ b)
        && covers bits (rows.filter fun r => r.1 &&& 2 ^ b == r.2 &&& 2 ^ b) (known ||| 2 ^ b))

/-- A row that agrees with the word in every bit it selects. -/
theorem agrees_of_known {n : Nat} {w : BitVec n} {rows : List (Nat × Nat)} {known : Nat}
    (h : (rows.any fun r => r.1 &&& known == r.1 && r.2 &&& known == r.2) = true)
    (inv : ∀ r ∈ rows, w.toNat &&& r.1 &&& known = r.2 &&& known) : ∃ r ∈ rows, agrees w r.1 r.2 = true := by
  obtain ⟨r, hr, e⟩ := List.any_eq_true.1 h
  obtain ⟨mask, pat⟩ := Bool.and_eq_true_iff.1 e
  rw [beq_iff_eq] at mask pat
  refine ⟨r, hr, beq_iff_eq.2 ?_⟩
  have hk := inv r hr
  rwa [Nat.and_assoc, mask, pat] at hk

theorem agrees_of_covers {n : Nat} {w : BitVec n} : ∀ {bits : List Nat} {rows : List (Nat × Nat)} {known : Nat},
    covers bits rows known = true → (∀ r ∈ rows, w.toNat &&& r.1 &&& known = r.2 &&& known) →
      ∃ r ∈ rows, agrees w r.1 r.2 = true
  | [], _, _, h, inv => agrees_of_known h inv
  | b :: bits, rows, known, h, inv => by
    obtain now | later := Bool.or_eq_true_iff.1 h
    · exact agrees_of_known now inv
    · obtain ⟨clear, set⟩ := Bool.and_eq_true_iff.1 later
      have bit : w.toNat &&& 2 ^ b = if w.toNat.testBit b then 2 ^ b else 0 := by
        rw [Nat.and_two_pow]
        cases w.toNat.testBit b <;> simp
      have step (r : Nat × Nat) (hr : r ∈ rows) (hb : w.toNat &&& 2 ^ b &&& r.1 = r.2 &&& 2 ^ b) :
          w.toNat &&& r.1 &&& (known ||| 2 ^ b) = r.2 &&& (known ||| 2 ^ b) := by
        rw [Nat.and_or_distrib_left, Nat.and_or_distrib_left, inv r hr, Nat.and_right_comm, hb]
      cases hw : w.toNat.testBit b
      · rw [hw] at bit
        obtain ⟨r, hr, e⟩ := agrees_of_covers (w := w) clear fun r hr => by
          obtain ⟨hr, hz⟩ := List.mem_filter.1 hr
          exact step r hr (by rw [bit, beq_iff_eq.1 hz]; exact Nat.zero_and r.1)
        exact ⟨r, List.mem_of_mem_filter hr, e⟩
      · rw [hw] at bit
        obtain ⟨r, hr, e⟩ := agrees_of_covers (w := w) set fun r hr => by
          obtain ⟨hr, hz⟩ := List.mem_filter.1 hr
          exact step r hr (by rw [bit, ← beq_iff_eq.1 hz]; exact Nat.and_comm _ r.1)
        exact ⟨r, List.mem_of_mem_filter hr, e⟩

theorem hits_of_covers {n : Nat} {rows : List (DecodeRow n)} {bits : List Nat}
    (h : covers bits (rows.map DecodeRow.key) 0 = true) (w : BitVec n) : ∃ r ∈ rows, r.hits w = true := by
  obtain ⟨_, hk, e⟩ := agrees_of_covers (w := w) h fun r _ => by rw [Nat.and_zero, Nat.and_zero]
  obtain ⟨r, hr, rfl⟩ := List.mem_map.1 hk
  exact ⟨r, hr, (hits_eq_agrees r w).trans e⟩

/-! ## Fields -/

/-- An appended word is compared field by field. -/
theorem agrees_append {n m : Nat} (x : BitVec n) (y : BitVec m) (mask pat : Nat) :
    agrees (x ++ y) mask pat = (agrees x (mask / 2 ^ m) (pat / 2 ^ m) && agrees y (mask % 2 ^ m) (pat % 2 ^ m)) := by
  have hi : (x ++ y).toNat / 2 ^ m = x.toNat := by
    rw [BitVec.toNat_append, ← Nat.shiftLeft_add_eq_or_of_lt y.isLt, Nat.shiftLeft_eq, Nat.mul_comm,
      Nat.mul_add_div (Nat.two_pow_pos m), Nat.div_eq_of_lt y.isLt, Nat.add_zero]
  have lo : (x ++ y).toNat % 2 ^ m = y.toNat := by
    rw [BitVec.toNat_append, ← Nat.shiftLeft_add_eq_or_of_lt y.isLt, Nat.shiftLeft_eq, Nat.mul_comm,
      Nat.mul_add_mod, Nat.mod_eq_of_lt y.isLt]
  rw [Bool.eq_iff_iff, Bool.and_eq_true, agrees, agrees, agrees, beq_iff_eq, beq_iff_eq, beq_iff_eq,
    Nat.ext_div_mod_iff (2 ^ m), Nat.and_div_two_pow, Nat.and_mod_two_pow, hi, lo]

/-- A field that the mask leaves out agrees. -/
theorem agrees_zero {n : Nat} (w : BitVec n) : agrees w 0 0 = true := by simp [agrees]

/-- A field that the mask takes whole agrees with one value. -/
theorem agrees_all {n : Nat} {mask pat : Nat} (w : BitVec n) (hm : mask = 2 ^ n - 1) (hp : pat < 2 ^ n) :
    agrees w mask pat = (w == BitVec.ofNat n pat) := by
  rw [Bool.eq_iff_iff, agrees, beq_iff_eq, beq_iff_eq, hm, Nat.and_two_pow_sub_one_eq_mod, Nat.mod_eq_of_lt w.isLt,
    ← BitVec.toNat_inj, BitVec.toNat_ofNat, Nat.mod_eq_of_lt hp]

/-- What a row fixes of a field, its words have there. -/
theorem extractLsb'_of_hits {n : Nat} {r : DecodeRow n} {w : BitVec n} (h : r.hits w = true) (start len : Nat)
    (hm : r.mask.extractLsb' start len = BitVec.allOnes len) :
    r.pat.extractLsb' start len = w.extractLsb' start len := by
  rw [← (hits_iff r w).1 h, BitVec.extractLsb'_and, hm, BitVec.and_allOnes]

theorem ofBool_getLsbD {n : Nat} (w : BitVec n) (i : Nat) : BitVec.ofBool (w.getLsbD i) = w.extractLsb' i 1 := by
  rw [BitVec.getLsbD_eq_extractLsb']
  generalize w.extractLsb' i 1 = b
  revert b
  decide

/-- A word is the append of its fields. -/
theorem exists_append {n m : Nat} (w : BitVec (n + m)) : ∃ (x : BitVec n) (y : BitVec m), w = x ++ y :=
  ⟨_, _, BitVec.extractLsb'_append_extractLsb'.symm⟩

@[simp] theorem Cond.ofBits_toBits (c : Cond) : Cond.ofBits c.toBits = c := by cases c <;> rfl

theorem Cond.toBits_ne (c : Cond) : c.toBits ≠ 15#4 := by cases c <;> decide

theorem Cond.toBits_ofBits {b : BitVec 4} (h : b ≠ 15#4) : (Cond.ofBits b).toBits = b := by
  revert b
  decide

@[simp] theorem ShiftKind.ofBits_toBits (k : ShiftKind) : ShiftKind.ofBits k.toBits = k := by cases k <;> rfl

@[simp] theorem Index.ofBits_bits (x : Index) : Index.ofBits x.pBit x.wBit = x := by cases x <;> rfl

end Sys2Proof
end

section
/-!
PROOFS. The two tables of the decoder: each row builds the instruction of its own place, the first row that hits a word
exists, and only the listed rows share words with an earlier one. An instruction's word is one of its own row, which reads
the instruction back from it.
-/

namespace Sys2Proof

/-! ## The order of the rows -/

/-- The rows build, from the first one on, the instructions of the constructors `d`, `d + 1` and so on. -/
def InOrder {n : Nat} : Nat → List (DecodeRow n) → Prop
  | _, [] => True
  | d, r :: rs => (∀ w, (r.build w).ctorIdx = d) ∧ InOrder (d + 1) rs

theorem InOrder.build {n : Nat} {w : BitVec n} : ∀ {rows : List (DecodeRow n)} {d k : Nat} {r : DecodeRow n},
    InOrder d rows → rows[k]? = some r → (r.build w).ctorIdx = k + d
  | q :: rs, d, 0, r, ⟨hq, _⟩, hr => by
    obtain rfl : q = r := by simpa using hr
    rw [hq w, Nat.zero_add]
  | _ :: rs, d, k + 1, r, ⟨_, hrs⟩, hr => by
    rw [hrs.build (by simpa using hr), Nat.add_right_comm, Nat.add_assoc]

theorem armRows_inOrder : InOrder 0 armRows := by
  repeat refine And.intro (fun _ => rfl) ?_
  trivial

theorem thumbRows_inOrder : InOrder 131 thumbRows := by
  repeat refine And.intro (fun _ => rfl) ?_
  trivial

theorem isThumb_eq (i : Instr) : i.isThumb = decide (131 ≤ i.ctorIdx) := by cases i <;> rfl

/-- What is decoded was built by the row of its own place, the first one that hits. -/
theorem InOrder.firstHit {n d : Nat} {rows : List (DecodeRow n)} (ho : InOrder d rows) {w : BitVec n} {i : Instr}
    (h : decodeRows rows w = some i) : ∃ k r, i.ctorIdx = k + d ∧ FirstHit rows w k r ∧ r.build w = i := by
  obtain ⟨k, r, hf, rfl⟩ := decodeRows_eq_some_iff.1 h
  exact ⟨k, r, ho.build hf.row, hf, rfl⟩

theorem armRows_cover (w : BitVec 32) : ∃ r ∈ armRows, r.hits w = true :=
  hits_of_covers (bits := [27, 26, 25, 24, 23, 4, 20, 22, 21, 7, 15, 6, 5]) (by decide) w

theorem thumbRows_cover (w : BitVec 16) : ∃ r ∈ thumbRows, r.hits w = true :=
  hits_of_covers (bits := [15, 14, 13, 12, 11, 10, 9, 8, 7, 6, 0]) (by decide) w

/-! ## Rows that share words (30_encoding R375) -/

/-- The earlier rows of its table that share words with the row of constructor `k`, but for the rows of cond = 1111 where
that row has a condition field. -/
def contested : Nat → List Nat
  | 3 => [0, 1, 2]
  | 24 => [4, 5, 6, 7, 8, 9, 10, 11]
  | 40 => [25, 26, 27, 28, 29, 30, 31, 32, 33, 34]
  | 99 => [91]
  | 100 => [92]
  | 101 => [93]
  | 102 => [94]
  | 103 => [95]
  | 104 => [96]
  | 105 => [97]
  | 106 => [98]
  | 117 => [115]
  | 118 => [116]
  | 119 => [116, 118]
  | 120 => [115, 117]
  | 128 => [122, 123, 124, 125, 126, 127]
  | 187 => [51, 52, 53, 54, 55]
  | 192 => [59, 60]
  | _ => []

/-- The 8515 pairs of the ARM table are compared by the kernel alone. -/
theorem armRows_apartBut :
    ApartBut (fun j k => decide (j < 4 ∧ 4 ≤ k) || (contested k).contains j) armRows := by
  unfold ApartBut
  decide +kernel

theorem thumbRows_apartBut : ApartBut (fun j k => (contested (k + 131)).contains j) thumbRows := by
  unfold ApartBut
  decide

theorem contested_lt : (∀ k < 131, ∀ j ∈ contested k, j < k)
    ∧ ∀ k < 67, ∀ j ∈ contested (k + 131), j < k := by decide

/-- The rows that could take an instruction's word before its own row does. -/
def contenders {n : Nat} (rows : List (DecodeRow n)) (i : Instr) : List (DecodeRow n) :=
  (contested i.ctorIdx).filterMap (rows[·]?)

theorem contenders_miss_iff {n : Nat} {rows : List (DecodeRow n)} {i : Instr} {w : BitVec n} :
    ((contenders rows i).all fun q => !q.hits w) = true
      ↔ ∀ j ∈ contested i.ctorIdx, ∀ q, rows[j]? = some q → q.hits w = false := by
  simp only [contenders, List.all_eq_true, List.mem_filterMap, Bool.not_eq_true']
  exact ⟨fun h j hj q hq => h q ⟨j, hj, hq⟩, fun h q ⟨j, hj, hq⟩ => h j hj q hq⟩

/-! ## An instruction's word in its own row -/

/-- The word of an ARM instruction is one of its own row, which reads the instruction back from it. -/
theorem armRow_of_encode {i : Instr} (h : i.isThumb = false) :
    ∃ r, armRows[i.ctorIdx]? = some r ∧ r.hits (encodeArm i) = true ∧ r.build (encodeArm i) = i := by
  unfold encodeArm
  cases i
  all_goals try contradiction
  all_goals
    refine ⟨_, rfl, ?_, ?_⟩
    · simp only [hits_eq_agrees, agrees_append, BitVec.reduceToNat, Nat.reducePow, Nat.reduceDiv, Nat.reduceMod,
        agrees_zero, Bool.and_true, Bool.true_and]
      rfl
    · simp (disch := decide) only [BitVec.getLsbD_append, BitVec.extractLsb'_append_eq_of_le,
        BitVec.extractLsb'_append_eq_of_add_le, BitVec.extractLsb'_eq_self, BitVec.extractLsb'_append_extractLsb',
        BitVec.getLsbD_ofBool, Nat.reduceSub, Nat.reduceLT, reduceIte, decide_true, Bool.true_and,
        Cond.ofBits_toBits, ShiftKind.ofBits_toBits, Index.ofBits_bits]

theorem thumbRow_of_encode {i : Instr} (h : i.isThumb = true) : ∃ k, i.ctorIdx = k + 131 ∧
    ∃ r, thumbRows[k]? = some r ∧ r.hits (encodeThumb i) = true ∧ r.build (encodeThumb i) = i := by
  unfold encodeThumb
  cases i
  all_goals try contradiction
  all_goals
    refine ⟨_, (rfl : _ = _ + 131), _, rfl, ?_, ?_⟩
    · simp only [hits_eq_agrees, agrees_append, BitVec.reduceToNat, Nat.reducePow, Nat.reduceDiv, Nat.reduceMod,
        agrees_zero, Bool.and_true]
      rfl
    · simp (disch := decide) only [BitVec.getLsbD_append, BitVec.extractLsb'_append_eq_of_le,
        BitVec.extractLsb'_append_eq_of_add_le, BitVec.extractLsb'_eq_self, BitVec.extractLsb'_append_extractLsb',
        BitVec.getLsbD_ofBool, Nat.reduceSub, Nat.reduceLT, reduceIte, decide_true, Bool.true_and,
        Cond.ofBits_toBits]

/-- Bits 31:28 of the word of an ARM instruction with a condition are not 1111. -/
theorem cond_of_encode {i : Instr} (h : i.isThumb = false) (hk : 4 ≤ i.ctorIdx) :
    (encodeArm i).extractLsb' 28 4 ≠ 15#4 := by
  unfold encodeArm
  cases i
  all_goals try contradiction
  all_goals
    simp (disch := decide) only [BitVec.extractLsb'_append_eq_of_le, BitVec.extractLsb'_eq_self, Nat.reduceSub]
    exact Cond.toBits_ne _

/-- The words of the first four rows have 1111 there. -/
theorem cond_of_uncond {j : Nat} {q : DecodeRow 32} {w : BitVec 32} (hj : j < 4) (hq : armRows[j]? = some q)
    (h : q.hits w = true) : w.extractLsb' 28 4 = 15#4 := by
  have key : q.mask.extractLsb' 28 4 = BitVec.allOnes 4 ∧ q.pat.extractLsb' 28 4 = 15#4 := by
    match j, hj with
    | 0, _ | 1, _ | 2, _ | 3, _ =>
      obtain rfl := Option.some.inj hq
      exact ⟨rfl, rfl⟩
  rw [← extractLsb'_of_hits h 28 4 key.1, key.2]

/-- A word that the fourth row does not take has not. -/
theorem cond_ne_of_miss {q : DecodeRow 32} {w : BitVec 32} (hq : armRows[3]? = some q) (h : q.hits w = false) :
    w.extractLsb' 28 4 ≠ 15#4 := by
  obtain rfl := Option.some.inj hq
  obtain ⟨x, y, rfl⟩ := exists_append (n := 4) (m := 28) w
  rw [BitVec.extractLsb'_append_eq_left]
  simp (disch := decide) only [hits_eq_agrees, agrees_append, BitVec.reduceToNat, Nat.reducePow, Nat.reduceDiv,
    Nat.reduceMod, agrees_zero, agrees_all, Bool.and_true] at h
  exact beq_eq_false_iff_ne.1 h

end Sys2Proof
end

section
/-!
PROOFS. The encoding statements: well-formedness says that no earlier row takes an instruction's word, so decoding what the
encoder writes gives the instruction back, and every word decodes to a well-formed instruction.
-/

namespace Sys2Proof

/-! ## Well-formedness -/

theorem and_beq_eq_agrees {n : Nat} (w mask pat : BitVec n) : (w &&& mask == pat) = agrees w mask.toNat pat.toNat :=
  hits_eq_agrees ⟨mask, pat, fun _ => .tBkpt 0⟩ w

/-- A well-formed ARM instruction is one whose word no contender takes: with the contenders' rows written out, both sides are
conditions on the same fields. -/
theorem armWf_eq {i : Instr} (h : i.isThumb = false) :
    i.wf = (contenders armRows i).all fun q => !q.hits (encodeArm i) := by
  unfold encodeArm Instr.wf
  cases i
  all_goals try contradiction
  case' undefUncond => change _ = List.all [_, _, _] _
  case' undefMul => change _ = List.all [_, _, _, _, _, _, _, _] _
  case' undefMisc => change _ = List.all [_, _, _, _, _, _, _, _, _, _] _
  case' ldrImm | ldrReg | ldrbImm | ldrbReg | strImm | strReg | strbImm | strbReg | mcrr | mrrc =>
    change _ = List.all [_] _
  case' ldc | stc => change _ = List.all [_, _] _
  case' mcr => change _ = List.all [_, _, _, _, _, _] _
  case' undefUncond | undefMul | undefMisc | ldrImm | ldrReg | ldrbImm | ldrbReg | strImm | strReg | strbImm | strbReg
      | mcrr | mrrc | ldc | stc | mcr =>
    simp (disch := decide) only [List.all_cons, List.all_nil, hits_eq_agrees, agrees_append, BitVec.reduceToNat,
      Nat.reducePow, Nat.reduceDiv, Nat.reduceMod, agrees_zero, agrees_all, BEq.rfl, Bool.and_true, Bool.true_and]
  case undefUncond => simp only [wfUncond, and_beq_eq_agrees, BitVec.reduceToNat, Bool.and_assoc]
  case undefMul rest _ =>
    obtain ⟨b, lo, rfl⟩ := exists_append (n := 5) (m := 12) rest
    simp (disch := decide) only [wfUndefMul, BitVec.extractLsb'_append_eq_left, agrees_append, Nat.reducePow,
      Nat.reduceDiv, Nat.reduceMod, agrees_zero, Bool.and_true]
    clear h
    revert b
    decide
  case undefMisc op _ low =>
    obtain ⟨k, lo, rfl⟩ := exists_append (n := 3) (m := 4) low
    simp (disch := decide) only [wfUndefMisc, BitVec.extractLsb'_append_eq_left, agrees_append, Nat.reducePow,
      Nat.reduceDiv, Nat.reduceMod, agrees_zero, Bool.and_true]
    clear h
    revert op k
    decide
  case ldrImm a _ _ | ldrReg a _ _ | ldrbImm a _ _ | ldrbReg a _ _ | strImm a _ _ | strReg a _ _ | strbImm a _ _
      | strbReg a _ _ =>
    cases a.index <;> rfl
  case mcrr | mrrc => rfl
  case ldc a _ _ _ | stc a _ _ _ =>
    simp only [wfMode5]
    cases a.p <;> cases a.u <;> cases a.n <;> cases a.w <;> simp
  case mcr op1 _ _ cp _ _ =>
    simp only [wfMcr]
    cases cp == 0#4 <;> cases op1 == 1#3 <;> simp [Bool.not_or, Bool.and_assoc]
  all_goals rfl

/-- A well-formed Thumb instruction is one whose halfword no contender takes. -/
theorem thumbWf_eq {i : Instr} (h : i.isThumb = true) :
    i.wf = (contenders thumbRows i).all fun q => !q.hits (encodeThumb i) := by
  unfold encodeThumb Instr.wf
  cases i
  all_goals try contradiction
  case' tUndefMisc => change _ = List.all [_, _, _, _, _] _
  case' tB1 => change _ = List.all [_, _] _
  case' tUndefMisc | tB1 =>
    simp (disch := decide) only [List.all_cons, List.all_nil, hits_eq_agrees, agrees_append, BitVec.reduceToNat,
      Nat.reducePow, Nat.reduceDiv, Nat.reduceMod, agrees_zero, agrees_all, BEq.rfl, Bool.and_true, Bool.true_and]
  case tUndefMisc rest =>
    obtain ⟨k, lo, rfl⟩ := exists_append (n := 5) (m := 7) rest
    simp (disch := decide) only [wfThumbMisc, BitVec.extractLsb'_append_eq_of_le, Nat.reduceSub, agrees_append,
      Nat.reducePow, Nat.reduceDiv, Nat.reduceMod, agrees_zero, Bool.and_true]
    clear h
    revert k
    decide
  case tB1 c _ => cases c <;> rfl
  all_goals rfl

/-! ## Decoding what was encoded -/

theorem decodeArm_encodeArm {i : Instr} (h : i.isThumb = false) (hwf : i.wf = true) :
    decodeArm (encodeArm i) = some i := by
  obtain ⟨r, hr, hit, hb⟩ := armRow_of_encode h
  refine decodeRows_eq_some_iff.2 ⟨i.ctorIdx, r, ⟨hr, hit, fun j q hj hq => ?_⟩, hb⟩
  obtain ex | miss := armRows_apartBut.miss hr hit hj hq
  · obtain uncond | shared := Bool.or_eq_true_iff.1 ex
    · obtain ⟨hj4, hk4⟩ := of_decide_eq_true uncond
      exact Bool.eq_false_iff.2 fun hq' => cond_of_encode h hk4 (cond_of_uncond hj4 hq hq')
    · exact contenders_miss_iff.1 (armWf_eq h ▸ hwf) j (List.contains_iff_mem.1 shared) q hq
  · exact miss

theorem decodeThumb_encodeThumb {i : Instr} (h : i.isThumb = true) (hwf : i.wf = true) :
    decodeThumb (encodeThumb i) = some i := by
  obtain ⟨k, hk, r, hr, hit, hb⟩ := thumbRow_of_encode h
  refine decodeRows_eq_some_iff.2 ⟨k, r, ⟨hr, hit, fun j q hj hq => ?_⟩, hb⟩
  obtain shared | miss := thumbRows_apartBut.miss hr hit hj hq
  · rw [← hk] at shared
    exact contenders_miss_iff.1 (thumbWf_eq h ▸ hwf) j (List.contains_iff_mem.1 shared) q hq
  · exact miss

/-- Settles O1: no earlier row than its own takes the word of a well-formed instruction. -/
theorem decodeEncodeRoundTrip : Obligations.DecodeEncodeRoundTrip := by
  unfold Obligations.DecodeEncodeRoundTrip
  intro i hwf
  unfold encode
  cases h : i.isThumb
  · exact decodeArm_encodeArm h hwf
  · exact decodeThumb_encodeThumb h hwf

/-- Settles O3: the two tables evaluate on the eight words. -/
theorem exampleWordsDecode : Obligations.ExampleWordsDecode := by
  unfold Obligations.ExampleWordsDecode
  decide

/-! ## Every word -/

/-- A word of an ARM row that keeps every bit is the word of the instruction built from it; an instruction of the other rows
is well formed whatever its fields. -/
theorem encodeArm_of_firstHit {w : BitVec 32} {i : Instr} {r : DecodeRow 32} (hT : i.isThumb = false)
    (h : FirstHit armRows w i.ctorIdx r) (hb : r.build w = i) : encodeArm i = w ∨ i.wf = true := by
  obtain ⟨hr, hit, first⟩ := h
  cases i
  all_goals try contradiction
  case' undefMul | undefMisc | mcrr | mrrc | ldc | stc | mcr =>
    have cond := Cond.toBits_ofBits (cond_ne_of_miss rfl (first 3 _ (Nat.le_of_ble_eq_true rfl) rfl))
  case' undefUncond | undefMul | undefMisc | mcrr | mrrc | ldc | stc | mcr =>
    obtain rfl := Option.some.inj hr
    have field := extractLsb'_of_hits hit
    injection hb
    left
    subst_vars
    unfold encodeArm
  case' undefUncond =>
    simp (disch := decide) only [show 15#4 = w.extractLsb' 28 4 from field 28 4 rfl,
      BitVec.extractLsb'_append_extractLsb'_eq_extractLsb']
  case' undefMul =>
    simp (disch := decide) only [cond, show 0#3 = w.extractLsb' 25 3 from field 25 3 rfl,
      show 9#4 = w.extractLsb' 4 4 from field 4 4 rfl, BitVec.extractLsb'_append_extractLsb'_eq_extractLsb']
  case' undefMisc =>
    simp (disch := decide) only [cond, show 2#5 = w.extractLsb' 23 5 from field 23 5 rfl,
      show 0#1 = w.extractLsb' 20 1 from field 20 1 rfl, BitVec.extractLsb'_append_extractLsb'_eq_extractLsb']
    have same : w.extractLsb' 20 1 = w.extractLsb' 7 1 := (field 20 1 rfl).symm.trans (field 7 1 rfl)
    simp (disch := decide) only [same, BitVec.extractLsb'_append_extractLsb'_eq_extractLsb']
  case' mcrr =>
    simp (disch := decide) only [cond, show 196#8 = w.extractLsb' 20 8 from field 20 8 rfl,
      BitVec.extractLsb'_append_extractLsb'_eq_extractLsb']
  case' mrrc =>
    simp (disch := decide) only [cond, show 197#8 = w.extractLsb' 20 8 from field 20 8 rfl,
      BitVec.extractLsb'_append_extractLsb'_eq_extractLsb']
  case' ldc =>
    simp (disch := decide) only [cond, show 6#3 = w.extractLsb' 25 3 from field 25 3 rfl,
      show 1#1 = w.extractLsb' 20 1 from field 20 1 rfl, ofBool_getLsbD,
      BitVec.extractLsb'_append_extractLsb'_eq_extractLsb']
  case' stc =>
    simp (disch := decide) only [cond, show 6#3 = w.extractLsb' 25 3 from field 25 3 rfl,
      show 0#1 = w.extractLsb' 20 1 from field 20 1 rfl, ofBool_getLsbD,
      BitVec.extractLsb'_append_extractLsb'_eq_extractLsb']
  case' mcr =>
    simp (disch := decide) only [cond, show 14#4 = w.extractLsb' 24 4 from field 24 4 rfl,
      show 0#1 = w.extractLsb' 20 1 from field 20 1 rfl, show 1#1 = w.extractLsb' 4 1 from field 4 1 rfl,
      BitVec.extractLsb'_append_extractLsb'_eq_extractLsb']
  case undefUncond | undefMul | undefMisc | mcrr | mrrc | ldc | stc | mcr => exact BitVec.extractLsb'_eq_self
  all_goals exact .inr rfl

/-- In a Thumb conditional branch that is no SWI the condition is not 1111. -/
theorem cond_ne_of_swi_miss {q : DecodeRow 16} {w : BitVec 16} (hq : thumbRows[60]? = some q) (h : q.hits w = false)
    (op : w.extractLsb' 12 4 = 13#4) : w.extractLsb' 8 4 ≠ 15#4 := by
  obtain rfl := Option.some.inj hq
  obtain ⟨hi, lo, rfl⟩ := exists_append (n := 8) (m := 8) w
  obtain ⟨x, y, rfl⟩ := exists_append (n := 4) (m := 4) hi
  simp (disch := decide) only [hits_eq_agrees, agrees_append, BitVec.reduceToNat, Nat.reducePow, Nat.reduceDiv,
    Nat.reduceMod, agrees_zero, agrees_all, Bool.and_true, BitVec.extractLsb'_append_eq_of_le,
    BitVec.extractLsb'_append_eq_of_add_le, BitVec.extractLsb'_eq_self, Nat.reduceSub] at h op ⊢
  rintro rfl
  rw [op] at h
  exact absurd h (by decide)

/-- The same of the Thumb rows. -/
theorem encodeThumb_of_firstHit {w : BitVec 16} {i : Instr} {k : Nat} {r : DecodeRow 16} (hT : i.isThumb = true)
    (hk : i.ctorIdx = k + 131) (h : FirstHit thumbRows w k r) (hb : r.build w = i) : encodeThumb i = w ∨ i.wf = true := by
  obtain ⟨hr, hit, first⟩ := h
  cases i
  all_goals try contradiction
  case tUndefMisc =>
    obtain rfl : 56 = k := Nat.add_right_cancel (m := 131) hk
    obtain rfl := Option.some.inj hr
    injection hb
    left
    subst_vars
    unfold encodeThumb
    simp (disch := decide) only [show 11#4 = w.extractLsb' 12 4 from extractLsb'_of_hits hit 12 4 rfl,
      BitVec.extractLsb'_append_extractLsb'_eq_extractLsb']
    exact BitVec.extractLsb'_eq_self
  case tB1 =>
    obtain rfl : 61 = k := Nat.add_right_cancel (m := 131) hk
    have swi := first 60 _ (Nat.le_of_ble_eq_true rfl) rfl
    obtain rfl := Option.some.inj hr
    injection hb
    left
    subst_vars
    have op := extractLsb'_of_hits hit 12 4 rfl
    have cond := cond_ne_of_swi_miss rfl swi op.symm
    unfold encodeThumb
    simp (disch := decide) only [Cond.toBits_ofBits cond, show 13#4 = w.extractLsb' 12 4 from op,
      BitVec.extractLsb'_append_extractLsb'_eq_extractLsb']
    exact BitVec.extractLsb'_eq_self
  all_goals exact .inr rfl

/-- What is decoded to an ARM instruction is well formed: its contenders come first and miss. -/
theorem wf_of_decodeArm {w : BitVec 32} {i : Instr} (h : decodeArm w = some i) : i.isThumb = false ∧ i.wf = true := by
  obtain ⟨k, r, rfl, hf, hb⟩ := armRows_inOrder.firstHit h
  obtain ⟨hk, -⟩ := List.getElem?_eq_some_iff.1 hf.row
  have hT : i.isThumb = false := by
    rw [isThumb_eq]
    exact decide_eq_false (Nat.not_le.2 hk)
  refine ⟨hT, ?_⟩
  obtain hw | hwf := encodeArm_of_firstHit hT hf hb
  · rw [armWf_eq hT, contenders_miss_iff, hw]
    exact fun j hj q => hf.first j q (contested_lt.1 _ hk j hj)
  · exact hwf

theorem wf_of_decodeThumb {w : BitVec 16} {i : Instr} (h : decodeThumb w = some i) : i.isThumb = true ∧ i.wf = true := by
  obtain ⟨k, r, hik, hf, hb⟩ := thumbRows_inOrder.firstHit h
  obtain ⟨hk, -⟩ := List.getElem?_eq_some_iff.1 hf.row
  have hT : i.isThumb = true := by
    rw [isThumb_eq, hik]
    exact decide_eq_true (Nat.le_add_left 131 k)
  refine ⟨hT, ?_⟩
  obtain hw | hwf := encodeThumb_of_firstHit hT hik hf hb
  · rw [thumbWf_eq hT, contenders_miss_iff, hw, hik]
    exact fun j hj q => hf.first j q (contested_lt.2 k hk j hj)
  · exact hwf

/-- Settles O2: some row hits every word, and what the first one builds is well formed. -/
theorem everyWordDecodes : Obligations.EveryWordDecodes := by
  unfold Obligations.EveryWordDecodes
  constructor
  · intro w
    obtain ⟨i, hi⟩ := decodeRows_isSome (armRows_cover w)
    exact ⟨i, hi, wf_of_decodeArm hi⟩
  · intro w
    obtain ⟨i, hi⟩ := decodeRows_isSome (thumbRows_cover w)
    exact ⟨i, hi, wf_of_decodeThumb hi⟩

end Sys2Proof
end

section
/-!
PROOFS. An instruction under its condition: what it answers when the condition fails, and the encodings that raise the
undefined-instruction exception when it passes.
-/

namespace Sys2Proof.Machine

/-! ## A condition that fails (30_encoding R342) -/

/-- Every instruction with a condition field but the branches runs under its condition. -/
theorem exec_eq_armCond {i : Instr} {c : Cond} {s : State} (h : condOf i = some c)
    (direct : ∀ k off, i ≠ .b k off ∧ i ≠ .bl k off) (indirect : ∀ k rm, i ≠ .bx k rm ∧ i ≠ .blx2 k rm) :
    ∃ run, exec i s = armCond c s run := by
  cases i
  case b k off => exact absurd rfl (direct k off).1
  case bl k off => exact absurd rfl (direct k off).2
  case bx k rm => exact absurd rfl (indirect k rm).1
  case blx2 k rm => exact absurd rfl (indirect k rm).2
  all_goals
    try contradiction
  all_goals
    obtain rfl := Option.some.inj h
    exact ⟨_, rfl⟩

/-- A record of a branch changes the branch target buffer and the PMU events of the step. -/
theorem recordBranch_eq (s : State) (word : Word) (taken : Bool) (target : Word) : ∃ b ev,
    s.recordBranch word taken target = { s with btb := b, scratch := { s.scratch with events := ev } } := by
  unfold State.recordBranch
  dsimp only
  repeat' split
  all_goals exact ⟨_, _, rfl⟩

/-- A branch that is predicted and not taken. -/
theorem predictedBranch_not_taken {s : State} (h : s.thumb = false) (word target : Word) : ∃ b ev,
    predictedBranch word false target s
      = .next { s with pc := s.pc + 4, btb := b, scratch := { s.scratch with events := ev } } := by
  obtain ⟨b, ev, e⟩ := recordBranch_eq s word false target
  refine ⟨b, ev, ?_⟩
  have size : (s.recordBranch word false target).isize = 4 := isize_arm (by rw [e]; exact h)
  rw [predictedBranch, if_neg Bool.false_ne_true, size, e]
  rfl

section
variable {c : Cond} {s : State} (fail : condPassed c s.cpsr = false)
include fail

theorem exec_bx_fail {i : Instr} {rm : Reg} (hi : i = .bx c rm ∨ i = .blx2 c rm) : exec i s
    = .next { s with pc := s.pc + 4, scratch := { s.scratch with events := 0x05 :: s.scratch.events } } := by
  obtain rfl | rfl := hi
  · exact armCond_fail (s := s.noteBranch) fail
  · exact armCond_fail (s := s.noteBranch) fail

theorem exec_b_fail (hT : s.thumb = false) {i : Instr} {off : BitVec 24} (hi : i = .b c off ∨ i = .bl c off) : ∃ b ev,
    exec i s = .next { s with pc := s.pc + 4, btb := b, scratch := { s.scratch with events := ev } } := by
  obtain rfl | rfl := hi
  · change ∃ b ev, predictedBranch (encodeArm (.b c off)) (condPassed c s.cpsr) _ s = _
    rw [fail]
    exact predictedBranch_not_taken hT _ _
  · change ∃ b ev, execBl c off s = _
    rw [execBl, fail, if_neg Bool.false_ne_true]
    exact predictedBranch_not_taken hT _ _

end

/-- Settles O14: under a failed condition `armCond` goes on, a branch after its record. -/
theorem failedConditionDoesNothing : Obligations.FailedConditionDoesNothing := by
  unfold Obligations.FailedConditionDoesNothing
  intro i c s hc fail hT
  have onward (direct : ∀ k off, i ≠ .b k off ∧ i ≠ .bl k off) (indirect : ∀ k rm, i ≠ .bx k rm ∧ i ≠ .blx2 k rm) :
      exec i s = .next { s with pc := s.pc + 4 } := by
    obtain ⟨run, e⟩ := exec_eq_armCond hc direct indirect
    rw [e, armCond_fail fail]
  have exchange (k : Cond) (rm : Reg) (hi : i = .bx k rm ∨ i = .blx2 k rm) : exec i s
      = .next { s with pc := s.pc + 4, scratch := { s.scratch with events := 0x05 :: s.scratch.events } } := by
    obtain rfl : k = c := by obtain rfl | rfl := hi <;> exact Option.some.inj hc
    exact exec_bx_fail fail hi
  refine ⟨onward, exchange, ?_⟩
  by_cases direct : ∀ k off, i ≠ .b k off ∧ i ≠ .bl k off
  · by_cases indirect : ∀ k rm, i ≠ .bx k rm ∧ i ≠ .blx2 k rm
    · exact ⟨s.btb, s.scratch.events, onward direct indirect⟩
    · push Not at indirect
      obtain ⟨k, rm, hi⟩ := indirect
      exact ⟨s.btb, 0x05 :: s.scratch.events, exchange k rm (or_iff_not_imp_left.2 hi)⟩
  · push Not at direct
    obtain ⟨k, off, hi⟩ := direct
    obtain rfl | rfl := or_iff_not_imp_left.2 hi
    · obtain rfl := Option.some.inj hc
      exact exec_b_fail fail hT (.inl rfl)
    · obtain rfl := Option.some.inj hc
      exact exec_b_fail fail hT (.inr rfl)

/-! ## The undefined-instruction exception (60_exceptions R694) -/

theorem takesUndefined_of_raise {i : Instr} {s : State} {size : Word} (hs : s.dbg.sds = false) (hz : s.isize = size)
    (h : exec i s = raiseUndef s) : TakesUndefined i s size := by
  rw [TakesUndefined, h, raiseUndef_run hs, hz]

/-- An ARM instruction that raises the exception when its condition passes. -/
theorem takesUndefined_of_armCond {i : Instr} {c : Cond} {s : State} (hs : s.dbg.sds = false) (hT : s.thumb = false)
    (hc : condPassed c s.cpsr = true) (h : exec i s = armCond c s (raiseUndef s)) : TakesUndefined i s 4 :=
  takesUndefined_of_raise hs (isize_arm hT) (h.trans (armCond_pass hc))

/-- Settles O27: each of them is the exception under its condition; LDRD and STRD by the check of their first register. -/
theorem undefinedInstructions : Obligations.UndefinedInstructions := by
  unfold Obligations.UndefinedInstructions
  intro s hs
  refine ⟨fun hT => ⟨fun _ => takesUndefined_of_raise hs (isize_arm hT) rfl, fun c hc => ?_⟩, fun hT => ?_⟩
  · have plain {i : Instr} (h : exec i s = armCond c s (raiseUndef s)) : TakesUndefined i s 4 :=
      takesUndefined_of_armCond hs hT hc h
    refine ⟨fun _ _ => plain rfl, fun _ _ _ => plain rfl, fun _ _ => plain rfl, fun _ _ => plain rfl,
      fun _ _ _ _ _ _ => plain rfl, fun _ _ _ _ _ => plain rfl, fun _ _ _ _ _ => plain rfl, fun a rd odd => ?_⟩
    have double {i : Instr} {k : Out} (h : exec i s = armCond c s (doubleRegs rd s k)) : TakesUndefined i s 4 :=
      plain (h.trans (congrArg (armCond c s) (if_pos odd)))
    exact ⟨fun _ => double rfl, fun _ => double rfl, fun _ => double rfl, fun _ => double rfl⟩
  · have raise {i : Instr} (h : exec i s = raiseUndef s) : TakesUndefined i s 2 :=
      takesUndefined_of_raise hs (isize_thumb hT) h
    exact ⟨fun _ => raise rfl, fun _ => raise rfl, fun _ => raise rfl⟩

end Sys2Proof.Machine
end

section
/-!
PROOFS. The shifter operand (40_arm R381): one equation for each kind and range of amounts, and what the shifts and the rotation
are as arithmetic on the word.
-/

namespace Sys2Proof.Machine

/-! ## Words shifted and rotated -/

/-- A rotation moves each bit down, round the word's end. -/
theorem getLsbD_rotateRight_word (m : Word) (n : Nat) {i : Nat} (hi : i < 32) :
    (m.rotateRight n).getLsbD i = m.getLsbD ((i + n) % 32) := by
  rw [BitVec.getLsbD_rotateRight]
  by_cases h : i < 32 - n % 32
  · simp only [h, decide_true, cond_true]
    exact congrArg m.getLsbD (by omega)
  · simp only [h, hi, decide_true, decide_false, cond_false, Bool.true_and]
    exact congrArg m.getLsbD (by omega)

/-- Only copies of the sign are left. -/
theorem sshiftRight_all (m : Word) : m.sshiftRight 31 = if m.msb then 0xFFFFFFFF else 0 := by
  have hm := m.isLt
  cases h : m.msb
  · have bound : m.toNat < 2 ^ 31 := by simpa [BitVec.msb_eq_decide] using h
    refine BitVec.eq_of_toNat_eq ?_
    rw [BitVec.sshiftRight_eq_of_msb_false h, BitVec.toNat_ushiftRight, Nat.shiftRight_eq_div_pow]
    exact Nat.div_eq_of_lt bound
  · have bound : 2 ^ 31 ≤ m.toNat := by simpa [BitVec.msb_eq_decide] using h
    have zero : ~~~m >>> 31 = 0#32 := by
      refine BitVec.eq_of_toNat_eq ?_
      rw [BitVec.toNat_ushiftRight, Nat.shiftRight_eq_div_pow, BitVec.toNat_not]
      exact Nat.div_eq_of_lt (by omega)
    rw [BitVec.sshiftRight_eq_of_msb_true h, zero]
    rfl

/-- RRX: the carry enters at the top. -/
theorem toNat_rrx (m : Word) (c : Bool) :
    (BitVec.ofBool c ++ m.extractLsb' 1 31).toNat = m.toNat / 2 + (if c then 2 ^ 31 else 0) := by
  have half : m.toNat / 2 < 2 ^ 31 := by have := m.isLt; omega
  have low : (m.extractLsb' 1 31).toNat = m.toNat / 2 := by
    rw [BitVec.extractLsb'_toNat, Nat.shiftRight_eq_div_pow]
    exact Nat.mod_eq_of_lt half
  rw [BitVec.toNat_append, low, ← Nat.shiftLeft_add_eq_or_of_lt half, Nat.shiftLeft_eq, Nat.add_comm]
  cases c <;> rfl

theorem getLsbD_rotImmValue (op : RotImm) {i : Nat} (hi : i < 32) :
    (rotImmValue op).getLsbD i = op.imm8.getLsbD ((i + 2 * op.rot.toNat) % 32) := by
  have inWord : (i + 2 * op.rot.toNat) % 32 < 32 := Nat.mod_lt _ (by decide)
  rw [rotImmValue, getLsbD_rotateRight_word _ _ hi, BitVec.getLsbD_setWidth, decide_eq_true inWord, Bool.true_and]

/-! ## The amounts -/

section
variable {n : Nat} (m : Word) (c : Bool)

theorem shiftByReg_zero (k : ShiftKind) : shiftByReg k 0 m c = ⟨m, c⟩ := if_pos rfl

section
variable (h0 : 0 < n) (h : n < 32)
include h0 h

theorem shiftByReg_lsl : shiftByReg .lsl n m c = ⟨m <<< n, m.getLsbD (32 - n)⟩ := by
  simp only [shiftByReg, h0.ne', h, if_true, if_false]

theorem shiftByReg_lsr : shiftByReg .lsr n m c = ⟨m >>> n, m.getLsbD (n - 1)⟩ := by
  simp only [shiftByReg, h0.ne', h, if_true, if_false]

theorem shiftByReg_asr : shiftByReg .asr n m c = ⟨m.sshiftRight n, m.getLsbD (n - 1)⟩ := by
  simp only [shiftByReg, h0.ne', h, if_true, if_false]

theorem shiftByReg_ror : shiftByReg .ror n m c = ⟨m.rotateRight n, m.getLsbD (n - 1)⟩ := by
  simp only [shiftByReg, h0.ne', Nat.mod_eq_of_lt h, if_false]

theorem shiftByImm_eq_shiftByReg (k : ShiftKind) : shiftByImm k n m c = shiftByReg k n m c := by
  have nz : n ≠ 0 := h0.ne'
  cases k
  case lsl => rw [shiftByReg_lsl m c h0 h]; exact if_neg nz
  case lsr => rw [shiftByReg_lsr m c h0 h]; exact if_neg nz
  case asr => rw [shiftByReg_asr m c h0 h]; exact if_neg nz
  case ror => rw [shiftByReg_ror m c h0 h]; exact if_neg nz

end

theorem shiftByReg_lsl_over (h : 32 < n) : shiftByReg .lsl n m c = ⟨0, false⟩ := by
  simp only [shiftByReg, show n ≠ 0 by omega, show ¬ n < 32 by omega, h.ne', if_false]

theorem shiftByReg_lsr_over (h : 32 < n) : shiftByReg .lsr n m c = ⟨0, false⟩ := by
  simp only [shiftByReg, show n ≠ 0 by omega, show ¬ n < 32 by omega, h.ne', if_false]

theorem shiftByReg_asr_over (h : 32 ≤ n) :
    shiftByReg .asr n m c = ⟨if m.msb then 0xFFFFFFFF else 0, m.getLsbD 31⟩ := by
  rw [← sshiftRight_all]
  simp only [shiftByReg, show n ≠ 0 by omega, show ¬ n < 32 by omega, if_false]

/-- A rotation by more than the word counts modulo its width; whole turns leave the value and carry out the sign. -/
theorem shiftByReg_ror_over (h : 32 ≤ n) : shiftByReg .ror n m c
    = if n % 32 = 0 then ⟨m, m.getLsbD 31⟩ else shiftByReg .ror (n % 32) m c := by
  have nz : n ≠ 0 := by omega
  by_cases turns : n % 32 = 0
  · simp only [shiftByReg, nz, turns, if_true, if_false]
  · rw [if_neg turns, shiftByReg_ror m c (by omega) (Nat.mod_lt n (by decide))]
    simp only [shiftByReg, nz, turns, if_false]

end

/-- Settles O17: the forms' operands are `shiftByImm`, `shiftByReg` and `rotImmValue` by definition; the rest is the equation
of each kind and range of amounts. -/
theorem shifterOperandValues : Obligations.ShifterOperandValues := by
  unfold Obligations.ShifterOperandValues
  refine ⟨fun s i r o => ⟨rfl, rfl, rfl, rfl⟩, fun m c => ⟨fun n h0 h => ⟨?_, ?_, ?_, ?_⟩, shiftByReg_zero m c,
    fun k n h0 h => shiftByImm_eq_shiftByReg m c h0 h k, rfl, rfl, rfl, ⟨toNat_rrx m c, rfl⟩, ⟨rfl, rfl⟩,
    fun n h => ⟨shiftByReg_lsl_over m c h, shiftByReg_lsr_over m c h⟩, fun n h => ?_,
    fun n h => shiftByReg_ror_over m c h, fun op i hi => getLsbD_rotImmValue op hi⟩⟩
  · rw [shiftByReg_lsl m c h0 h]
    exact ⟨by rw [BitVec.toNat_shiftLeft, Nat.shiftLeft_eq], rfl⟩
  · rw [shiftByReg_lsr m c h0 h]
    exact ⟨by rw [BitVec.toNat_ushiftRight, Nat.shiftRight_eq_div_pow], rfl⟩
  · rw [shiftByReg_asr m c h0 h]
    exact ⟨by rw [BitVec.toInt_sshiftRight, Int.shiftRight_eq_div_pow, Nat.cast_pow, Nat.cast_ofNat], rfl⟩
  · rw [shiftByReg_ror m c h0 h]
    exact ⟨fun i hi => getLsbD_rotateRight_word m n hi, rfl⟩
  · rw [shiftByReg_asr_over m c h]
    exact ⟨rfl, rfl⟩

end Sys2Proof.Machine
end

section
/-!
PROOFS. The ARM data-processing instructions (40_arm R380 to R399): the flags as arithmetic, and each instruction as its
operation under the condition and the check for R15.
-/

namespace Sys2Proof.Machine

/-! ## The operations (40_arm R382) -/

theorem logicResult_eq (p r : Word) (k : Bool) : logicResult p r k = ⟨r, logicFlags p r k⟩ := rfl

/-- N and Z are the result's, C is the carry out of the exact sum, V the overflow read off the signs. -/
theorem sumResult_eq (p x y : Word) (k : Bool) : arithResult p (addWithCarry x y k)
    = ⟨x + y + (if k then 1 else 0), addFlags p x y (x + y + (if k then 1 else 0)) k⟩ := by
  rw [arithResult, addWithCarry_ovf, addWithCarry_value]
  rfl

/-- A difference is a sum with the complement: its carry out says that nothing was borrowed, and an overflow needs
operands of different signs. -/
theorem differenceResult_eq (p x y : Word) (k : Bool) : arithResult p (addWithCarry x (~~~y) k)
    = ⟨x - y - (if k then 0 else 1), subFlags p x y (x - y - (if k then 0 else 1)) (!k)⟩ := by
  have signs : (x.msb == (~~~y).msb) = (x.msb != y.msb) := by
    rw [BitVec.msb_not, decide_eq_true (by decide), Bool.true_and]
    cases x.msb <;> cases y.msb <;> rfl
  rw [arithResult, addWithCarry_ovf, addWithCarry_sub, addWithCarry_sub_carry, signs]
  rfl

theorem plainSum_eq (p x y : Word) :
    arithResult p (addWithCarry x y false) = ⟨x + y, addFlags p x y (x + y) false⟩ := by
  rw [sumResult_eq, if_neg Bool.false_ne_true, BitVec.ofNat_eq_ofNat, BitVec.add_zero]

theorem plainDifference_eq (p x y : Word) :
    arithResult p (addWithCarry x (~~~y) true) = ⟨x - y, subFlags p x y (x - y) false⟩ := by
  rw [differenceResult_eq, if_pos rfl, BitVec.ofNat_eq_ofNat, BitVec.sub_zero]
  rfl

/-! ## An instruction as its operation -/

theorem fifteen_notMem {l : List Reg} (h : l.Forall (· ≠ 15)) : 15 ∉ l :=
  fun h15 => List.forall_iff_forall_mem.1 h 15 h15 rfl

section
variable {c : Cond} {s : State} {i : Instr} {sb : Bool} {rd : Reg} {v psr : Word} {r : AluResult} {l : List Reg}
  (hT : s.thumb = false) (hc : condPassed c s.cpsr = true)
include hT hc

theorem armResult_of_writeAlu (h : exec i s = armCond c s (writeAlu sb rd r s)) (hr : r = ⟨v, psr⟩) :
    ArmResult i s sb rd v psr := by
  rw [ArmResult, h, armCond_pass hc, writeAlu_eq, isize_arm hT, hr]

theorem armCompare_of_writeFlags (h : exec i s = armCond c s (writeFlags r s)) (hr : r = ⟨v, psr⟩) :
    ArmCompare i s psr := by
  rw [ArmCompare, h, armCond_pass hc, writeFlags_eq, isize_arm hT, hr]

theorem armResult_of_noR15 (h15 : 15 ∉ l) (h : exec i s = armCond c s (noR15 l (writeAlu sb rd r s)))
    (hr : r = ⟨v, psr⟩) : ArmResult i s sb rd v psr :=
  armResult_of_writeAlu hT hc (h.trans (congrArg (armCond c s) (noR15_run h15))) hr

theorem armCompare_of_noR15 (h15 : 15 ∉ l) (h : exec i s = armCond c s (noR15 l (writeFlags r s)))
    (hr : r = ⟨v, psr⟩) : ArmCompare i s psr :=
  armCompare_of_writeFlags hT hc (h.trans (congrArg (armCond c s) (noR15_run h15))) hr

end

/-- Settles O15: each is a logical result, written under its condition. -/
theorem logicalInstructionResults : Obligations.LogicalInstructionResults := by
  unfold Obligations.LogicalInstructionResults
  intro c sb rn rd s hc hT
  have result {i v psr r} := @armResult_of_writeAlu c s i sb rd v psr r hT hc
  have compare {i v psr r} := @armCompare_of_writeFlags c s i v psr r hT hc
  have logic := logicResult_eq s.cpsr
  refine ⟨fun sh => ?_, fun op => ?_, fun sh hd hn hm hs => ?_⟩
  · exact ⟨result rfl (logic _ _), result rfl (logic _ _), result rfl (logic _ _), result rfl (logic _ _),
      result rfl (logic _ _), result rfl (logic _ _), compare rfl (logic _ _), compare rfl (logic _ _)⟩
  · exact ⟨result rfl (logic _ _), result rfl (logic _ _), result rfl (logic _ _), result rfl (logic _ _),
      result rfl (logic _ _), result rfl (logic _ _), compare rfl (logic _ _), compare rfl (logic _ _)⟩
  · have operands : 15 ∉ [rn, sh.rm, sh.rs] := fifteen_notMem ⟨hn, hm, hs⟩
    have moved : 15 ∉ [rd, sh.rm, sh.rs] := fifteen_notMem ⟨hd, hm, hs⟩
    have all : 15 ∉ [rd, rn, sh.rm, sh.rs] := fifteen_notMem ⟨hd, hn, hm, hs⟩
    have result {l i v psr r} := @armResult_of_noR15 c s i sb rd v psr r l hT hc
    have compare {i v psr r} := @armCompare_of_noR15 c s i v psr r _ hT hc operands
    exact ⟨result all rfl (logic _ _), result all rfl (logic _ _), result all rfl (logic _ _),
      result all rfl (logic _ _), result moved rfl (logic _ _), result moved rfl (logic _ _), compare rfl (logic _ _),
      compare rfl (logic _ _)⟩

/-- Settles O16: each is a sum or a difference, with or without the carry, written under its condition. -/
theorem arithmeticInstructionResults : Obligations.ArithmeticInstructionResults := by
  unfold Obligations.ArithmeticInstructionResults
  intro c sb rn rd s hc hT x cin k b
  have add := plainSum_eq s.cpsr
  have adc := sumResult_eq s.cpsr
  have sub := plainDifference_eq s.cpsr
  have sbc := differenceResult_eq s.cpsr
  have result {i v psr r} := @armResult_of_writeAlu c s i sb rd v psr r hT hc
  have compare {i v psr r} := @armCompare_of_writeFlags c s i v psr r hT hc
  refine ⟨fun sh => ?_, fun op => ?_, fun sh hd hn hm hs => ?_⟩
  · exact ⟨result rfl (add _ _), result rfl (adc _ _ _), result rfl (sub _ _), result rfl (sbc _ _ _),
      result rfl (sub _ _), result rfl (sbc _ _ _), compare rfl (sub _ _), compare rfl (add _ _)⟩
  · exact ⟨result rfl (add _ _), result rfl (adc _ _ _), result rfl (sub _ _), result rfl (sbc _ _ _),
      result rfl (sub _ _), result rfl (sbc _ _ _), compare rfl (sub _ _), compare rfl (add _ _)⟩
  · have operands : 15 ∉ [rn, sh.rm, sh.rs] := fifteen_notMem ⟨hn, hm, hs⟩
    have all : 15 ∉ [rd, rn, sh.rm, sh.rs] := fifteen_notMem ⟨hd, hn, hm, hs⟩
    have result {i v psr r} := @armResult_of_noR15 c s i sb rd v psr r _ hT hc all
    have compare {i v psr r} := @armCompare_of_noR15 c s i v psr r _ hT hc operands
    exact ⟨result rfl (add _ _), result rfl (adc _ _ _), result rfl (sub _ _), result rfl (sbc _ _ _),
      result rfl (sub _ _), result rfl (sbc _ _ _), compare rfl (sub _ _), compare rfl (add _ _)⟩

end Sys2Proof.Machine
end

section
/-!
PROOFS. CLZ (40_arm R402), the status register transfers (R400, R401) and the return from an exception (R399).
-/

namespace Sys2Proof.Machine

/-! ## Leading zeros (40_arm R402) -/

/-- The lowest `n + 1` bits of a word as a number: the lowest `n` and the top one. -/
theorem toNat_mod_two_pow_succ (w : Word) (n : Nat) :
    w.toNat % 2 ^ (n + 1) = w.toNat % 2 ^ n + 2 ^ n * (w.getLsbD n).toNat := by
  rw [BitVec.getLsbD, Nat.mod_pow_succ, Nat.toNat_testBit]

theorem leadingZeros_of_zero {w : Word} {n : Nat} (h : w.toNat % 2 ^ n = 0) : leadingZeros w n = n := by
  induction n with
  | zero => rfl
  | succ n ih =>
    rw [toNat_mod_two_pow_succ] at h
    cases top : w.getLsbD n
    · rw [leadingZeros, top, if_neg Bool.false_ne_true, ih (by omega)]
    · have := Nat.two_pow_pos n
      simp only [top, Bool.toNat_true] at h
      omega

/-- The highest one stands below the leading zeros. -/
theorem leadingZeros_bounds {w : Word} {n : Nat} (h : w.toNat % 2 ^ n ≠ 0) : leadingZeros w n < n
    ∧ 2 ^ (n - 1 - leadingZeros w n) ≤ w.toNat % 2 ^ n ∧ w.toNat % 2 ^ n < 2 ^ (n - leadingZeros w n) := by
  induction n with
  | zero => exact absurd (Nat.mod_one _) h
  | succ n ih =>
    rw [toNat_mod_two_pow_succ] at h ⊢
    cases top : w.getLsbD n
    · simp only [top, Bool.toNat_false, Nat.mul_zero, Nat.add_zero] at h ⊢
      obtain ⟨lt, low, high⟩ := ih h
      rw [leadingZeros, top, if_neg Bool.false_ne_true]
      rw [show n + 1 - 1 - (leadingZeros w n + 1) = n - 1 - leadingZeros w n by omega, Nat.add_sub_add_right]
      exact ⟨by omega, low, high⟩
    · have rest := Nat.mod_lt w.toNat (Nat.two_pow_pos n)
      have double := Nat.pow_succ 2 n
      rw [leadingZeros, top, if_pos rfl]
      simp only [Bool.toNat_true, Nat.mul_one, Nat.sub_zero, Nat.add_sub_cancel]
      omega

/-- Settles O19: the count of `leadingZeros` over all 32 bits; the check for R15 comes before it. -/
theorem countLeadingZeros : Obligations.CountLeadingZeros := by
  unfold Obligations.CountLeadingZeros
  refine ⟨fun c rd rm s hc hT => ⟨fun hd hm => ⟨leadingZeros (s.reg rm) 32, ?_, ?_⟩, fun h15 => ?_⟩, by decide⟩
  · have run : exec (.clz c rd rm) s = writeReg rd _ s :=
      (armCond_pass hc).trans (noR15_run (fifteen_notMem ⟨hd, hm⟩))
    rw [run, writeReg_of_ne hd, isize_arm hT]
  · have whole : (s.reg rm).toNat % 2 ^ 32 = (s.reg rm).toNat := Nat.mod_eq_of_lt (s.reg rm).isLt
    split
    · rename_i zero
      exact leadingZeros_of_zero (by rw [zero]; rfl)
    · rename_i nonzero
      have bounds := leadingZeros_bounds (w := s.reg rm) (n := 32)
      rw [whole] at bounds
      exact bounds fun h => nonzero (BitVec.eq_of_toNat_eq h)
  · exact armCond_r15 hc (by simpa [eq_comm] using h15) _

/-! ## MSR (40_arm R401) -/

/-- The write may be limited to the bits that exist before or after it is merged. -/
theorem mergeMask_masked (p k v : Word) :
    mergeMask p (k &&& psrMask) v &&& psrMask = mergeMask p k v &&& psrMask := by
  refine BitVec.eq_of_getLsbD_eq fun i _ => ?_
  simp only [BitVec.getLsbD_and, getLsbD_mergeMask]
  cases psrMask.getLsbD i <;> simp

/-- In User mode the mask selects the flags or nothing. -/
theorem msrUser_masked (p v : Word) (m : BitVec 4) : mergeMask p (msrByteMask m &&& 0xF8000000) v &&& psrMask
    = if m.getLsbD 3 then (p &&& 0x000000FF) ||| (v &&& 0xF8000000) else p &&& 0xF80000FF := by
  have flags : ∀ k : BitVec 4, msrByteMask k &&& 0xF8000000 = if k.getLsbD 3 then 0xF8000000 else 0 := by decide
  rw [flags]
  cases m.getLsbD 3
  · have kept : mergeMask p 0 v = p := BitVec.eq_of_getLsbD_eq fun i _ => by
      rw [getLsbD_mergeMask, BitVec.ofNat_eq_ofNat, BitVec.getLsbD_zero]
      rfl
    exact congrArg (· &&& psrMask) kept
  · exact (mergeMask_and v p (n := 0x000000FF) (by decide) (by decide)).trans (BitVec.or_comm _ _)

/-- In a privileged mode every bit that exists is written as the mask says, but T is kept. -/
theorem msrPrivileged_masked (p k v : Word) : mergeMask p (k &&& 0xF80000DF) v &&& psrMask
    = setBit (mergeMask p k v &&& 0xF80000FF) 5 (bitT p) := by
  refine BitVec.eq_of_getLsbD_eq fun i hi => ?_
  by_cases h5 : i = 5
  · subst h5
    rw [getLsbD_setBit_self _ (by decide)]
    exact (getLsbD_and_psrMask _ (.inl (by decide))).trans (bitT_msr p k v)
  · have key : ∀ j : Fin 32, j.val ≠ 5 → (0xF80000DF : Word).getLsbD j.val = (0xF80000FF : Word).getLsbD j.val := by
      decide
    rw [getLsbD_setBit_of_ne _ h5]
    simp only [psrMask, BitVec.getLsbD_and, getLsbD_mergeMask, key ⟨i, hi⟩ h5]
    cases (0xF80000FF : Word).getLsbD i <;> simp

/-- The bits that a privileged MSR leaves out are not the mode's. -/
theorem modeBits_msrPrivileged (p k v : Word) :
    modeBits (mergeMask p (k &&& 0xF80000DF) v) = modeBits (mergeMask p k v) := by
  refine modeBits_congr fun i hi => ?_
  have low : ∀ j : Fin 5, (0xF80000DF : Word).getLsbD j.val = true := by decide
  rw [getLsbD_mergeMask, getLsbD_mergeMask, BitVec.getLsbD_and, low ⟨i, hi⟩, Bool.and_true]

theorem checkMode_none {s : State} {m : BitVec 5} (hl : modeLegal m = true) (hd : m ≠ modeDbg)
    (hs : s.dbg.sds = false) : checkMode m s = none := by
  simp [checkMode, hl, hd, hs]

section
variable {s : State} (hT : s.thumb = false) (m : BitVec 4) (v : Word)
include hT

theorem msrCpsr_user (hu : s.mode = modeUsr) : msrCpsr m v s = .next { s with
    cpsr := if m.getLsbD 3 then (s.cpsr &&& 0x000000FF) ||| (v &&& 0xF8000000) else s.cpsr &&& 0xF80000FF
    pc := s.pc + 4 } := by
  have user : s.priv = false := by rw [State.priv, hu]; rfl
  rw [msrCpsr, if_neg (by rw [user]; exact Bool.false_ne_true), isize_arm hT, State.setCpsr, msrUser_masked]
  rfl

theorem msrCpsr_privileged (hu : s.mode ≠ modeUsr) (hs : s.dbg.sds = false) {m : BitVec 4} {v : Word}
    (hv : m.getLsbD 0 = true → v.getLsbD 5 = false)
    (hl : modeLegal (modeBits (mergeMask s.cpsr (msrByteMask m) v)) = true)
    (hd : modeBits (mergeMask s.cpsr (msrByteMask m) v) ≠ modeDbg) : msrCpsr m v s = .next { s with
      cpsr := setBit (mergeMask s.cpsr (msrByteMask m) v &&& 0xF80000FF) 5 s.thumb, pc := s.pc + 4 } := by
  have priv : s.priv = true := by simpa [State.priv, modePriv] using hu
  have keepsT : v &&& 0x20 &&& msrByteMask m = 0 := by
    have byte0 : ∀ k : BitVec 4, k.getLsbD 0 = false → 0x20 &&& msrByteMask k = 0 := by decide
    cases h0 : m.getLsbD 0
    · rw [BitVec.and_assoc, byte0 m h0]
      exact BitVec.and_zero
    · rw [and_bitT, hv h0, if_neg Bool.false_ne_true]
      exact BitVec.zero_and
  have enters : checkMode (modeBits (mergeMask s.cpsr (msrByteMask m &&& 0xF80000DF) v)) s = none := by
    rw [modeBits_msrPrivileged]
    exact checkMode_none hl hd hs
  rw [msrCpsr, if_pos priv, if_neg (not_not.2 keepsT)]
  simp only [enters]
  rw [isize_arm hT, State.setCpsr, msrPrivileged_masked]
  rfl

theorem msrSpsr_run {k : Fin 6} (hk : spsrIndex s.mode = some k) : msrSpsr m v s = .next { s with
    spsrs := s.spsrs.set k (mergeMask s.spsrs[k] (msrByteMask m) v &&& 0xF80000FF), pc := s.pc + 4 } := by
  have written : mergeMask s.spsrs[k] (msrByteMask m &&& 0xF80000FF) v &&& psrMask
      = mergeMask s.spsrs[k] (msrByteMask m) v &&& 0xF80000FF := mergeMask_masked s.spsrs[k] (msrByteMask m) v
  rw [msrSpsr, hk]
  simp only [State.setSpsr, written, isize_arm hT]
  rfl

end

/-- Settles O18: MRS is a register write; both forms of MSR are `msr` of their operand, by the mode and the register. -/
theorem statusRegisterTransfers : Obligations.StatusRegisterTransfers := by
  unfold Obligations.StatusRegisterTransfers
  intro c s hc hT
  have mrs {r : Bool} {rd : Reg} (hd : rd ≠ 15) {p : Word} (hp : (if r then s.spsr else some s.cpsr) = some p) :
      exec (.mrs c r rd) s = .next (s.wrote rd p s.cpsr 4) := by
    refine (armCond_pass hc).trans ((noR15_run (fifteen_notMem (l := [rd]) hd)).trans ?_)
    have write : writeReg rd p s = .next (s.wrote rd p s.cpsr 4) := by rw [writeReg_of_ne hd, isize_arm hT]
    cases r
    · obtain rfl := Option.some.inj hp
      exact write
    · simp only [if_true] at hp ⊢
      rw [hp]
      exact write
  refine ⟨fun rd hd => mrs hd rfl, fun rd p hd hp => mrs hd hp, fun m i v form => ?_⟩
  have run (r : Bool) : exec (i r) s = msr r m v s := by
    obtain ⟨rm, hm, rfl, hi⟩ | ⟨op, rfl, hi⟩ := form
    · rw [hi]
      exact (armCond_pass hc).trans (noR15_run (fifteen_notMem (l := [rm]) hm))
    · rw [hi]
      exact armCond_pass hc
  exact ⟨fun hu => (run false).trans (msrCpsr_user hT m v hu),
    fun hu hs hv hl hd => (run false).trans (msrCpsr_privileged hT hu hs hv hl hd),
    fun k hk => (run true).trans (msrSpsr_run hT m v hk)⟩

/-! ## The return from an exception (40_arm R399) -/

/-- Settles O29: with an SPSR the return runs, without one it stops. -/
theorem returnFromException : Obligations.ReturnFromException := by
  unfold Obligations.ReturnFromException
  exact fun v s => ⟨fun p hp hl hd => exceptionReturn_run hp hl hd v, fun h => exceptionReturn_noSpsr h v⟩

end Sys2Proof.Machine
end

section
/-!
PROOFS. The ARM multiplies, the DSP multiplies and the saturating arithmetic (41_arm R421 to R436): what each write of a result
leaves, the accumulator RdHi:RdLo as a number, and the clamp.
-/

namespace Sys2Proof.Machine

/-! ## Writes of results -/

theorem writeProduct_of_ne {rd : Reg} (h : rd ≠ 15) (sb : Bool) (v : Word) (s : State) : writeProduct sb rd v s
    = .next (s.wrote rd v (if sb then withNZ s.cpsr v.msb (v == 0) else s.cpsr) s.isize) := by
  rw [writeProduct, setReg_of_ne h]
  rfl

theorem writeSticky_of_ne {rd : Reg} (h : rd ≠ 15) (v : Word) (q : Bool) (s : State) : writeSticky rd v q s
    = .next (s.wrote rd v (if q then s.cpsr ||| 0x08000000 else s.cpsr) s.isize) := by
  rw [writeSticky, setReg_of_ne h]
  rfl

theorem writeLong_of_ne {hi lo : Reg} (hhi : hi ≠ 15) (hlo : lo ≠ 15) (sb : Bool) (v : BitVec 64) (s : State) :
    writeLong sb hi lo v s = .next { s with
      regs := (s.regs.set (bankIndex s.mode hi) (v.extractLsb' 32 32)).set (bankIndex s.mode lo) (v.extractLsb' 0 32)
      cpsr := if sb then withNZ s.cpsr v.msb (v == 0) else s.cpsr
      pc := s.pc + s.isize } := by
  rw [writeLong, State.setLong, setReg_of_ne hhi, setReg_of_ne hlo]
  rfl

/-! ## The accumulator RdHi:RdLo -/

theorem toNat_long (s : State) (hi lo : Reg) : (s.long hi lo).toNat = (s.reg hi).toNat * 2 ^ 32 + (s.reg lo).toNat := by
  rw [State.long, BitVec.toNat_append, ← Nat.shiftLeft_add_eq_or_of_lt (s.reg lo).isLt, Nat.shiftLeft_eq]

/-- Modulo 2^64 a sum is the same whether its second term is read as signed or as unsigned. -/
theorem ofInt_add_toInt (p : Int) (v : BitVec 64) : BitVec.ofInt 64 (p + v.toInt) = BitVec.ofInt 64 (p + v.toNat) := by
  rw [BitVec.ofInt_add, BitVec.ofInt_add, BitVec.ofInt_toInt, BitVec.ofInt_natCast, BitVec.ofNat_toNat, BitVec.setWidth_eq]

/-! ## An instruction as its write -/

section
variable {c : Cond} {s : State} {i : Instr} {l : List Reg} (hc : condPassed c s.cpsr = true) (h15 : 15 ∉ l)
include hc h15

theorem exec_of_noR15 {k : Out} (h : exec i s = armCond c s (noR15 l k)) : exec i s = k :=
  h.trans ((armCond_pass hc).trans (noR15_run h15))

theorem exec_twoDests_clash {k : Out} {hi lo : Reg} (same : hi = lo)
    (h : exec i s = armCond c s (noR15 l (twoDests hi lo k))) : exec i s = .refused .registerClash :=
  (exec_of_noR15 hc h15 h).trans (if_pos same)

section
variable (hT : s.thumb = false)
include hT

theorem exec_writeReg {rd : Reg} (hd : rd ≠ 15) {v : Word} (h : exec i s = armCond c s (noR15 l (writeReg rd v s))) :
    exec i s = .next (s.wrote rd v s.cpsr 4) := by
  rw [exec_of_noR15 hc h15 h, writeReg_of_ne hd, isize_arm hT]

theorem exec_writeProduct {rd : Reg} (hd : rd ≠ 15) {sb : Bool} {v : Word}
    (h : exec i s = armCond c s (noR15 l (writeProduct sb rd v s))) :
    exec i s = .next (s.wrote rd v (if sb then withNZ s.cpsr v.msb (v == 0) else s.cpsr) 4) := by
  rw [exec_of_noR15 hc h15 h, writeProduct_of_ne hd, isize_arm hT]

theorem exec_writeSticky {rd : Reg} (hd : rd ≠ 15) {v : Word} {q : Bool}
    (h : exec i s = armCond c s (noR15 l (writeSticky rd v q s))) :
    exec i s = .next (s.wrote rd v (if q then s.cpsr ||| 0x08000000 else s.cpsr) 4) := by
  rw [exec_of_noR15 hc h15 h, writeSticky_of_ne hd, isize_arm hT]

theorem exec_writeLong {hi lo : Reg} (hhi : hi ≠ 15) (hlo : lo ≠ 15) (ne : hi ≠ lo) {sb : Bool} {v : BitVec 64}
    (h : exec i s = armCond c s (noR15 l (twoDests hi lo (writeLong sb hi lo v s)))) : exec i s = .next { s with
      regs := (s.regs.set (bankIndex s.mode hi) (v.extractLsb' 32 32)).set (bankIndex s.mode lo) (v.extractLsb' 0 32)
      cpsr := if sb then withNZ s.cpsr v.msb (v == 0) else s.cpsr
      pc := s.pc + 4 } := by
  rw [exec_of_noR15 hc h15 h, twoDests, if_neg ne, writeLong_of_ne hhi hlo, isize_arm hT]

end
end

/-- Settles O20: each is a product written under its condition, the 64-bit ones after the check for two destinations. -/
theorem multiplyResults : Obligations.MultiplyResults := by
  unfold Obligations.MultiplyResults
  refine ⟨?_, by decide⟩
  intro c sb y x hi lo rs rm s hc hT hhi hlo hrs hrm m n sm hm acc fl short long
  have operands : 15 ∉ [hi, rs, rm] := fifteen_notMem ⟨hhi, hrs, hrm⟩
  have all : 15 ∉ [hi, lo, rs, rm] := fifteen_notMem ⟨hhi, hlo, hrs, hrm⟩
  have product : s.reg rm * s.reg rs = BitVec.ofNat 32 (m * n) := BitVec.mul_def
  have sum : s.reg rm * s.reg rs + s.reg lo = BitVec.ofNat 32 (m * n + (s.reg lo).toNat) := by
    rw [product, BitVec.ofNat_add, BitVec.ofNat_toNat, BitVec.setWidth_eq]
  have accumulator : (s.long hi lo).toNat = acc := toNat_long s hi lo
  have signedSum (p : Int) : BitVec.ofInt 64 (p + (s.long hi lo).toInt) = BitVec.ofInt 64 (p + acc) := by
    rw [ofInt_add_toInt, accumulator]
  refine ⟨?_, ?_, fun ne => ?_, fun same i listed => ?_⟩
  · rw [← product]
    exact exec_writeProduct hc operands hT hhi rfl
  · rw [← sum]
    exact exec_writeProduct hc all hT hhi rfl
  · have write {i sb v} := @exec_writeLong c s i _ hc all hT hi lo hhi hlo ne sb v
    refine ⟨write rfl, ?_, write rfl, ?_, ?_⟩
    · rw [← accumulator]
      exact write rfl
    · rw [← signedSum]
      exact write rfl
    · rw [← signedSum, Int.add_comm]
      exact write rfl
  · have clash {i k} := @exec_twoDests_clash c s i _ hc all k hi lo same
    simp only [List.mem_cons, List.not_mem_nil, or_false] at listed
    obtain rfl | rfl | rfl | rfl | rfl := listed
    · exact clash rfl
    · exact clash rfl
    · exact clash rfl
    · exact clash rfl
    · exact clash rfl

/-! ## The DSP multiplies (41_arm R427 to R430) -/

theorem signedOverflows_iff (v : Int) : signedOverflows v = true ↔ v < -(2 ^ 31) ∨ 2 ^ 31 ≤ v := by
  rw [signedOverflows, Bool.or_eq_true, decide_eq_true_iff, decide_eq_true_iff, Int.sub_one_lt_iff]

/-- Settles O21: a product, or a sum that sets Q when it overflows, written under its condition. -/
theorem dspMultiplyResults : Obligations.DspMultiplyResults := by
  unfold Obligations.DspMultiplyResults
  refine ⟨?_, by decide⟩
  intro c rd rn rs y x rm s hc hT hd hn hs hm p w a q
  have operands : 15 ∉ [rd, rs, rm] := fifteen_notMem ⟨hd, hs, hm⟩
  have all : 15 ∉ [rd, rn, rs, rm] := fifteen_notMem ⟨hd, hn, hs, hm⟩
  have sticky (v : Int) : q v = if signedOverflows v then s.cpsr ||| 0x08000000 else s.cpsr :=
    if_congr (signedOverflows_iff v).symm rfl rfl
  refine ⟨exec_writeReg hc operands hT hd rfl, ?_, exec_writeReg hc operands hT hd rfl, ?_⟩
  · rw [sticky]
    exact exec_writeSticky hc all hT hd rfl
  · rw [sticky]
    exact exec_writeSticky hc all hT hd rfl

/-! ## The clamp (41_arm R432) -/

/-- The nearest value that 32 signed bits hold. -/
def clampSigned (v : Int) : Int := max (-(2 ^ 31)) (min v (2 ^ 31 - 1))

theorem signedSat_eq (v : Int) : signedSat v = (BitVec.ofInt 32 (clampSigned v), decide (clampSigned v ≠ v)) := by
  unfold signedSat
  split
  · have top : clampSigned v = 2 ^ 31 - 1 := by unfold clampSigned; omega
    rw [top, decide_eq_true (by omega)]
    rfl
  · split
    · have bottom : clampSigned v = -(2 ^ 31) := by unfold clampSigned; omega
      rw [bottom, decide_eq_true (by omega)]
      rfl
    · have same : clampSigned v = v := by unfold clampSigned; omega
      rw [same, decide_eq_false (not_not.2 rfl)]

theorem toInt_ofInt_clampSigned (v : Int) : (BitVec.ofInt 32 (clampSigned v)).toInt = clampSigned v := by
  rw [BitVec.toInt_ofInt, clampSigned]
  exact Int.bmod_eq_of_le (by omega) (by omega)

/-- Settles O22: each clamps its sum or difference, QDADD and QDSUB the doubled operand before; a clamp that changed a value
sets Q. -/
theorem saturatingArithmetic : Obligations.SaturatingArithmetic := by
  unfold Obligations.SaturatingArithmetic
  refine ⟨?_, by decide⟩
  intro c rn rd rm s hc hT hd hn hm clamp q m n d dq
  have operands : 15 ∉ [rn, rd, rm] := fifteen_notMem ⟨hn, hd, hm⟩
  have write {i v b} := @exec_writeSticky c s i _ hc operands hT rd hd v b
  have single {i} (v : Int) (h : exec i s = armCond c s (noR15 [rn, rd, rm]
      (writeSticky rd (signedSat v).1 (signedSat v).2 s))) :
      exec i s = .next (s.wrote rd (BitVec.ofInt 32 (clamp v)) (q (decide (clamp v ≠ v))) 4) := by
    rw [signedSat_eq] at h
    exact write h
  have doubled : (signedSat (2 * n)).1.toInt = d := by
    rw [signedSat_eq]
    exact toInt_ofInt_clampSigned (2 * n)
  have double {i} (v : Int) (h : exec i s = armCond c s (noR15 [rn, rd, rm]
      (writeSticky rd (signedSat v).1 ((signedSat (2 * n)).2 || (signedSat v).2) s))) :
      exec i s = .next (s.wrote rd (BitVec.ofInt 32 (clamp v)) (q (dq || decide (clamp v ≠ v))) 4) := by
    rw [signedSat_eq, signedSat_eq] at h
    exact write h
  refine ⟨single _ rfl, single _ rfl, double _ ?_, double _ ?_⟩
  · rw [← doubled]
    rfl
  · rw [← doubled]
    rfl

end Sys2Proof.Machine
end

section
/-!
PROOFS. The ARM branches and SWI (42_arm R461 to R466): the target, the link and the state a taken branch leaves.
-/

namespace Sys2Proof.Machine

/-! ## Branches (42_arm R461 to R465) -/

theorem armTarget_eq (pc : Word) (imm : BitVec 24) : armTarget pc imm = pc + 8 + imm.signExtend 32 * 4 := by
  rw [armTarget, BitVec.shiftLeft_eq_mul_twoPow]
  rfl

/-- The link of a branch in ARM state. -/
theorem setReg_link (s : State) (v : Word) :
    s.setReg 14 v = { s with regs := s.regs.set (bankIndex s.mode 14) v } := setReg_of_ne (by decide)

theorem predictedBranch_taken (s : State) (word target : Word) :
    ∃ b x, predictedBranch word true target s = .next { s with pc := target, btb := b, scratch := x } := by
  obtain ⟨b, ev, e⟩ := recordBranch_eq s word true target
  rw [predictedBranch, if_pos rfl, e]
  exact ⟨b, _, rfl⟩

section
variable {c : Cond} {s : State} (pass : condPassed c s.cpsr = true)
include pass

theorem exec_b_pass (imm : BitVec 24) : ∃ b x,
    exec (.b c imm) s = .next { s with pc := s.pc + 8 + imm.signExtend 32 * 4, btb := b, scratch := x } := by
  change ∃ b x, predictedBranch _ (condPassed c s.cpsr) (armTarget s.pc imm) s = _
  rw [pass, armTarget_eq]
  exact predictedBranch_taken s _ _

theorem exec_bl_pass (imm : BitVec 24) : ∃ b x, exec (.bl c imm) s = .next { s with
    regs := s.regs.set (bankIndex s.mode 14) (s.pc + 4), pc := s.pc + 8 + imm.signExtend 32 * 4, btb := b, scratch := x } := by
  change ∃ b x, execBl c imm s = _
  rw [execBl, pass, if_pos rfl, armTarget_eq, setReg_link]
  exact predictedBranch_taken _ _ _

theorem exec_bx_pass (rm : Reg) : exec (.bx c rm) s = branchExchange (s.reg rm) s.noteBranch :=
  armCond_pass (s := s.noteBranch) pass

theorem exec_blx2_r15 : exec (.blx2 c 15) s = .refused .r15Operand :=
  (armCond_pass (s := s.noteBranch) pass).trans (noR15_stop (by decide))

/-- The link is that of the mode; the target was read before it was written. -/
theorem exec_blx2_pass {rm : Reg} (h : rm ≠ 15) : exec (.blx2 c rm) s = branchExchange (s.reg rm)
    { s.noteBranch with regs := s.regs.set (bankIndex s.mode 14) (s.pc + 4) } := by
  refine ((armCond_pass (s := s.noteBranch) pass).trans (noR15_run (fifteen_notMem (l := [rm]) h))).trans ?_
  rw [setReg_link]
  rfl

end

/-- BLX(1) has no condition and always enters Thumb state. -/
theorem exec_blx1 (h : Bool) (imm : BitVec 24) (s : State) : ∃ x, exec (.blx1 h imm) s = .next { s with
    regs := s.regs.set (bankIndex s.mode 14) (s.pc + 4)
    cpsr := s.cpsr ||| 0x20
    pc := s.pc + 8 + imm.signExtend 32 * 4 + (if h then 2 else 0)
    scratch := x } := by
  change ∃ x, execBlx1 h imm s = _
  rw [execBlx1, setReg_link, armTarget_eq]
  exact ⟨_, rfl⟩

/-- Settles O24: B and BL are a predicted branch, taken or not; BX and BLX(2) exchange with the register they name. -/
theorem armBranches : Obligations.ArmBranches := by
  unfold Obligations.ArmBranches
  refine ⟨?_, by decide⟩
  intro c imm s hT t linked
  refine ⟨fun pass => ⟨exec_b_pass pass imm, exec_bl_pass pass imm, exec_blx2_r15 pass, ?_⟩, fun fail => ⟨?_, ?_⟩,
    fun h => exec_blx1 h imm s⟩
  · intro rm v
    rw [exec_bx_pass pass]
    refine ⟨fun aligned => ⟨branchExchange_run aligned _, fun h15 => ?_⟩,
      fun unaligned => ⟨branchExchange_stop unaligned _, fun h15 => ?_⟩⟩
    · rw [exec_blx2_pass pass h15]
      exact branchExchange_run aligned _
    · rw [exec_blx2_pass pass h15]
      exact branchExchange_stop unaligned _
  · obtain ⟨b, ev, e⟩ := exec_b_fail fail hT (.inl rfl)
    exact ⟨b, _, e⟩
  · obtain ⟨b, ev, e⟩ := exec_b_fail fail hT (.inr rfl)
    exact ⟨b, _, e⟩

/-! ## SWI (42_arm R466) -/

/-- Settles O26: SWI of either set is the exception, of ARM under its condition, with the link past the instruction. -/
theorem softwareInterrupt : Obligations.SoftwareInterrupt := by
  unfold Obligations.SoftwareInterrupt
  refine ⟨?_, by decide⟩
  intro s out
  refine ⟨fun hT c imm pass => ?_, fun hT imm => ?_⟩
  · have run : exec (.swi c imm) s = raiseSwi s := armCond_pass pass
    rw [run]
    refine ⟨fun hs => ?_, raiseSwi_stop⟩
    rw [raiseSwi_run hs, isize_arm hT]
  · have run : exec (.tSwi imm) s = raiseSwi s := rfl
    rw [run]
    refine ⟨fun hs => ?_, raiseSwi_stop⟩
    rw [raiseSwi_run hs, isize_thumb hT]

end Sys2Proof.Machine
end

section
/-!
PROOFS. The debug exceptions (61_debug R750 to R753), BKPT, and data breakpoints: when an access notes one, and what the end of
a step makes of it (R758).
-/

namespace Sys2Proof.Machine

/-! ## The registers a debug exception writes -/

theorem bitI_entryCpsr (p : Word) (m : BitVec 5) (f : Bool) : bitI (entryCpsr p m f) = true :=
  (getLsbD_entryCpsr p m f (by decide)).trans (getLsbD_setBit_self _ (by decide) true)

theorem bitT_entryCpsr (p : Word) (m : BitVec 5) (f : Bool) : bitT (entryCpsr p m f) = false :=
  (getLsbD_entryCpsr p m f (by decide)).trans
    ((getLsbD_setBit_of_ne _ (by decide) true).trans (getLsbD_setBit_self _ (by decide) false))

theorem bitF_entryCpsr (p : Word) (m : BitVec 5) : bitF (entryCpsr p m true) = true :=
  getLsbD_setBit_self _ (by decide) true

/-- FSR bit 9 marks a debug exception (11_state R91). -/
theorem getLsbD_fsrWord_nine (x d : Bool) (dom st : BitVec 4) : (fsrWord x d dom st).getLsbD 9 = d := by
  rw [fsrWord]
  simp only [BitVec.getLsbD_append]
  cases d <;> rfl

/-- DCSR after a debug exception holds its method of entry (12_state R150). -/
theorem debugCommon_moe (s : State) (moe : BitVec 3) : (s.debugCommon moe).dbg.dcsr.extractLsb' 2 3 = moe := by
  have field : ∀ i : Fin 3, (0x0000001D : Word).getLsbD (2 + i.val) = true := by decide
  refine BitVec.eq_of_getLsbD_eq fun i hi => ?_
  rw [BitVec.getLsbD_extractLsb', State.debugCommon, getLsbD_mergeMask, if_pos (field ⟨i, hi⟩)]
  simp [hi, show 2 + i < 32 by omega, show 1 < 2 + i by omega]

/-- A debug exception disables the trace buffer (61_debug R750). -/
theorem debugCommon_traceOff (s : State) (moe : BitVec 3) : (s.debugCommon moe).dbg.dcsr.getLsbD 0 = false := by
  rw [State.debugCommon, getLsbD_mergeMask, if_pos (by decide)]
  simp

theorem entersHalt_debugEntryHalt (moe : BitVec 3) (link : Word) (s : State) :
    EntersHalt moe link s (debugEntryHalt moe link s) := by
  refine ⟨rfl, mode_entryCpsr _ _ _, ?_, rfl, rfl, bitI_entryCpsr _ _ _, bitF_entryCpsr _ _, bitT_entryCpsr _ _ _,
    debugCommon_moe s moe, debugCommon_traceOff s moe, rfl, rfl, rfl, rfl, fun m r h13 h14 => ?_⟩
  · exact Vector.getElem_set_self _
  · refine (Vector.getElem_set_ne (bankIndex modeDbg 14).isLt _ fun e => h14 (Fin.ext e.symm)).trans ?_
    exact Vector.getElem_set_ne (bankIndex modeDbg 13).isLt _ fun e => h13 (Fin.ext e.symm)

/-- A monitor-mode debug exception is an abort: of an instruction or of data. -/
theorem entersMonitor_debugEntryMonitor (moe : BitVec 3) {e : Exc} (kind : e = .prefetch ∨ e = .data) (link : Word)
    (s : State) : EntersMonitor moe e.offset link s (debugEntryMonitor moe e link s) := by
  obtain rfl | rfl := kind
  all_goals
    exact ⟨rfl, rfl, rfl, rfl, getLsbD_fsrWord_nine _ _ _ _, rfl, debugCommon_moe s moe, debugCommon_traceOff s moe, rfl,
      rfl, rfl⟩

theorem entersDebug_debugException (moe : BitVec 3) {e : Exc} (kind : e = .prefetch ∨ e = .data) (link : Word) (s : State) :
    EntersDebug moe e.offset link s (debugException moe e link s) := by
  refine ⟨fun halt => ?_, fun monitor => ?_⟩
  · rw [debugException, if_pos halt]
    exact entersHalt_debugEntryHalt moe link s
  · rw [debugException, if_neg (by rw [monitor]; exact Bool.false_ne_true)]
    exact entersMonitor_debugEntryMonitor moe kind link s

/-! ## BKPT (42_arm R467, 46_thumb R659) -/

theorem breakpoint_disabled {s : State} (h : s.ge = false) : breakpoint s = .next { s with pc := s.pc + s.isize } := by
  rw [breakpoint, h]
  rfl

theorem breakpoint_enabled {s : State} (h : s.ge = true) (hs : s.dbg.sds = false) :
    breakpoint s = .next (debugException 0b011 .prefetch (s.pc + 4) s) := by
  rw [breakpoint, h, hs]
  rfl

/-! ## The match of a data breakpoint (61_debug R758) -/

theorem typeMatch_iff (e : BitVec 2) (store : Bool) :
    typeMatch e store = true ↔ (e = 0b01 ∧ store = true) ∨ e = 0b10 ∨ (e = 0b11 ∧ store = false) := by
  cases store <;> simp [typeMatch]

/-- Words agree outside a mask when they agree with the mask's bits set. -/
theorem and_not_eq_iff_or_eq (x y m : Word) : x &&& ~~~m = y &&& ~~~m ↔ x ||| m = y ||| m := by
  have set (v : Word) : (v &&& ~~~m) ||| m = v ||| m := BitVec.eq_of_getLsbD_eq fun i hi => by
    simp only [BitVec.getLsbD_or, BitVec.getLsbD_and, BitVec.getLsbD_not, hi, decide_true, Bool.true_and]
    cases m.getLsbD i <;> simp
  have clear (v : Word) : (v ||| m) &&& ~~~m = v &&& ~~~m := BitVec.eq_of_getLsbD_eq fun i hi => by
    simp only [BitVec.getLsbD_or, BitVec.getLsbD_and, BitVec.getLsbD_not, hi, decide_true, Bool.true_and]
    cases m.getLsbD i <;> simp
  constructor
  · intro h
    rw [← set x, h, set y]
  · intro h
    rw [← clear x, h, clear y]

theorem addrMatch_iff (s : State) (ref mask a : Word) (n : Nat) : s.addrMatch ref mask a n = true
    ↔ ∃ k, k < n ∧ s.mvaOf (a + BitVec.ofNat 32 k) ||| mask = ref ||| mask := by
  simp only [State.addrMatch, List.any_eq_true, List.mem_range, beq_iff_eq, and_not_eq_iff_or_eq]

theorem dataBreakMatch_iff (s : State) (a : Word) (n : Nat) (store : Bool) :
    s.dataBreakMatch a n store = true ↔ BreakMatches s a n store := by
  unfold State.dataBreakMatch BreakMatches
  simp only [Bool.or_eq_true, Bool.and_eq_true, Bool.not_eq_true', typeMatch_iff, addrMatch_iff, BitVec.ofNat_eq_ofNat,
    BitVec.or_zero]
  constructor
  · rintro (⟨kind, k, hk, e⟩ | ⟨⟨unmasked, kind⟩, k, hk, e⟩)
    · exact ⟨k, hk, .inl ⟨kind, e⟩⟩
    · exact ⟨k, hk, .inr ⟨unmasked, kind, e⟩⟩
  · rintro ⟨k, hk, ⟨kind, e⟩ | ⟨unmasked, kind, e⟩⟩
    · exact .inl ⟨kind, k, hk, e⟩
    · exact .inr ⟨⟨unmasked, kind⟩, k, hk, e⟩

/-- The note adds to what was noted before. -/
theorem noteBreak_eq (s : State) (a : Word) (n : Nat) (store : Bool) : s.noteBreak a n store = { s with
    scratch := { s.scratch with dataBreak := s.scratch.dataBreak || s.dataBreakMatch a n store } } := by
  unfold State.noteBreak
  cases s.dataBreakMatch a n store
  · rw [Bool.or_false]
    rfl
  · rw [Bool.or_true]
    rfl

/-! ## Plain accesses keep what was noted -/

/-- Where an address stands without translation (21_mmu R282). -/
def flatXlat (pa : Word) : Xlat := { pa := pa, x := false, c := false, b := false, p := false }

theorem alignData_aligned {n : Nat} {va : Word} (hn : n = 1 ∨ n = 2 ∨ n = 4) (ha : va.toNat % n = 0) (s : State) :
    alignData n va s = .ok va s := by
  obtain rfl | rfl | rfl := hn
  · rfl
  · have even : va.getLsbD 0 = false := by
      rw [BitVec.getLsbD, Nat.testBit_zero, ha]
      rfl
    rw [alignData, if_pos rfl, even]
    rfl
  · rw [alignData, if_neg (by decide), if_pos rfl, if_pos ((toNat_mod_four va).1 ha)]

theorem translateData_mmuOff {s : State} (h : s.mmuOn = false) (a va : Word) (write priv : Bool) :
    translateData a va write priv s = .ok (flatXlat (s.mvaOf a)) s := by
  rw [translateData, translate, h]
  rfl

/-- A read request that nothing disturbs delivers, and keeps the note. -/
theorem busRead_keepsNote {s : State} (hr : s.board.abortRegions = []) (hb : s.board.between = []) (pa req : Word) (n : Nat) :
    ∃ bs t, busRead pa req n false s = .ok (.data bs) t ∧ t.scratch.dataBreak = s.scratch.dataBreak := by
  obtain ⟨x, e⟩ := assertLock_eq s
  have kept : s.assertLock.scratch.dataBreak = s.scratch.dataBreak := by
    unfold State.assertLock
    split <;> rfl
  have noAbort : (s.assertLock.note 0x10).busAborts false pa n = false := by
    rw [e]
    show (s.board.abortRegions.any _) = false
    rw [hr, List.any_nil]
  unfold busRead
  rw [othersWrite_of_none hb]
  dsimp only
  rw [noAbort]
  exact ⟨_, _, rfl, kept⟩

/-- A write request that nothing disturbs is done, and keeps the note. -/
theorem busWrite_keepsNote {s : State} (hr : s.board.abortRegions = []) (hb : s.board.between = []) (u : Bool) (pa : Word)
    (bs : List Byte) : ∃ t, busWrite u pa bs false s = .ok () t ∧ t.scratch.dataBreak = s.scratch.dataBreak := by
  have taken (a : Word) (n : Nat) : (s.note 0x10).takenBytes true a n n 0 = n :=
    takenBytes_all (s := s.note 0x10) hr true a n n 0 (by omega)
  unfold busWrite
  rw [othersWrite_of_none hb]
  dsimp only
  rw [taken, if_neg (Nat.lt_irrefl _)]
  generalize min bs.length _ = k
  refine ⟨_, rfl, ?_⟩
  split
  · rfl
  · obtain ⟨m, hm⟩ := setBytesAt_eq (bs.take k) (s.note 0x10) pa
    obtain ⟨e, he⟩ := clearZeroBlocks_eq (blocksOf pa k) { s.note 0x10 with mem := m }
    rw [hm]
    exact congrArg (·.scratch.dataBreak) he

/-- Plain memory (21_mmu R282, R310; 62_platform R874, R875), a condition each. -/
theorem plainMemory_iff (s : State) : s.plainMemory = true ↔ s.mmuOn = false ∧ s.dcacheOn = false ∧ s.dcache.lines = []
    ∧ s.minid.lines = [] ∧ s.board.abortRegions = [] ∧ s.board.between = [] := by
  simp [State.plainMemory, State.plainBus, and_assoc]

section
variable {s : State} (plain : s.plainMemory = true)
include plain

/-- Without the data cache an untranslated address meets no reserved setting (20_memory R235, R237). -/
theorem attributeFault_plain (pa : Word) : attributeFault (flatXlat pa) s = none := by
  obtain ⟨-, cacheOff, -⟩ := (plainMemory_iff s).1 plain
  rw [attributeFault, cacheOff, Bool.and_false]
  rfl

theorem findData_plain (mva : Word) : s.findData mva = none := by
  obtain ⟨-, -, data, mini, -⟩ := (plainMemory_iff s).1 plain
  rw [State.findData, Cache.find, Cache.find, data, mini]
  rfl

theorem cacheable_plain (x : Xlat) : s.cacheable x = false := by
  obtain ⟨mmuOff, -⟩ := (plainMemory_iff s).1 plain
  rw [State.cacheable, mmuOff]
  rfl

theorem dataRead_keepsNote (pa mva : Word) (n : Nat) :
    ∃ bs t, dataRead (flatXlat pa) mva n s = .ok bs t ∧ t.scratch.dataBreak = s.scratch.dataBreak := by
  obtain ⟨-, -, -, -, regions, between⟩ := (plainMemory_iff s).1 plain
  have counted : s.noteAccess (flatXlat pa) = (s.note 0x0A).note 0x12 := rfl
  have missed : ((s.note 0x0A).note 0x12).findData mva = none := findData_plain (s := s) plain mva
  have uncached : ((s.note 0x0A).note 0x12).cacheable (flatXlat pa) = false := cacheable_plain (s := s) plain _
  obtain ⟨bs, t, e, kept⟩ := busRead_keepsNote (s := ((s.note 0x0A).note 0x12).note 0x0B) regions between pa pa n
  refine ⟨bs, t, ?_, kept⟩
  rw [dataRead, attributeFault_plain plain]
  dsimp only
  rw [counted, missed]
  dsimp only
  rw [uncached, if_neg Bool.false_ne_true]
  exact congrArg (Acc.bind · _) e

theorem dataWrite_keepsNote (pa mva : Word) (bs : List Byte) :
    ∃ t, dataWrite (flatXlat pa) mva bs s = .ok () t ∧ t.scratch.dataBreak = s.scratch.dataBreak := by
  obtain ⟨-, -, -, -, regions, between⟩ := (plainMemory_iff s).1 plain
  let u := ((s.note 0x0A).note 0x12).noteOverwritten pa bs.length
  have counted : (s.noteAccess (flatXlat pa)).noteOverwritten (flatXlat pa).pa bs.length = u := rfl
  have missed : u.findData mva = none := findData_plain (s := s) plain mva
  have uncached : u.cacheable (flatXlat pa) = false := cacheable_plain (s := s) plain _
  obtain ⟨t, e, kept⟩ := busWrite_keepsNote (s := u.note 0x0B) regions between (flatXlat pa).buffered pa bs
  refine ⟨t, ?_, kept⟩
  rw [dataWrite, attributeFault_plain plain]
  dsimp only
  rw [counted, missed]
  dsimp only
  rw [uncached, Bool.false_and, if_neg Bool.false_ne_true]
  exact e

/-- An aligned load of plain memory notes what it matches. -/
theorem readMem_notes {n : Nat} {va : Word} (hn : n = 1 ∨ n = 2 ∨ n = 4) (ha : va.toNat % n = 0) (priv : Bool) :
    ∃ w t, readMem n va priv s = .ok w t
      ∧ t.scratch.dataBreak = (s.scratch.dataBreak || s.dataBreakMatch va n false) := by
  obtain ⟨mmuOff, -⟩ := (plainMemory_iff s).1 plain
  have noted := noteBreak_eq s va n false
  obtain ⟨bs, t, e, kept⟩ := dataRead_keepsNote (s := s.noteBreak va n false) (noted ▸ plain) (s.mvaOf va) (s.mvaOf va) n
  refine ⟨BitVec.ofNat 32 (assemble t.bigEndian bs), t, ?_, kept.trans (by rw [noted])⟩
  rw [readMem, alignData_aligned hn ha]
  dsimp only [Acc.bind]
  rw [translateData_mmuOff mmuOff]
  dsimp only
  rw [e]

/-- An aligned store to plain memory notes what it matches. -/
theorem writeMem_notes {n : Nat} {va : Word} (hn : n = 1 ∨ n = 2 ∨ n = 4) (ha : va.toNat % n = 0) (v : Word) (priv : Bool) :
    ∃ t, writeMem n va v priv s = .ok () t
      ∧ t.scratch.dataBreak = (s.scratch.dataBreak || s.dataBreakMatch va n true) := by
  obtain ⟨mmuOff, -⟩ := (plainMemory_iff s).1 plain
  have noted := noteBreak_eq s va n true
  obtain ⟨t, e, kept⟩ := dataWrite_keepsNote (s := s.noteBreak va n true) (noted ▸ plain) (s.mvaOf va) (s.mvaOf va)
    (disassemble s.bigEndian n v.toNat)
  refine ⟨t, ?_, kept.trans (by rw [noted])⟩
  rw [writeMem, checkStore, alignData_aligned hn ha]
  dsimp only [Acc.bind]
  rw [translateData_mmuOff mmuOff]
  exact e

end

/-! ## The end of the step (61_debug R758) -/

/-- The state with the trace, the counters, the pending full break and the count of free values replaced: what the end of a step
records. -/
def State.recorded (s : State) (t : Trace) (full : Bool) (p : Pmu) (k : Nat) : State :=
  { s with trace := t, dbg := { s.dbg with tbFull := full }, pmu := p, freeCount := k }

/-- The end of a step records, then reports a data breakpoint. -/
theorem retire_eq (s0 s : State) (ran : Bool) : ∃ t full p k,
    s0.retire ran s = { (s.recorded t full p k).reportDataBreak with scratch := .empty } := by
  unfold State.retire
  dsimp only
  split
  · split <;> exact ⟨_, _, _, _, rfl⟩
  · split <;> exact ⟨_, _, _, _, rfl⟩

theorem reportDataBreak_taken {s : State} (noted : s.scratch.dataBreak = true) (hg : s.ge = true) (hs : s.dbg.sds = false) :
    s.reportDataBreak = debugException 0b010 .data (s.pc + 4) s := by
  rw [State.reportDataBreak, noted, hg, hs]
  rfl

theorem reportDataBreak_ignored {s : State} (h : s.ge = false ∨ s.dbg.sds = true) : s.reportDataBreak = s := by
  rw [State.reportDataBreak, if_neg]
  rcases h with h | h <;> simp [h]

/-- Settles O28: BKPT is `breakpoint`; an access notes what it matches, by the comparison of each byte; the end of the step
takes what was noted. -/
theorem softwareAndDataBreakpoints : Obligations.SoftwareAndDataBreakpoints := by
  unfold Obligations.SoftwareAndDataBreakpoints
  refine ⟨fun i s form hs => ?_, fun n va v priv s hn ha plain => ?_, fun s0 s ran noted => ?_⟩
  · have run : exec i s = breakpoint s := by
      obtain ⟨⟨imm, rfl⟩, -⟩ | ⟨⟨imm, rfl⟩, -⟩ := form
      · exact armCond_pass (c := .al) (s := s) rfl
      · rfl
    refine ⟨fun hg => run.trans (breakpoint_disabled hg), fun hg => ⟨_, run.trans (breakpoint_enabled hg hs), ?_⟩⟩
    exact entersDebug_debugException 0b011 (.inl rfl) (s.pc + 4) s
  · intro Noted
    have noted {store : Bool} {t : State} (h : t.scratch.dataBreak = (s.scratch.dataBreak || s.dataBreakMatch va n store)) :
        Noted store t := by
      show _ ↔ _
      rw [h, Bool.or_eq_true, dataBreakMatch_iff]
    obtain ⟨w, t, loaded, hl⟩ := readMem_notes plain hn ha priv
    obtain ⟨u, stored, hu⟩ := writeMem_notes plain hn ha v priv
    exact ⟨⟨w, t, loaded, noted hl⟩, u, stored, noted hu⟩
  · obtain ⟨tr, full, p, k, e⟩ := retire_eq s0 s ran
    rw [e]
    refine ⟨fun hg hs => ?_, fun h => ?_⟩
    · rw [reportDataBreak_taken (s := s.recorded tr full p k) noted hg hs]
      exact entersDebug_debugException 0b010 (.inr rfl) (s.pc + 4) (s.recorded tr full p k)
    · rw [reportDataBreak_ignored (s := s.recorded tr full p k) h]
      exact ⟨rfl, rfl, rfl, rfl⟩

end Sys2Proof.Machine
end

section
/-!
PROOFS. The addresses of modes 2 to 5 and the process ID (43_arm R481, R482, R500; 44_coprocessor R540; 11_state R123), and
which forms their checks let run.
-/

namespace Sys2Proof.Machine

/-! ## Addresses -/

/-- The modified virtual address of an address in the first 32 MB is in the process's own 32 MB (11_state R123). -/
theorem mvaOf_low {s : State} {va : Word} (h : va.toNat < 2 ^ 25) :
    (s.mvaOf va).toNat = s.cp15.pid.toNat / 2 ^ 25 * 2 ^ 25 + va.toNat := by
  have zero : va.extractLsb' 25 7 = 0 := by
    apply BitVec.eq_of_toNat_eq
    rw [BitVec.extractLsb'_toNat, Nat.shiftRight_eq_div_pow, Nat.div_eq_of_lt h]
    rfl
  have process : s.cp15.pid.toNat / 2 ^ 25 < 2 ^ 7 := by
    have := s.cp15.pid.isLt
    omega
  have offset : (va.extractLsb' 0 25).toNat = va.toNat := by
    rw [BitVec.extractLsb'_toNat, Nat.shiftRight_zero, Nat.mod_eq_of_lt h]
  rw [State.mvaOf, if_pos zero, BitVec.toNat_append, ← Nat.shiftLeft_add_eq_or_of_lt (BitVec.isLt _), Nat.shiftLeft_eq, offset,
    BitVec.extractLsb'_toNat, Nat.shiftRight_eq_div_pow, Nat.mod_eq_of_lt process]

/-- Any other address is unchanged. -/
theorem mvaOf_high {s : State} {va : Word} (h : 2 ^ 25 ≤ va.toNat) : s.mvaOf va = va := by
  refine if_neg fun zero => ?_
  have top := congrArg BitVec.toNat zero
  rw [BitVec.extractLsb'_toNat, Nat.shiftRight_eq_div_pow] at top
  have := va.isLt
  simp only [BitVec.ofNat_eq_ofNat, BitVec.toNat_ofNat] at top
  omega

/-- Settles O34: each mode by its definition, the process ID by whether the address is in the first 32 MB. -/
theorem addressComputation : Obligations.AddressComputation := by
  unfold Obligations.AddressComputation
  intro s o rn u w b k
  refine ⟨⟨rfl, rfl, rfl⟩, ⟨rfl, rfl, rfl⟩, fun n => ⟨rfl, rfl, rfl, rfl⟩, fun off => ?_, mvaOf_low, mvaOf_high⟩
  intro z m
  have words : offsetBy u b (off.setWidth 32 <<< 2) = m := by
    rw [BitVec.shiftLeft_eq_mul_twoPow]
    rfl
  have pre : s.mode5 ⟨true, u, false, true, rn⟩ off = ⟨m, some m⟩ := congrArg (fun a => Addr.mk a (some a)) words
  exact ⟨congrArg (Addr.mk · none) words, pre, congrArg (Addr.mk b <| some ·) words, rfl⟩

end Sys2Proof.Machine
end

section
/-!
PROOFS. The loads and stores of one register and of two (O43, O44, O45): each form that may run is one of the shared
transfers, and what that leaves when its access succeeds.
-/

namespace Sys2Proof.Machine

/-! ## Forms that their checks let run (43_arm R481, R482) -/

theorem wbRefusal_none {wb post : Bool} {rn : Reg} {rds : List Reg} {rm : Option Reg} (hm : rm ≠ some 15)
    (hwb : wb = true → rn ≠ 15 ∧ rn ∉ rds) (hpost : post = true → rm ≠ some rn) : wbRefusal wb post rn rds rm = none := by
  have base : ¬(wb && rn == 15) = true := fun h => by
    obtain ⟨h, e⟩ := Bool.and_eq_true_iff.1 h
    exact (hwb h).1 (beq_iff_eq.1 e)
  have transferred : ¬(wb && rds.any fun r => r == rn) = true := fun h => by
    obtain ⟨h, e⟩ := Bool.and_eq_true_iff.1 h
    obtain ⟨r, hr, e⟩ := List.any_eq_true.1 e
    exact (hwb h).2 (beq_iff_eq.1 e ▸ hr)
  have offset : ¬(post && rm == some rn) = true := fun h => by
    obtain ⟨h, e⟩ := Bool.and_eq_true_iff.1 h
    exact hpost h (beq_iff_eq.1 e)
  rw [wbRefusal, if_neg hm, if_neg base, if_neg transferred, if_neg offset]

theorem mode2Refusal_none {a : Mode2} {rd : Reg} {rm : Option Reg} (h : Mode2Ok a rd rm) : mode2Refusal a rd rm = none := by
  obtain ⟨indexed, hm, post⟩ := h
  refine wbRefusal_none hm (fun hi => ?_) fun hp => post (beq_iff_eq.1 hp)
  obtain ⟨base, dest⟩ := indexed (bne_iff_ne.1 hi)
  exact ⟨base, mt List.mem_singleton.1 dest.symm⟩

theorem mode3Refusal_none {a : Mode3} {rds : List Reg} {rm : Option Reg} (h : Mode3Ok a rds rm) :
    mode3Refusal a rds rm = none := by
  obtain ⟨listed, indexed, hm, post⟩ := h
  have reserved : ¬(!a.p && a.w) = true := fun h => listed (by simpa using h)
  exact (if_neg reserved).trans (wbRefusal_none hm (fun hi => indexed (by simpa using hi)) fun hp => post (by simpa using hp))

theorem notInDebug_run {s : State} (h : s.mode ≠ modeDbg) (k : Out) : notInDebug s k = k := if_neg (mt beq_iff_eq.1 h)

section
variable {c : Cond} {s : State} (hc : condPassed c s.cpsr = true)
include hc

/-- What neither the check for R15 nor the one of its addressing mode refuses goes on. -/
theorem armCond_noR15_allowed {rd : Reg} (hd : rd ≠ 15) {r : Option Refusal} (h : r = none) (k : Out) :
    armCond c s (noR15 [rd] (unlessRefused r k)) = k :=
  (armCond_pass hc).trans ((noR15_run (mt List.mem_singleton.1 hd.symm)).trans (unlessRefused_run h k))

/-- What is kept from DEBUG mode by `p` goes on outside it. -/
theorem armCond_outsideDebug {r : Option Refusal} (h : r = none) {p : Prop} [Decidable p] (hp : p → s.mode ≠ modeDbg)
    (k : Out) : armCond c s (unlessRefused r (if p then notInDebug s k else k)) = k := by
  refine armCond_allowed hc h ?_
  split
  · rename_i hd
    exact notInDebug_run (hp hd) k
  · rfl

end

/-! ## The base -/

theorem mode2_base {s : State} {a : Mode2} {o : Word} {rd : Reg} {rm : Option Reg} (h : Mode2Ok a rd rm)
    (hw : (s.mode2 a o).wb ≠ none) : a.rn ≠ 15 := by
  refine (h.1 fun hi => hw ?_).1
  rw [State.mode2, hi]

theorem mode3_base {s : State} {a : Mode3} {o : Word} {rds : List Reg} {rm : Option Reg} (h : Mode3Ok a rds rm)
    (hw : (s.mode3 a o).wb ≠ none) : a.rn ≠ 15 := by
  obtain ⟨-, indexed, -⟩ := h
  by_cases hi : a.p = false ∨ a.w = true
  · exact (indexed hi).1
  · obtain ⟨hp, hn⟩ : a.p = true ∧ a.w = false := by simpa using hi
    exact absurd (by rw [State.mode3, hp, hn]; rfl) hw

/-! ## The forms as transfers -/

/-- The transfer of a load of `n` bytes. -/
def load (n : Nat) (signed priv : Bool) (a : Addr) (rn rd : Reg) (s : State) : Out :=
  if n = 4 then loadWord priv a rn rd s else loadSmall n signed priv a rn rd s

/-- An offset in words, and in halfwords. -/
theorem words_eq (v : Word) : v * (4 : Word) = v <<< 2 := (BitVec.shiftLeft_eq_mul_twoPow v 2).symm
theorem halfwords_eq (v : Word) : v * (2 : Word) = v <<< 1 := (BitVec.shiftLeft_eq_mul_twoPow v 1).symm

section
variable {s : State} {i : Instr} {n : Nat} {signed priv : Bool} {a : Addr} {rn rd : Reg} {v : Word}

/-- A load form that may run is the transfer of its operands, and its base may be written back. -/
theorem LoadForm.exec_eq (h : LoadForm s i n signed priv a rn rd) :
    exec i s = load n signed priv a rn rd s ∧ (a.wb ≠ none → rn ≠ 15) := by
  have thumb (r : Reg) (b : Word) : (Addr.mk b none).wb ≠ none → r ≠ 15 := fun h => absurd rfl h
  cases h with
  | ldrImm c a rd off _ hc hd ok => exact ⟨armCond_outsideDebug hc (mode2Refusal_none ok) hd _, mode2_base ok⟩
  | ldrReg c a rd sh _ hc hd ok => exact ⟨armCond_outsideDebug hc (mode2Refusal_none ok) hd _, mode2_base ok⟩
  | ldrbImm c a rd off _ hc hd ok => exact ⟨armCond_noR15_allowed hc hd (mode2Refusal_none ok) _, mode2_base ok⟩
  | ldrbReg c a rd sh _ hc hd ok => exact ⟨armCond_noR15_allowed hc hd (mode2Refusal_none ok) _, mode2_base ok⟩
  | ldrtImm c u rn rd off _ hc hd ok => exact ⟨armCond_noR15_allowed hc hd (mode2Refusal_none ok) _, mode2_base ok⟩
  | ldrtReg c u rn rd sh _ hc hd ok => exact ⟨armCond_noR15_allowed hc hd (mode2Refusal_none ok) _, mode2_base ok⟩
  | ldrbtImm c u rn rd off _ hc hd ok => exact ⟨armCond_noR15_allowed hc hd (mode2Refusal_none ok) _, mode2_base ok⟩
  | ldrbtReg c u rn rd sh _ hc hd ok => exact ⟨armCond_noR15_allowed hc hd (mode2Refusal_none ok) _, mode2_base ok⟩
  | ldrhImm c a rd off _ hc hd ok => exact ⟨armCond_noR15_allowed hc hd (mode3Refusal_none ok) _, mode3_base ok⟩
  | ldrhReg c a rd rm _ hc hd ok => exact ⟨armCond_noR15_allowed hc hd (mode3Refusal_none ok) _, mode3_base ok⟩
  | ldrshImm c a rd off _ hc hd ok => exact ⟨armCond_noR15_allowed hc hd (mode3Refusal_none ok) _, mode3_base ok⟩
  | ldrshReg c a rd rm _ hc hd ok => exact ⟨armCond_noR15_allowed hc hd (mode3Refusal_none ok) _, mode3_base ok⟩
  | ldrsbImm c a rd off _ hc ok => exact ⟨armCond_allowed hc (mode3Refusal_none ok) rfl, mode3_base ok⟩
  | ldrsbReg c a rd rm _ hc ok => exact ⟨armCond_allowed hc (mode3Refusal_none ok) rfl, mode3_base ok⟩
  | tLdr2 | tLdrh2 | tLdrb2 | tLdrsb | tLdrsh => exact ⟨rfl, thumb _ _⟩
  | tLdrb1 => exact ⟨by rw [BitVec.ofNat_eq_ofNat, BitVec.mul_one]; rfl, thumb _ _⟩
  | tLdrh1 => exact ⟨by rw [halfwords_eq]; rfl, thumb _ _⟩
  | tLdr1 | tLdr3 | tLdr4 => exact ⟨by rw [words_eq]; rfl, thumb _ _⟩

/-- A store form that may run is the transfer of its operands, and its base may be written back. -/
theorem StoreForm.exec_eq (h : StoreForm s i n v priv a rn) :
    exec i s = store n v priv a rn s ∧ (a.wb ≠ none → rn ≠ 15) := by
  have thumb (r : Reg) (b : Word) : (Addr.mk b none).wb ≠ none → r ≠ 15 := fun h => absurd rfl h
  cases h with
  | strImm c a rd off _ hc ok => exact ⟨armCond_allowed hc (mode2Refusal_none ok) rfl, mode2_base ok⟩
  | strReg c a rd sh _ hc ok => exact ⟨armCond_allowed hc (mode2Refusal_none ok) rfl, mode2_base ok⟩
  | strbImm c a rd off _ hc hd ok => exact ⟨armCond_noR15_allowed hc hd (mode2Refusal_none ok) _, mode2_base ok⟩
  | strbReg c a rd sh _ hc hd ok => exact ⟨armCond_noR15_allowed hc hd (mode2Refusal_none ok) _, mode2_base ok⟩
  | strtImm c u rn rd off _ hc ok => exact ⟨armCond_allowed hc (mode2Refusal_none ok) rfl, mode2_base ok⟩
  | strtReg c u rn rd sh _ hc ok => exact ⟨armCond_allowed hc (mode2Refusal_none ok) rfl, mode2_base ok⟩
  | strbtImm c u rn rd off _ hc hd ok => exact ⟨armCond_noR15_allowed hc hd (mode2Refusal_none ok) _, mode2_base ok⟩
  | strbtReg c u rn rd sh _ hc hd ok => exact ⟨armCond_noR15_allowed hc hd (mode2Refusal_none ok) _, mode2_base ok⟩
  | strhImm c a rd off _ hc hd ok => exact ⟨armCond_noR15_allowed hc hd (mode3Refusal_none ok) _, mode3_base ok⟩
  | strhReg c a rd rm _ hc hd ok => exact ⟨armCond_noR15_allowed hc hd (mode3Refusal_none ok) _, mode3_base ok⟩
  | tStr2 | tStrh2 | tStrb2 => exact ⟨rfl, thumb _ _⟩
  | tStrb1 => exact ⟨by rw [BitVec.ofNat_eq_ofNat, BitVec.mul_one]; rfl, thumb _ _⟩
  | tStrh1 => exact ⟨by rw [halfwords_eq]; rfl, thumb _ _⟩
  | tStr1 | tStr3 => exact ⟨by rw [words_eq]; rfl, thumb _ _⟩

/-! ## Results -/

/-- A load to the PC (10_state R34, R37). -/
theorem loadPc_eq (v : Word) (s : State) : ∃ x, loadPc v s = .next { s with
    cpsr := withT s.cpsr (v.getLsbD 0)
    pc := if v.getLsbD 0 then v &&& 0xFFFFFFFE else v &&& 0xFFFFFFFC
    scratch := x } := by
  obtain ⟨x, e⟩ := jumpKeepState_eq v { s with cpsr := withT s.cpsr (v.getLsbD 0) }
  have state : State.thumb { s with cpsr := withT s.cpsr (v.getLsbD 0) } = v.getLsbD 0 := bitT_withT _ _
  exact ⟨x, by rw [loadPc, e, state]⟩

variable {s1 : State} (hn : a.wb ≠ none → rn ≠ 15) (h : readMem n a.addr priv s = .ok v s1)
include hn h

/-- A load of `n` bytes that succeeds writes what it read, rotated or extended. -/
theorem load_ok (hd : rd ≠ 15) : load n signed priv a rn rd s = .next { s1 with
    regs := (s.regsAfterBase rn a.wb).set (bankIndex s.mode rd) (loadedValue n signed a.addr v)
    pc := s.pc + s.isize } := by
  unfold load loadedValue
  split
  · rename_i h4
    subst h4
    exact loadWord_ok hn h hd
  · exact loadSmall_ok hn h hd

theorem load_pc : load n signed priv a rn 15 s
    = loadPc (loadedValue n signed a.addr v) { s1 with regs := s.regsAfterBase rn a.wb } := by
  unfold load loadedValue
  split
  · rename_i h4
    subst h4
    exact loadWord_pc hn h
  · exact loadSmall_pc hn h

end

/-- Settles O43: each form is a `load`, which keeps the core's state but for its destination and its base. -/
theorem loadResults : Obligations.LoadResults := by
  unfold Obligations.LoadResults
  intro s s1 i n signed priv a rn rd v form read w
  obtain ⟨run, base⟩ := form.exec_eq
  have kept := readMem_sameCore read
  refine ⟨kept, fun hd => run.trans (load_ok base read hd), fun hd => ?_⟩
  subst hd
  obtain ⟨x, e⟩ := loadPc_eq w { s1 with regs := s.regsAfterBase rn a.wb }
  refine ⟨x, (run.trans (load_pc base read)).trans (e.trans ?_)⟩
  rw [← kept.cpsr]

/-- Settles O44: each form is a `store`. -/
theorem storeResults : Obligations.StoreResults := by
  unfold Obligations.StoreResults
  intro s s1 i n v priv a rn form stored
  obtain ⟨run, base⟩ := form.exec_eq
  exact ⟨writeMem_sameCore stored, run.trans (store_ok base stored)⟩

/-! ## Doublewords (43_arm R495, R496) -/

/-- A doubleword form that may run is the transfer of its operands: its registers are an even one and the next, neither R15, and
its base may be written back. -/
theorem DoubleForm.exec_eq {s : State} {i : Instr} {stores : Bool} {a : Addr} {rn rd : Reg} (h : DoubleForm s i stores a rn rd) :
    exec i s = (if stores then storeDouble a rn rd s else loadDouble a rn rd s) ∧ s.thumb = false ∧ (a.wb ≠ none → rn ≠ 15)
      ∧ rd ≠ 15 ∧ rd + 1 ≠ 15 := by
  have pair {c : Cond} {rd : Reg} (hc : condPassed c s.cpsr = true) (even : rd.getLsbD 0 = false) (last : rd ≠ 14)
      {r : Option Refusal} (hr : r = none) (k : Out) : armCond c s (doubleRegs rd s (unlessRefused r k)) = k := by
    rw [armCond_pass hc, doubleRegs, even, if_neg Bool.false_ne_true, if_neg last, unlessRefused_run hr]
  have regs : ∀ r : Reg, r.getLsbD 0 = false → r ≠ 14 → r ≠ 15 ∧ r + 1 ≠ 15 := by decide
  cases h with
  | ldrdImm c a rd off hT hc even last ok =>
    exact ⟨pair hc even last (mode3Refusal_none ok) _, hT, mode3_base ok, regs rd even last⟩
  | ldrdReg c a rd rm hT hc even last ok first second =>
    exact ⟨(pair hc even last (mode3Refusal_none ok) _).trans (if_neg (not_or.2 ⟨first, second⟩)), hT, mode3_base ok,
      regs rd even last⟩
  | strdImm c a rd off hT hc even last ok =>
    exact ⟨pair hc even last (mode3Refusal_none ok) _, hT, mode3_base ok, regs rd even last⟩
  | strdReg c a rd rm hT hc even last ok =>
    exact ⟨pair hc even last (mode3Refusal_none ok) _, hT, mode3_base ok, regs rd even last⟩

section
variable {s s1 s2 : State} {a : Addr} {rn rd : Reg} (at_ : a.addr &&& 7 = 0) (hn : a.wb ≠ none → rn ≠ 15)
include at_ hn

/-- LDRD: both words are read, then the base and the registers are written. -/
theorem loadDouble_ok {lo hi : Word} (hd : rd ≠ 15) (hd' : rd + 1 ≠ 15) (h1 : readMem 4 a.addr s.priv s = .ok lo s1)
    (h2 : readMem 4 (a.addr + 4) s.priv s1 = .ok hi s2) : loadDouble a rn rd s = .next { s2 with
      regs := ((s.regsAfterBase rn a.wb).set (bankIndex s.mode rd) lo).set (bankIndex s.mode (rd + 1)) hi
      pc := s.pc + s.isize } := by
  have kept := (readMem_sameCore h1).trans (readMem_sameCore h2)
  simp only [loadDouble, alignDouble, if_pos at_, Acc.bind, h1, h2, Acc.finish_ok, Addr.apply_of kept a rn hn, setReg_of_ne hd,
    setReg_of_ne hd', State.advance, kept.isize, kept.pc]
  simp only [State.mode, kept.cpsr]

/-- STRD: both words are stored, then the base is written. -/
theorem storeDouble_ok (h1 : writeMem 4 a.addr (s.reg rd) s.priv s = .ok () s1)
    (h2 : writeMem 4 (a.addr + 4) (s.reg (rd + 1)) s.priv s1 = .ok () s2) :
    storeDouble a rn rd s = .next { s2 with regs := s.regsAfterBase rn a.wb, pc := s.pc + s.isize } := by
  have kept := (writeMem_sameCore h1).trans (writeMem_sameCore h2)
  simp only [storeDouble, alignDouble, if_pos at_, Acc.bind, h1, h2, Acc.finish_ok, Addr.apply_of kept a rn hn, State.advance,
    kept.isize, kept.pc]

end

/-- Settles O45: each form is a `loadDouble` or a `storeDouble`, whose accesses both succeed. -/
theorem doublewordTransfers : Obligations.DoublewordTransfers := by
  unfold Obligations.DoublewordTransfers
  intro s s1 s2 i a rn rd lo hi at_
  refine ⟨fun form h1 h2 => ?_, fun form h1 h2 => ?_⟩
  all_goals
    obtain ⟨run, arm, base, first, second⟩ := form.exec_eq
    rw [← isize_arm arm]
  · exact ⟨(readMem_sameCore h1).trans (readMem_sameCore h2), run.trans (loadDouble_ok at_ base first second h1 h2)⟩
  · exact ⟨(writeMem_sameCore h1).trans (writeMem_sameCore h2), run.trans (storeDouble_ok at_ base h1 h2)⟩

end Sys2Proof.Machine
end

section
/-!
PROOFS. The frame of a store does not hold as O37 states it: of a buffered region whose TLB entry gives an unaligned physical
address, the words of the request can wrap from the top of memory to its bottom, where the board may abort the second one.
-/

namespace Sys2Proof.Machine

/-- A TLB entry for the megabyte at 0, bufferable, whose physical base is no multiple of 4: no walk of the tables makes one, but
the statement is of every state. -/
def unalignedEntry : TlbEntry :=
  { index := 0, valid := true, locked := false, size := .sect, mva := 0, pa := 0xFFFFFFFF, domain := 0, ap := 0xFF
    x := false, c := false, b := true, p := false }

/-- Supervisor mode, R0 = 0x04030201 and R1 = 0, the MMU on with that entry, a 32-bit bus, and a board that aborts writes of the
byte at 0. -/
def wrappingStore : State :=
  { State.reset with
    regs := State.reset.regs.set 0 0x04030201
    cp15 := { Cp15.reset with control := 0x79, dacr := 3 }
    dtlb := { Tlb.reset with entries := [unalignedEntry] }
    bus32 := true
    board := { State.reset.board with abortRegions := [⟨0, 0, false, true⟩] } }

/-- STR R0, [R1]. -/
def wrappingStr : Instr := .strImm .al ⟨.offset, true, 1⟩ 0 0

theorem wrappingStr_form : StoreForm wrappingStore wrappingStr 4 0x04030201 true ⟨0, none⟩ 1 :=
  .strImm .al ⟨.offset, true, 1⟩ 0 0 rfl rfl ⟨fun h => absurd rfl h, by decide, fun h => nomatch h⟩

/-- The request spans 8 bytes from 0xFFFFFFFC, which as a whole meet no region the board aborts. -/
theorem wrappingStr_request : writeSpan true 0xFFFFFFFF 4 = (0xFFFFFFFC, 8)
    ∧ wrappingStore.busAborts true 0xFFFFFFFC 8 = false := by decide

/-- Its second data cycle, at 0, is aborted: one byte is stored. -/
theorem wrappingStr_stores : ∃ t, exec wrappingStr wrappingStore = .next t ∧ t.bytesAt 0xFFFFFFFF 4 = [1, 0, 0, 0] := by
  have run : (match exec wrappingStr wrappingStore with
      | .next t => t.bytesAt 0xFFFFFFFF 4 == [1, 0, 0, 0]
      | _ => false) = true := by decide
  split at run
  · rename_i t e
    exact ⟨t, e, beq_iff_eq.1 run⟩
  · cases run

/-- Refutes O37: of the four bytes, only the first is the value's. -/
theorem not_storeFrame : ¬ Obligations.StoreFrame := by
  unfold Obligations.StoreFrame
  intro h
  obtain ⟨t, run, bytes⟩ := wrappingStr_stores
  have translated : translate false (wrappingStore.mvaOf 0) true true wrappingStore
      = .ok ⟨0xFFFFFFFF, false, false, true, false⟩ wrappingStore := rfl
  obtain ⟨-, stored⟩ := h 4 wrappingStr 0x04030201 true ⟨0, none⟩ 1 wrappingStore wrappingStore wrappingStore t 0 _
    wrappingStr_form rfl translated rfl rfl rfl rfl run
  have value := stored wrappingStr_request.2
  rw [bytes] at value
  exact absurd value (by decide)

end Sys2Proof.Machine
end

section
/-!
PROOFS. Load and store multiple (O46, O47): each form that may run is one of the shared block transfers, and what that leaves
when its accesses succeed.
-/

namespace Sys2Proof.Machine

/-! ## Forms that their checks let run (43_arm R500, R509, R511) -/

theorem userBank_run {a : Mode4} {s : State} (hw : a.w = false) (hs : (spsrIndex s.mode).isSome = true) (k : Out) :
    userBank a s k = k := by
  obtain ⟨j, hj⟩ := Option.isSome_iff_exists.1 hs
  rw [userBank, hw, hj]
  rfl

theorem setWidth_ne_zero {n m : Nat} {x : BitVec n} (hnm : n ≤ m) (h : x ≠ 0) : x.setWidth m ≠ 0 := fun e => by
  refine h (BitVec.eq_of_toNat_eq ?_)
  have := congrArg BitVec.toNat e
  rwa [BitVec.toNat_setWidth_of_le hnm, BitVec.ofNat_eq_ofNat, BitVec.toNat_ofNat, Nat.zero_mod] at this

/-- A Thumb base's bit in the list. -/
theorem inList_lowReg (list : BitVec 8) (rn : LowReg) : inList (list.setWidth 16) (lowReg rn) = list.getLsbD rn.toNat := by
  have small : rn.toNat < 8 := rn.isLt
  rw [inList, lowReg, BitVec.toNat_setWidth_of_le (by decide), BitVec.getLsbD_setWidth, decide_eq_true (by omega), Bool.true_and]

theorem mode4_noWriteback {s : State} {a : Mode4} (h : a.w = false) (n : Nat) : (s.mode4 a n).wb = none := by
  rw [State.mode4, h]
  rfl

/-! ## Loads -/

section
variable {s t u : State} {a : Addr} {rn : Reg}

/-- Changing the registers on both sides keeps the rest the same. -/
theorem SameCore.withRegs (h : SameCore s t) (g : Vector Word 32) : SameCore { s with regs := g } { t with regs := g } :=
  { h with regs := rfl }

/-- A load multiple changes no more of the core than the registers. -/
theorem loadRegs_kept {m : BitVec 5} {priv : Bool} {rs : List Reg} {start : Word} (h : loadRegs m priv rs start s = .ok () t) :
    SameCore { s with regs := t.regs } t := by
  induction rs generalizing s start with
  | nil =>
    cases h
    exact .refl _
  | cons r rs ih =>
    obtain ⟨v, s1, read, rest⟩ := Acc.bind_ok h
    have after := ih rest
    exact ((readMem_sameCore read).withRegs t.regs).trans after

/-- What a block load does with the word for the PC, if there is one, once its registers are loaded. -/
def afterLoads (a : Addr) (rn : Reg) (pc : Bool) (v : Word) (t : State) : Out :=
  if pc then loadPc v (a.apply rn t) else .next ((a.apply rn t).advance (a.apply rn t).isize)

/-- A block load that may run is the load of its list and what follows it; its base may be written back. -/
theorem LoadList.exec_eq {i : Instr} {m : BitVec 5} {list : BitVec 16} (h : LoadList s i m list a rn) :
    (∃ counted wb, exec i s = (loadList m (lowList list) (list.getLsbD 15) a.addr rn s).finish counted wb
      (afterLoads a rn (list.getLsbD 15))) ∧ rn ≠ 15 := by
  cases h with
  | ldm1 c b list _ hc hd hn hl clash =>
    have listed : ¬(b.w && inList list b.rn) = true := fun e => by
      obtain ⟨hw, hi⟩ := Bool.and_eq_true_iff.1 e
      exact Bool.false_ne_true ((clash hw).symm.trans hi)
    exact ⟨⟨_, _, armCond_allowed hc (mode4Refusal_none hn hl) ((if_neg listed).trans (notInDebug_run hd _))⟩, hn⟩
  | ldm2 c b list _ hc hd hn hl hw hs =>
    have noPc : (list.setWidth 16).getLsbD 15 = false := by simp
    have kept (t : State) : (s.mode4 b (regList (list.setWidth 16)).length).apply b.rn t = t := by
      rw [Addr.apply, mode4_noWriteback hw]
    refine ⟨⟨true, id, armCond_allowed hc (mode4Refusal_none hn (setWidth_ne_zero (by decide) hl))
      ((userBank_run hw hs _).trans ((notInDebug_run hd _).trans ?_))⟩, hn⟩
    rw [noPc]
    refine congrArg (Acc.finish _ true id) (funext fun v => funext fun t => ?_)
    rw [afterLoads, if_neg Bool.false_ne_true, kept]
  | tPop r list _ hd hl =>
    have sp : (13 : Reg) ≠ 15 := by decide
    exact ⟨⟨_, _, (unlessRefused_run (mode4Refusal_none sp hl) _).trans (notInDebug_run hd _)⟩, sp⟩
  | tLdmia rn list _ hd hl =>
    rw [← inList_lowReg]
    exact ⟨⟨_, _, (unlessRefused_run (mode4Refusal_none (lowReg_ne rn) (setWidth_ne_zero (by decide) hl)) _).trans
      (notInDebug_run hd _)⟩, lowReg_ne rn⟩

section
variable {m : BitVec 5} {rs : List Reg} {start : Word} (loaded : loadRegs m s.priv rs start s = .ok () t)
include loaded

theorem loadList_ok : loadList m rs false start rn s = .ok 0 t := by
  rw [loadList, loaded]
  rfl

theorem loadList_pc {v : Word} (read : readMem 4 (start + BitVec.ofNat 32 (4 * rs.length)) s.priv t = .ok v u) :
    loadList m rs true start rn s = .ok v u := by
  rw [loadList, loaded]
  exact congrArg (Acc.onAbort · (keepBase s rn)) read

end
end

/-- Settles O46: the list is loaded, then the base written back; a word for the PC is a load of the PC, or with LDM (3) the
target of the return. -/
theorem blockLoads : Obligations.BlockLoads := by
  unfold Obligations.BlockLoads
  intro s s1 s2 i m list a rn v based
  have written (hn : rn ≠ 15) {t : State} (kept : SameCore { s with regs := s1.regs } t) :
      a.apply rn t = { t with regs := based s1 } := by
    rw [Addr.apply_of kept a rn fun _ => hn]
    rfl
  refine ⟨fun form loaded => ?_, ?_⟩
  · obtain ⟨⟨counted, wb, run⟩, hn⟩ := form.exec_eq
    have kept := loadRegs_kept loaded
    refine ⟨kept, fun noPc => ?_, fun hasPc read => ?_⟩
    · have pc : s1.pc = s.pc := kept.pc
      have size : s1.isize = s.isize := kept.isize
      rw [run, noPc, loadList_ok loaded, Acc.finish_ok, afterLoads, if_neg Bool.false_ne_true, written hn kept, ← pc, ← size]
      rfl
    · have kept2 := kept.trans (readMem_sameCore read)
      have cpsr : s2.cpsr = s.cpsr := kept2.cpsr
      obtain ⟨x, e⟩ := loadPc_eq v { s2 with regs := based s1 }
      refine ⟨x, ?_⟩
      rw [run, hasPc, loadList_pc loaded read, Acc.finish_ok, afterLoads, if_pos rfl, written hn kept2, e, ← cpsr]
  · intro c b l p hi _ hc hd hb clash hp legal notDebug hrn ha loaded read
    subst hi hrn
    have kept := (loadRegs_kept loaded).trans (readMem_sameCore read)
    have dbg : s2.dbg = s.dbg := kept.dbg
    have top : (1#1 ++ l).getLsbD 15 = true := by
      rw [BitVec.getLsbD_append]
      rfl
    have hl : 1#1 ++ l ≠ 0 := fun e => by
      rw [e] at top
      cases top
    have listed : ¬(b.w && inList (1#1 ++ l) b.rn) = true := fun e => by
      obtain ⟨hw, hin⟩ := Bool.and_eq_true_iff.1 e
      exact Bool.false_ne_true ((clash hw).symm.trans hin)
    have saved : State.spsr { s2 with regs := based s1 } = some p := by
      rw [← hp]
      simp only [State.spsr, State.mode, kept.cpsr, kept.spsrs]
    obtain ⟨x, e⟩ := exceptionReturn_run saved legal notDebug v
    refine ⟨x, armCond_allowed hc (mode4Refusal_none hb hl) ((if_neg listed).trans ((notInDebug_run hd _).trans ?_))⟩
    rw [← ha]
    refine (congrArg (Acc.finish · false _ _) (loadList_pc loaded read)).trans ?_
    rw [Acc.finish_ok, written hb kept, e, ← dbg]
    rfl

/-! ## Stores -/

/-- A block store that may run is the store of its list's values, and its base may be written back. -/
theorem StoreList.exec_eq {s : State} {i : Instr} {m : BitVec 5} {list : BitVec 16} {a : Addr} {rn : Reg}
    (h : StoreList s i m list a rn) : exec i s = storeMultiple m a rn list s ∧ rn ≠ 15 := by
  cases h with
  | stm1 c b list _ hc hn hl => exact ⟨armCond_allowed hc (mode4Refusal_none hn hl) rfl, hn⟩
  | stm2 c b list _ hc hn hl hw hs => exact ⟨armCond_allowed hc (mode4Refusal_none hn hl) (userBank_run hw hs _), hn⟩
  | tPush r list _ hl =>
    have sp : (13 : Reg) ≠ 15 := by decide
    exact ⟨unlessRefused_run (mode4Refusal_none sp hl) _, sp⟩
  | tStmia rn list _ hl =>
    exact ⟨unlessRefused_run (mode4Refusal_none (lowReg_ne rn) (setWidth_ne_zero (by decide) hl)) _, lowReg_ne rn⟩

theorem storeWords_sameCore {s t : State} {priv : Bool} {vs : List Word} {start : Word}
    (h : storeWords priv vs start s = .ok () t) : SameCore s t :=
  ((closed_sameCore s).storeWords priv vs (SameCore.refl s) start).ok h

theorem storeMultiple_ok {s t : State} {m : BitVec 5} {a : Addr} {rn : Reg} {list : BitVec 16} (hn : rn ≠ 15)
    (h : storeWords s.priv (s.stmValues m list rn a.wb.isSome) a.addr (s.draw 1) = .ok () t) :
    SameCore s t ∧ storeMultiple m a rn list s = .next { t with regs := s.regsAfterBase rn a.wb, pc := s.pc + s.isize } := by
  have drawn : SameCore s (s.draw 1) := (closed_sameCore s).draw (SameCore.refl s) 1
  have kept := drawn.trans (storeWords_sameCore h)
  refine ⟨kept, ?_⟩
  simp only [storeMultiple, h, Acc.finish_ok, Addr.apply_of kept a rn fun _ => hn, State.advance, kept.isize, kept.pc]

/-- The value stored for a register of the list is the register's, unless it is a base that is written back and not the lowest. -/
theorem stmValues_getElem {s : State} {m : BitVec 5} {list : BitVec 16} {rn r : Reg} {wb : Bool} {k : Nat}
    (hk : (regList list)[k]? = some r) (h : wb = false ∨ r ≠ rn ∨ k = 0) :
    (s.stmValues m list rn wb)[k]? = some (s.storedReg m r) := by
  have known : ¬(wb && r == rn && (regList list).head? != some rn) = true := fun e => by
    simp only [Bool.and_eq_true, beq_iff_eq, bne_iff_ne] at e
    obtain ⟨⟨hw, hr⟩, lowest⟩ := e
    obtain h | h | h := h
    · exact Bool.false_ne_true (h.symm.trans hw)
    · exact h hr
    · rw [h, ← List.head?_eq_getElem?, hr] at hk
      exact lowest hk
  rw [State.stmValues, List.getElem?_map, hk, Option.map_some, if_neg known]

/-- Settles O47: each form is a `storeMultiple` of the values of its list. -/
theorem blockStores : Obligations.BlockStores := by
  unfold Obligations.BlockStores
  intro s s1 i m list a rn form
  obtain ⟨run, hn⟩ := form.exec_eq
  refine ⟨fun stored => ?_, List.length_map _, fun k r hk h => stmValues_getElem hk ?_⟩
  · obtain ⟨kept, result⟩ := storeMultiple_ok hn stored
    exact ⟨kept, run.trans result⟩
  · exact h.imp_left fun none => by rw [none]; rfl

end Sys2Proof.Machine
end

section
/-!
PROOFS. PLD never faults (O50): on a 64-bit bus every request and every fill goes on to the next, whatever the board aborts.
-/

namespace Sys2Proof.Machine

/-- An access goes on, whether or not the board aborts a request of it, and leaves the core as it was in `s`. -/
def Acc.GoesOn {α : Type} (s : State) (x : Acc α) : Prop := ∃ v t, x = .ok v t ∧ SameCore s t

section
variable {α β : Type} {s u : State}

theorem Acc.GoesOn.of_all {x : Acc α} (h : x.All (SameCore s)) (ok : ∃ v t, x = .ok v t) : x.GoesOn s := by
  obtain ⟨v, t, e⟩ := ok
  exact ⟨v, t, e, h.ok e⟩

theorem Acc.GoesOn.bind {x : Acc α} {k : α → State → Acc β} (hx : x.GoesOn s) (hk : ∀ v t, SameCore s t → (k v t).GoesOn s) :
    (x.bind k).GoesOn s := by
  obtain ⟨v, t, rfl, h⟩ := hx
  exact hk v t h

theorem Acc.goesOn_ok (h : SameCore s u) (v : α) : (Acc.ok v u).GoesOn s := ⟨v, u, rfl, h⟩

theorem Acc.GoesOn.ite {x y : Acc α} (hx : x.GoesOn s) (hy : y.GoesOn s) (c : Prop) [Decidable c] :
    (if c then x else y).GoesOn s := by
  split
  · exact hx
  · exact hy

/-! ## Requests (62_platform R854 to R856) -/

/-- A read that the board aborts answers that, or the multi-bit error met before. -/
theorem abortedRead_answers (pa req : Word) (n : Nat) (p : Bool) (v : State) : ∃ r t, abortedRead pa req n p v = .ok r t := by
  unfold abortedRead
  generalize (if v.eccOn p then eccCheck req (v.receivedBlocks pa req n) v else (true, v)) = r
  dsimp only
  split <;> exact ⟨_, _, rfl⟩

variable (wide : s.bus32 = false) (h : SameCore s u)
include wide h

/-- The stop for ECC on a 32-bit bus (62_platform R851, U50) is not met. -/
theorem not_eccOnNarrowBus (p : Bool) : ¬(u.eccOn p && u.bus32) = true := by
  rw [h.bus32, wide, Bool.and_false]
  exact Bool.false_ne_true

theorem busRead_goesOn (pa req : Word) (n : Nat) (p : Bool) : (busRead pa req n p u).GoesOn s := by
  have closed := closed_sameCore s
  refine .of_all (closed.busRead h pa req n p) ?_
  unfold busRead
  dsimp only
  rw [if_neg (not_eccOnNarrowBus wide (closed.note (closed.assertLock (closed.othersWrite h)) 0x10) p)]
  split
  · exact abortedRead_answers ..
  · split <;> exact ⟨_, _, rfl⟩

theorem busWrite_goesOn (buffered : Bool) (pa : Word) (bs : List Byte) (p : Bool) : (busWrite buffered pa bs p u).GoesOn s := by
  have closed := closed_sameCore s
  refine .of_all (closed.busWrite h buffered pa bs p) ?_
  unfold busWrite
  dsimp only
  rw [if_neg (not_eccOnNarrowBus wide (closed.note (closed.othersWrite h) 0x10) p)]
  generalize u.othersWrite.note 0x10 = v
  by_cases rmw : (v.eccOn p && !v.bcu.ectst.getLsbD 31 && decide (bs.length < 8)) = true
  · exact ⟨_, _, if_pos rmw⟩
  · exact ⟨_, _, if_neg rmw⟩

/-! ## Fills (21_mmu R313, R314, R319, R324) -/

theorem evictHalf_goesOn (l : CacheLine) (hi : Bool) : (evictHalf l hi u).GoesOn s :=
  busWrite_goesOn wide ((closed_sameCore s).noteOverwritten ((closed_sameCore s).note h _) _ _) _ _ _ _

theorem evict_goesOn (l : CacheLine) : (evict l u).GoesOn s :=
  ((evictHalf_goesOn wide h l false).ite (Acc.goesOn_ok h ()) _).bind fun _ _ ht =>
    (evictHalf_goesOn wide ht l true).ite (Acc.goesOn_ok ht ()) _

theorem evictVictim_goesOn (l : Option CacheLine) : (evictVictim l u).GoesOn s := by
  cases l with
  | none => exact Acc.goesOn_ok h ()
  | some k => exact (evict_goesOn wide h k).ite (Acc.goesOn_ok h ()) _

theorem allocateLine_goesOn (mini : Bool) (x : Xlat) (mva : Word) (data : Vector Byte 32) :
    (allocateLine mini x mva data u).GoesOn s :=
  (evictVictim_goesOn wide h _).bind fun _ _ ht => Acc.goesOn_ok ((closed_sameCore s).setDataCache ht _ _) _

/-- A fill goes on, unless it would lock a line into the mini-data cache (21_mmu R324, U10). -/
theorem fillLine_goesOn {x : Xlat} (hl : (x.toMini && u.cp15.dcacheLock) = false) (mva : Word) : (fillLine x mva u).GoesOn s := by
  rw [fillLine, if_neg (by rw [hl]; exact Bool.false_ne_true)]
  refine (busRead_goesOn wide h _ _ _ _).bind fun r t ht => ?_
  cases r.bytes with
  | none => exact Acc.goesOn_ok ((closed_sameCore s).pend ht _) _
  | some bs => exact (allocateLine_goesOn wide ht _ _ _ _).bind fun l v hv => Acc.goesOn_ok hv _

end

/-! ## PLD (43_arm R497) -/

section
variable {s : State} (wide : s.bus32 = false)
include wide

/-- A translation that would fault, a hit and a region that is not cached end a PLD; any other brings its line in. -/
theorem preload_goesOn (va : Word) : (preload va s).GoesOn s := by
  have nothing : (Acc.ok () s).GoesOn s := Acc.goesOn_ok (.refl s) ()
  unfold preload
  refine nothing.ite ?_ _
  split
  · split
    · dsimp only
      split
      · split
        · rename_i fills
          have noted : SameCore s ((s.note 0x0A).note 0x0B) := (closed_sameCore s).note ((closed_sameCore s).note (.refl s) _) _
          have unlocked := Bool.not_eq_true' _ ▸ (Bool.and_eq_true_iff.1 fills).2
          exact (fillLine_goesOn wide noted unlocked _).bind fun _ t ht => Acc.goesOn_ok ht ()
        · exact nothing
      · exact nothing
    · exact nothing
  · exact nothing

theorem preloadAt_next (arm : s.thumb = false) (va : Word) :
    ∃ t, preloadAt va s = .next { t with pc := s.pc + 4 } ∧ SameCore s t := by
  obtain ⟨v, t, e, kept⟩ := preload_goesOn wide va
  refine ⟨t, ?_, kept⟩
  rw [preloadAt, e, Acc.finish_ok, State.advance, kept.isize, kept.pc, isize_arm arm]

end

/-- Settles O50: both forms are a `preloadAt`, which goes on. -/
theorem preloadNeverFaults : Obligations.PreloadNeverFaults := by
  unfold Obligations.PreloadNeverFaults
  intro u rn off sh s arm wide Ok
  refine ⟨preloadAt_next wide arm _, fun hm => ?_⟩
  have run : exec (.pldReg u rn sh) s = preloadAt (offsetBy u (s.reg rn) (s.immShift sh).value) s :=
    noR15_run (mt List.mem_singleton.1 hm.symm)
  obtain ⟨t, e, kept⟩ := preloadAt_next wide arm (offsetBy u (s.reg rn) (s.immShift sh).value)
  exact ⟨t, run.trans e, kept⟩

end Sys2Proof.Machine
end

section
/-!
PROOFS. Accesses without MMU, data cache and board aborts, other masters writing between requests or not: what a read delivers and
what a store leaves, byte by byte.
-/

namespace Sys2Proof.Machine

/-! ## What other masters write before a request (62_platform R875) -/

/-- The writes of other masters that come before the next request: the first ones waiting, but for those that the lock keeps
off. -/
def State.coming (s : State) : List (Word × Byte) := (s.board.between.headD []).filter fun w => !s.scratch.lock.protects w.1

section
variable {s t : State}

theorem mem_otherWrites (ws : List (Word × Byte)) (t : State) : (ws.foldl (fun t w => t.otherWrite w.1 w.2) t).mem
    = ws.foldl (fun m w => memSet m w.1.toNat w.2) t.mem := by
  induction ws generalizing t with
  | nil => rfl
  | cons w ws ih => exact ih (t.otherWrite w.1 w.2)

theorem mem_othersWrite (s : State) : s.othersWrite.mem = s.coming.foldl (fun m w => memSet m w.1.toNat w.2) s.mem := by
  unfold State.othersWrite State.coming
  split
  · rename_i none
    rw [none]
    rfl
  · rename_i ws rest first
    rw [mem_otherWrites, first]
    rfl

/-- A byte that none of the coming writes is to is as it was. -/
theorem byteAt_othersWrite_of_coming (h : s.MemOk) {a : Word} (ha : ∀ w ∈ s.coming, w.1 ≠ a) :
    s.othersWrite.byteAt a = s.byteAt a := by
  have hf : ∀ (ws : List (Word × Byte)) (m : List Host.Cell), memWf m = true → (∀ w ∈ ws, w.1 ≠ a) →
      memGet (ws.foldl (fun m w => memSet m w.1.toNat w.2) m) a.toNat = memGet m a.toNat := by
    intro ws
    induction ws with
    | nil => exact fun _ _ _ => rfl
    | cons w ws ih =>
      intro m hm hw
      have ne : w.1.toNat ≠ a.toNat := fun e => hw w List.mem_cons_self (BitVec.eq_of_toNat_eq e)
      rw [List.foldl_cons, ih _ (memWfFrom_memSet _ hm (Nat.zero_le _) w.1.isLt) fun v hv => hw v (List.mem_cons_of_mem _ hv),
        memGet_memSet _ _ _ hm, if_neg ne]
  rw [State.byteAt, mem_othersWrite, hf _ _ h ha]
  rfl

/-! ## Bytes -/

theorem bytesAt_congr (h : t.mem = s.mem) (pa : Word) (n : Nat) : t.bytesAt pa n = s.bytesAt pa n := by
  simp only [bytesAt_eq_map, State.byteAt, h]

theorem bytesAt_of_byteAt {pa : Word} {bs : List Byte} (hl : bs.length ≤ 32)
    (h : ∀ a : Word, (a - pa).toNat < bs.length → t.byteAt a = bs.getD (a - pa).toNat 0) : t.bytesAt pa bs.length = bs := by
  rw [bytesAt_eq_map]
  refine List.ext_getElem (by simp) fun i _ hi => ?_
  have offset : (pa + BitVec.ofNat 32 i - pa).toNat = i := by bv_omega
  rw [List.getElem_map, List.getElem_range, h _ (offset.symm ▸ hi), offset, List.getD_eq_getElem _ _ hi]

end

/-! ## Requests that the board does not abort -/

section
variable {s : State} (regions : s.board.abortRegions = [])
include regions

theorem othersWrite_regions : s.othersWrite.board.abortRegions = [] := by
  obtain ⟨m, o, b, e⟩ := othersWrite_eq s
  rw [e]
  exact regions

theorem busRead_delivers (pa req : Word) (n : Nat) : busRead pa req n false s
    = .ok (.data (s.othersWrite.bytesAt pa n)) (s.othersWrite.assertLock.note 0x10) := by
  obtain ⟨x, e⟩ := assertLock_eq s.othersWrite
  have noAbort : (s.othersWrite.assertLock.note 0x10).busAborts false pa n = false := by
    rw [e]
    show (s.othersWrite.board.abortRegions.any _) = false
    rw [othersWrite_regions regions, List.any_nil]
  have same : (s.othersWrite.assertLock.note 0x10).bytesAt pa n = s.othersWrite.bytesAt pa n :=
    bytesAt_congr (by rw [e]; rfl) pa n
  unfold busRead
  dsimp only
  rw [noAbort, ← same]
  rfl

theorem busWrite_stores (buffered : Bool) (pa : Word) (bs : List Byte) : ∃ e, busWrite buffered pa bs false s
    = .ok () { (s.othersWrite.note 0x10).setBytesAt pa bs with board := { s.othersWrite.board with ecc := e } } := by
  have taken (a : Word) (n : Nat) : (s.othersWrite.note 0x10).takenBytes true a n n 0 = n :=
    takenBytes_all (s := s.othersWrite.note 0x10) (othersWrite_regions regions) true a n n 0 (by omega)
  have unchecked : (s.othersWrite.note 0x10).eccOn false = false := rfl
  unfold busWrite
  dsimp only
  rw [taken, if_neg (Nat.lt_irrefl _), Nat.min_eq_left (writeSpan_covers buffered pa bs.length), List.take_length, unchecked,
    Bool.false_and, Bool.false_and, Bool.false_and, if_neg Bool.false_ne_true, if_neg Bool.false_ne_true]
  split
  · rename_i none
    obtain rfl := List.length_eq_zero_iff.1 none
    exact ⟨_, rfl⟩
  · obtain ⟨m, hm⟩ := setBytesAt_eq bs (s.othersWrite.note 0x10) pa
    obtain ⟨e, he⟩ := clearZeroBlocks_eq (blocksOf pa bs.length) { s.othersWrite.note 0x10 with mem := m }
    rw [hm]
    exact ⟨e, congrArg (Acc.ok ()) he⟩

end

/-! ## Data accesses -/

/-- The state with no writes of other masters to come. -/
def State.alone (s : State) : State := { s with board := { s.board with between := [] } }

section
variable {s : State} (plain : s.plainBus = true)
include plain

theorem plainMemory_alone : s.alone.plainMemory = true := by
  rw [State.plainMemory]
  exact Bool.and_eq_true_iff.2 ⟨plain, rfl⟩

theorem regions_plain : s.board.abortRegions = [] := by
  obtain ⟨-, -, -, -, regions, -⟩ := (plainMemory_iff s.alone).1 (plainMemory_alone plain)
  exact regions

/-- A read delivers what other masters have left. -/
theorem dataRead_delivers (pa mva : Word) (n : Nat) : ∃ z : Scratch, z.lock = s.scratch.lock
    ∧ let o := State.othersWrite { s with scratch := z }
      dataRead (flatXlat pa) mva n s = .ok (o.bytesAt pa n) (o.assertLock.note 0x10) := by
  let noted := ((s.note 0x0A).note 0x12).note 0x0B
  have alone := plainMemory_alone plain
  have counted : s.noteAccess (flatXlat pa) = (s.note 0x0A).note 0x12 := rfl
  have missed : ((s.note 0x0A).note 0x12).findData mva = none := findData_plain alone mva
  have uncached : ((s.note 0x0A).note 0x12).cacheable (flatXlat pa) = false := cacheable_plain alone _
  have allowed : attributeFault (flatXlat pa) s = none := attributeFault_plain alone pa
  refine ⟨noted.scratch, rfl, ?_⟩
  rw [dataRead, allowed]
  dsimp only
  rw [counted, missed]
  dsimp only
  rw [uncached, if_neg Bool.false_ne_true]
  exact congrArg (Acc.bind · _) (busRead_delivers (s := noted) (regions_plain plain) pa pa n)

/-- A store goes to memory after what other masters write. -/
theorem dataWrite_stores (pa mva : Word) (bs : List Byte) : ∃ (z : Scratch) (w : List (Nat × List Byte))
    (e : List (Nat × EccState)), z.lock = s.scratch.lock
    ∧ let o := State.othersWrite { s with scratch := z, overwritten := w }
      dataWrite (flatXlat pa) mva bs s
        = .ok () { (o.note 0x10).setBytesAt pa bs with board := { o.board with ecc := e } } := by
  let u := ((s.note 0x0A).note 0x12).noteOverwritten pa bs.length
  have alone := plainMemory_alone plain
  have counted : (s.noteAccess (flatXlat pa)).noteOverwritten (flatXlat pa).pa bs.length = u := rfl
  have missed : u.findData mva = none := findData_plain alone mva
  have uncached : u.cacheable (flatXlat pa) = false := cacheable_plain alone _
  have allowed : attributeFault (flatXlat pa) s = none := attributeFault_plain alone pa
  obtain ⟨e, he⟩ := busWrite_stores (s := u.note 0x0B) (regions_plain plain) (flatXlat pa).buffered pa bs
  refine ⟨(u.note 0x0B).scratch, u.overwritten, e, rfl, ?_⟩
  rw [dataWrite, allowed]
  dsimp only
  rw [counted, missed]
  dsimp only
  rw [uncached, Bool.false_and, if_neg Bool.false_ne_true]
  exact he

end

/-! ## Accesses by address, without other masters -/

section
variable {s : State} (plain : s.plainMemory = true) {n : Nat} {va : Word} (hn : n = 1 ∨ n = 2 ∨ n = 4)
  (aligned : va.toNat % n = 0)
include plain

theorem plainBus_of_plainMemory : s.plainBus = true := (Bool.and_eq_true_iff.1 plain).1

include hn aligned

/-- An aligned load reads the bytes of external memory. -/
theorem readMem_plain (priv : Bool) : ∃ z, readMem n va priv s
    = .ok (BitVec.ofNat 32 (assemble s.bigEndian (s.bytesAt (s.mvaOf va) n))) { s with scratch := z } := by
  obtain ⟨mmuOff, -, -, -, -, between⟩ := (plainMemory_iff s).1 plain
  have noted := noteBreak_eq s va n false
  obtain ⟨z, -, read⟩ := dataRead_delivers (s := s.noteBreak va n false) (noted ▸ plainBus_of_plainMemory plain) (s.mvaOf va)
    (s.mvaOf va) n
  obtain ⟨y, locked⟩ := assertLock_eq { s with scratch := z }
  rw [noted] at read
  dsimp only at read
  rw [othersWrite_of_none (s := { s with scratch := z }) between, locked, bytesAt_congr (s := s) (t := { s with scratch := z }) rfl] at read
  refine ⟨({ s with scratch := y } : State).note 0x10 |>.scratch, ?_⟩
  rw [readMem, alignData_aligned hn aligned]
  dsimp only [Acc.bind]
  rw [translateData_mmuOff mmuOff]
  dsimp only
  rw [noted, read]
  rfl

/-- An aligned store writes its own bytes and no other. -/
theorem writeMem_plain (ok : s.MemOk) (v : Word) (priv : Bool) : ∃ t, writeMem n va v priv s = .ok () t
    ∧ t.plainMemory = true ∧ t.MemOk ∧ ∀ a : Word, let d := (a - s.mvaOf va).toNat
      t.byteAt a = if d < n then (disassemble s.bigEndian n v.toNat).getD d 0 else s.byteAt a := by
  obtain ⟨mmuOff, -, -, -, -, between⟩ := (plainMemory_iff s).1 plain
  let bs := disassemble s.bigEndian n v.toNat
  have length : bs.length = n := disassemble_length _ _ _
  have noted := noteBreak_eq s va n true
  obtain ⟨z, w, e, -, write⟩ := dataWrite_stores (s := s.noteBreak va n true) (noted ▸ plainBus_of_plainMemory plain)
    (s.mvaOf va) (s.mvaOf va) bs
  rw [noted] at write
  dsimp only at write
  rw [othersWrite_of_none (s := { s with scratch := z, overwritten := w }) between] at write
  let u := ({ s with scratch := z, overwritten := w } : State).note 0x10
  refine ⟨{ u.setBytesAt (s.mvaOf va) bs with board := { s.board with ecc := e } }, ?_, ?_, ?_, fun a => ?_⟩
  · rw [writeMem, checkStore, alignData_aligned hn aligned]
    dsimp only [Acc.bind]
    rw [translateData_mmuOff mmuOff]
    dsimp only
    rw [storeChecked, noted]
    exact write
  · obtain ⟨m, hm⟩ := setBytesAt_eq bs u (s.mvaOf va)
    rw [hm]
    exact plain
  · exact closed_memOk.setBytesAt (s := u) bs ok (s.mvaOf va)
  · have stored := byteAt_setBytesAt (s := u) (bs := bs) ok (s.mvaOf va) (by omega) a
    rw [length] at stored
    exact stored

end

theorem mvaOf_congr {s t : State} (h : t.cp15 = s.cp15) (va : Word) : t.mvaOf va = s.mvaOf va := by
  rw [State.mvaOf, h]
  rfl

theorem bigEndian_congr {s t : State} (h : t.cp15 = s.cp15) : t.bigEndian = s.bigEndian := by
  rw [State.bigEndian, h]
  rfl

/-! ## SWP, with other masters (20_memory R245) -/

section
variable {s : State}

theorem coming_of_unlocked (h : ∀ a, s.scratch.lock.protects a = false) : s.coming = s.board.between.headD [] := by
  refine List.filter_eq_self.2 fun w _ => ?_
  rw [h]
  rfl

theorem assertLock_asked {block : Nat} (h : s.scratch.lock = .asked block) :
    s.assertLock = { s with scratch := { s.scratch with lock := .held block } } := by
  unfold State.assertLock
  rw [h]

theorem rotateLoaded_aligned {va : Word} (h : va.toNat % 4 = 0) (v : Word) : rotateLoaded va v = v :=
  BitVec.eq_of_getLsbD_eq fun i hi => by
    rw [rotateLoaded, h, getLsbD_rotateRight_word _ _ hi, Nat.mul_zero, Nat.add_zero, Nat.mod_eq_of_lt hi]

/-- While the lock is held, no other master writes in its block. -/
theorem block_of_coming {block : Nat} (h : s.scratch.lock = .held block) {w : Word × Byte} (hw : w ∈ s.coming) :
    w.1.toNat / 32 ≠ block := fun e => by
  have free := (List.mem_filter.1 hw).2
  rw [h, BusLock.protects, beq_iff_eq.2 e] at free
  cases free

/-- A read that asks for the lock, and the store after it: the read delivers what other masters have left (`o`), and the store
leaves the block so but for its own bytes. -/
theorem exchange_plain (plain : s.plainBus = true) (ok : s.MemOk) {block : Nat} (asked : s.scratch.lock = .asked block)
    (pa mva : Word) (n : Nat) {bs : List Byte} (hl : bs.length ≤ 32) :
    let o := (s.setLock .free).othersWrite
    ∃ u t : State, dataRead (flatXlat pa) mva n s = .ok (o.bytesAt pa n) u ∧ dataWrite (flatXlat pa) mva bs u = .ok () t
      ∧ t.bytesAt pa bs.length = bs ∧ ∀ b : Word, bs.length ≤ (b - pa).toNat →
        b.toNat / 32 = block ∨ s.board.between = [] → t.byteAt b = o.byteAt b := by
  intro o
  obtain ⟨z, hz, read⟩ := dataRead_delivers plain pa mva n
  let v : State := { s with scratch := z }
  have waits : v.scratch.lock = .asked block := hz.trans asked
  have mem : v.othersWrite.mem = o.mem := by
    rw [mem_othersWrite, mem_othersWrite, coming_of_unlocked fun a => by rw [waits]; rfl, coming_of_unlocked fun _ => rfl]
    rfl
  have alone (h : s.board.between = []) : v.othersWrite.board.between = [] := by
    rw [othersWrite_of_none (s := v) h]
    exact h
  have okRead : v.othersWrite.MemOk := closed_memOk.othersWrite (s := v) ok
  obtain ⟨m, w, between, others⟩ := othersWrite_eq v
  have holds : v.othersWrite.assertLock = { v.othersWrite with scratch := { z with lock := .held block } } := by
    rw [assertLock_asked (block := block) (by rw [others]; exact waits), others]
  let u := v.othersWrite.assertLock.note 0x10
  have plainAfter : u.plainBus = true := by
    show (v.othersWrite.assertLock.note 0x10).plainBus = true
    rw [holds, others]
    exact plain
  obtain ⟨z2, w2, e, hz2, write⟩ := dataWrite_stores plainAfter pa mva bs
  let x : State := { u with scratch := z2, overwritten := w2 }
  have memWrite : x.mem = v.othersWrite.mem := by
    show v.othersWrite.assertLock.mem = _
    rw [holds]
  have okWrite : x.MemOk := by
    show memWf x.mem = true
    rw [memWrite]
    exact okRead
  have held : x.scratch.lock = .held block := by
    refine hz2.trans ?_
    show v.othersWrite.assertLock.scratch.lock = _
    rw [holds]
  have stored := byteAt_setBytesAt (s := x.othersWrite.note 0x10) (closed_memOk.othersWrite okWrite) pa hl
  refine ⟨u, _, ?_, write, bytesAt_of_byteAt hl fun b hb => (stored b).trans (if_pos hb), fun b hb h => ?_⟩
  · rw [read, bytesAt_congr mem]
  · refine ((stored b).trans (if_neg (Nat.not_lt.2 hb))).trans ?_
    have kept : x.othersWrite.byteAt b = x.byteAt b := by
      refine byteAt_othersWrite_of_coming okWrite fun w hw e => ?_
      obtain h | h := h
      · exact block_of_coming held hw (e ▸ h)
      · have nothing : x.board.between = [] := by
          show v.othersWrite.assertLock.board.between = []
          rw [holds]
          exact alone h
        rw [State.coming, nothing] at hw
        cases hw
    exact kept.trans (by rw [State.byteAt, memWrite, mem]; rfl)

/-- SWP and SWPB at an aligned address. -/
theorem swapMem_plain (plain : s.plainBus = true) (ok : s.MemOk) {n : Nat} {va : Word} (hn : n = 1 ∨ n = 4)
    (aligned : va.toNat % n = 0) (v : Word) :
    let a := s.mvaOf va
    let o := (s.setLock .free).othersWrite
    ∃ t : State, swapMem n va v s = .ok (BitVec.ofNat 32 (assemble s.bigEndian (o.bytesAt a n))) t
      ∧ t.bytesAt a n = disassemble s.bigEndian n v.toNat
      ∧ ∀ b : Word, n ≤ (b - a).toNat → b.toNat / 32 = a.toNat / 32 ∨ s.board.between = [] → t.byteAt b = o.byteAt b := by
  intro a o
  obtain ⟨mmuOff, -⟩ := (plainMemory_iff s.alone).1 (plainMemory_alone plain)
  have mmuOff : s.mmuOn = false := mmuOff
  have length : (disassemble s.bigEndian n v.toNat).length = n := disassemble_length _ _ _
  have word : (if n = 4 then va else 0).toNat % 4 = 0 := by
    obtain rfl | rfl := hn
    · rfl
    · exact aligned
  have noted := noteBreak_eq s va n true
  let w := (s.noteBreak va n true).setLock (.asked (a.toNat / 32))
  have plainNoted : w.plainBus = true := by
    show ((s.noteBreak va n true).setLock _).plainBus = true
    rw [noted]
    exact plain
  have memNoted : w.mem = s.mem ∧ w.board = s.board ∧ w.cp15 = s.cp15 := by
    show ((s.noteBreak va n true).setLock _).mem = _ ∧ ((s.noteBreak va n true).setLock _).board = _
      ∧ ((s.noteBreak va n true).setLock _).cp15 = _
    rw [noted]
    exact ⟨rfl, rfl, rfl⟩
  obtain ⟨hm, onBoard, hc⟩ := memNoted
  have sameOthers : (w.setLock .free).othersWrite.mem = o.mem := by
    rw [mem_othersWrite, mem_othersWrite, coming_of_unlocked fun _ => rfl, coming_of_unlocked fun _ => rfl]
    show (w.board.between.headD []).foldl _ w.mem = (s.board.between.headD []).foldl _ s.mem
    rw [hm, onBoard]
  obtain ⟨u, t, read, write, value, rest⟩ := exchange_plain plainNoted (by show memWf w.mem = true; rw [hm]; exact ok) rfl a a n
    (bs := disassemble s.bigEndian n v.toNat) (by omega)
  have cpRead : u.cp15 = s.cp15 := (((closed_sameCore w).dataRead (SameCore.refl w) _ _ _).ok read).cp15.trans hc
  have cpWrite : t.cp15 = s.cp15 := (((closed_sameCore u).dataWrite (SameCore.refl u) _ _ _).ok write).cp15.trans cpRead
  have sameAddress : u.mvaOf va = a := mvaOf_congr cpRead va
  rw [length] at value rest
  refine ⟨t.setLock .free, ?_, (bytesAt_congr (t.setLock_mem .free) a n).trans value, fun b hb h => ?_⟩
  · rw [swapMem, alignData_aligned (hn.imp_right .inr) aligned]
    dsimp only [Acc.bind]
    rw [translateData_mmuOff mmuOff]
    dsimp only
    show (Acc.bind (dataRead _ _ _ w) _) = _
    rw [read]
    dsimp only [Acc.bind]
    rw [sameAddress, bigEndian_congr cpRead, write]
    dsimp only
    rw [rotateLoaded_aligned word, bigEndian_congr cpWrite, bytesAt_congr sameOthers]
  · refine (rest b hb (h.imp_right fun none => by rw [onBoard, none])).trans ?_
    rw [State.byteAt, sameOthers]
    rfl

end

theorem swapRefusal_none {rn rd rm : Reg} (h : 15 ∉ [rn, rd, rm]) (hr : ¬(rn = rm ∨ rn = rd)) : swapRefusal rn rd rm = none :=
  (if_neg (mt (anyR15_iff _).1 h)).trans (if_neg hr)

theorem swapMem_sameCore {s t : State} {n : Nat} {va v w : Word} (h : swapMem n va v s = .ok w t) : SameCore s t :=
  ((closed_sameCore s).swapMem (SameCore.refl s) n va v).ok h

theorem swap_ok {s t : State} {n : Nat} {rn rd rm : Reg} {v : Word} (hT : s.thumb = false) (hd : rd ≠ 15)
    (h : swapMem n (s.reg rn) (s.reg rm) s = .ok v t) :
    swap n rn rd rm s = .next { t with regs := s.regs.set (bankIndex s.mode rd) v, pc := s.pc + 4 } := by
  have kept := swapMem_sameCore h
  rw [swap, h, Acc.finish_ok, writeReg_of_ne hd, kept.isize, isize_arm hT]
  simp only [State.wrote, State.mode, kept.cpsr, kept.regs, kept.pc]

/-- Settles O49: a form that may run is a `swap`; its exchange in external memory is `swapMem_plain`. -/
theorem swapResults : Obligations.SwapResults := by
  unfold Obligations.SwapResults
  intro n c rn rd rm i s form hT hc hd hn hrd hrm clashRm clashRd
  have allowed : swapRefusal rn rd rm = none := swapRefusal_none (fifteen_notMem ⟨hn, hrd, hrm⟩) (by simp [clashRm, clashRd])
  have run : exec i s = swap n rn rd rm s := by
    obtain ⟨rfl, rfl⟩ | ⟨rfl, rfl⟩ := form
    · exact armCond_allowed hc allowed (notInDebug_run hd _)
    · exact armCond_allowed hc allowed (notInDebug_run hd _)
  have width : n = 1 ∨ n = 4 := (form.imp And.left And.left).symm
  refine ⟨fun v s1 h => ⟨swapMem_sameCore h, run.trans (swap_ok hT hrd h)⟩, fun plain ok aligned => ?_, fun plain ok aligned => ?_⟩
  · obtain ⟨-, -, -, -, -, between⟩ := (plainMemory_iff s).1 plain
    have nothing : (s.setLock .free).othersWrite = s.setLock .free := othersWrite_of_none between
    obtain ⟨t, exchanged, stored, rest⟩ := swapMem_plain (plainBus_of_plainMemory plain) ok width aligned (s.reg rm)
    rw [nothing, bytesAt_congr (s.setLock_mem .free)] at exchanged
    rw [nothing] at rest
    exact ⟨t, exchanged, stored, fun b hb => rest b hb (.inr between)⟩
  · obtain ⟨t, exchanged, stored, rest⟩ := swapMem_plain plain ok width aligned (s.reg rm)
    exact ⟨t, exchanged, stored, fun b block hb => rest b hb (.inl block)⟩

end Sys2Proof.Machine
end

section
/-!
PROOFS. What a block transfer moves in external memory (O48): the order of a list, the words loaded and the words stored.
-/

namespace Sys2Proof.Machine

/-! ## The registers of a list and their places -/

theorem toNat_ofNat_reg {i : Nat} (h : i < 16) : (BitVec.ofNat 4 i).toNat = i := Nat.mod_eq_of_lt h

theorem mem_regList (list : BitVec 16) (r : Reg) : r ∈ regList list ↔ list.getLsbD r.toNat = true := by
  simp only [regList, List.mem_map, List.mem_filter, List.mem_range]
  constructor
  · rintro ⟨i, ⟨hi, listed⟩, rfl⟩
    rwa [toNat_ofNat_reg hi]
  · exact fun listed => ⟨r.toNat, ⟨r.isLt, listed⟩, BitVec.eq_of_toNat_eq (toNat_ofNat_reg r.isLt)⟩

theorem pairwise_regList (list : BitVec 16) : (regList list).Pairwise fun x y => x.toNat < y.toNat := by
  refine List.pairwise_map.2 ((List.pairwise_lt_range.imp_of_mem fun {x y} hx hy hlt => ?_).filter _)
  rwa [toNat_ofNat_reg (List.mem_range.1 hx), toNat_ofNat_reg (List.mem_range.1 hy)]

/-- A mode's own registers are the ones from some number on, moved up together (10_state R32). -/
theorem bankIndex_shift (m : BitVec 5) : ∃ first shift : Nat, ∀ r : Reg, r ≠ 15 →
    (bankIndex m r).val = if r.toNat < first then r.toNat else r.toNat + shift := by
  by_cases own : m = modeFiq ∨ m = modeIrq ∨ m = modeSvc ∨ m = modeAbt ∨ m = modeUnd ∨ m = modeDbg
  · obtain rfl | rfl | rfl | rfl | rfl | rfl := own
    · exact ⟨8, 7, by decide⟩
    · exact ⟨13, 9, by decide⟩
    · exact ⟨13, 11, by decide⟩
    · exact ⟨13, 13, by decide⟩
    · exact ⟨13, 15, by decide⟩
    · exact ⟨13, 17, by decide⟩
  · obtain ⟨fiq, irq, svc, abt, und, dbg⟩ : m ≠ modeFiq ∧ m ≠ modeIrq ∧ m ≠ modeSvc ∧ m ≠ modeAbt ∧ m ≠ modeUnd ∧ m ≠ modeDbg := by
      simpa only [not_or] using own
    refine ⟨16, 0, fun r _ => ?_⟩
    have small : r.toNat < 16 := r.isLt
    simp only [bankIndex, if_neg fiq, if_neg irq, if_neg svc, if_neg abt, if_neg und, if_neg dbg, ite_self, if_pos small]
    exact Nat.mod_eq_of_lt (by omega)

theorem bankIndex_inj {m : BitVec 5} {x y : Reg} (hx : x ≠ 15) (hy : y ≠ 15) (h : bankIndex m x = bankIndex m y) : x = y := by
  obtain ⟨first, shift, place⟩ := bankIndex_shift m
  have same := congrArg Fin.val h
  rw [place x hx, place y hy] at same
  refine BitVec.eq_of_toNat_eq ?_
  split at same <;> split at same <;> omega

/-! ## The words of a transfer -/

/-- Where the `k`-th word of a transfer from `start` is. -/
def State.wordAt (s : State) (start : Word) (k : Nat) : Word := s.mvaOf (start + BitVec.ofNat 32 (4 * k))

section
variable {s : State} {start : Word}

theorem wordAt_zero : s.wordAt start 0 = s.mvaOf start := congrArg s.mvaOf (BitVec.add_zero start)

theorem wordAt_succ (k : Nat) : s.wordAt (start + 4) k = s.wordAt start (k + 1) := by
  refine congrArg s.mvaOf ?_
  bv_omega

/-- The process ID leaves the low bits of an address. -/
theorem mvaOf_mod (va : Word) : (s.mvaOf va).toNat % 2 ^ 25 = va.toNat % 2 ^ 25 := by
  by_cases low : va.toNat < 2 ^ 25
  · rw [mvaOf_low low]
    omega
  · rw [mvaOf_high (by omega)]

/-- The first word shares no byte with another of the sixteen. -/
theorem wordAt_disjoint (aligned : start.toNat % 4 = 0) {k : Nat} (hk : k < 16) {b : Word}
    (hb : (b - s.mvaOf start).toNat < 4) : 4 ≤ (b - s.wordAt start (k + 1)).toNat := by
  have first := mvaOf_mod (s := s) start
  have other := mvaOf_mod (s := s) (start + BitVec.ofNat 32 (4 * (k + 1)))
  rw [State.wordAt]
  generalize s.mvaOf start = x at *
  generalize s.mvaOf (start + BitVec.ofNat 32 (4 * (k + 1))) = y at *
  rw [BitVec.toNat_add, BitVec.toNat_ofNat] at other
  rw [BitVec.toNat_sub] at hb ⊢
  omega

end

/-! ## Loads and stores -/

/-- Loading, each register takes the word at its place and no other register changes. -/
theorem loadRegs_plain {s : State} (plain : s.plainMemory = true) (m : BitVec 5) (priv : Bool) {start : Word}
    (aligned : start.toNat % 4 = 0) {rs : List Reg} (distinct : rs.Nodup) (noPc : 15 ∉ rs) :
    ∃ g x, loadRegs m priv rs start s = .ok () { s with regs := g, scratch := x }
      ∧ (∀ (k : Nat) (r : Reg), rs[k]? = some r →
        g[bankIndex m r] = BitVec.ofNat 32 (assemble s.bigEndian (s.bytesAt (s.wordAt start k) 4)))
      ∧ ∀ j : Fin 32, (∀ r ∈ rs, bankIndex m r ≠ j) → g[j] = s.regs[j] := by
  induction rs generalizing s start with
  | nil => exact ⟨s.regs, s.scratch, rfl, by simp, fun _ _ => rfl⟩
  | cons r rs ih =>
    obtain ⟨z, read⟩ := readMem_plain plain (.inr (.inr rfl)) aligned priv
    let v := BitVec.ofNat 32 (assemble s.bigEndian (s.bytesAt (s.mvaOf start) 4))
    obtain ⟨once, distinct⟩ := List.nodup_cons.1 distinct
    obtain ⟨hr, noPc⟩ := not_or.1 (mt List.mem_cons.2 noPc)
    obtain ⟨g, x, rest, words, frame⟩ := ih (s := { s with regs := s.regs.set (bankIndex m r) v, scratch := z }) plain
      (start := start + 4) (by bv_omega) distinct noPc
    refine ⟨g, x, ?_, fun k q hq => ?_, fun j hj => ?_⟩
    · rw [loadRegs, read]
      exact rest
    · cases k with
      | zero =>
        obtain rfl : r = q := Option.some.inj hq
        have other : ∀ q ∈ rs, bankIndex m q ≠ bankIndex m r := fun q hq e =>
          once (bankIndex_inj (ne_of_mem_of_not_mem hq noPc) (Ne.symm hr) e ▸ hq)
        rw [frame _ other, wordAt_zero]
        exact Vector.getElem_set_self _
      | succ k =>
        rw [words k q hq, ← wordAt_succ]
        rfl
    · rw [frame j fun q hq => hj q (List.mem_cons_of_mem _ hq)]
      exact Vector.getElem_set_ne (bankIndex m r).isLt _ fun e => hj r List.mem_cons_self (Fin.ext e)

/-- Storing, each word lands at its place and no other byte changes. -/
theorem storeWords_plain {s : State} (plain : s.plainMemory = true) (ok : s.MemOk) (priv : Bool) {start : Word}
    (aligned : start.toNat % 4 = 0) {vs : List Word} (few : vs.length ≤ 16) :
    ∃ t, storeWords priv vs start s = .ok () t
      ∧ (∀ (k : Nat) (v : Word), vs[k]? = some v → t.bytesAt (s.wordAt start k) 4 = disassemble s.bigEndian 4 v.toNat)
      ∧ ∀ b : Word, (∀ k : Nat, k < vs.length → 4 ≤ (b - s.wordAt start k).toNat) → t.byteAt b = s.byteAt b := by
  induction vs generalizing s start with
  | nil => exact ⟨s, rfl, by simp, fun _ _ => rfl⟩
  | cons v vs ih =>
    obtain ⟨s1, write, plain1, ok1, stored⟩ := writeMem_plain plain (.inr (.inr rfl)) aligned ok v priv
    have cp15 := (writeMem_sameCore write).cp15
    rw [List.length_cons] at few
    obtain ⟨t, rest, words, frame⟩ := ih plain1 ok1 (start := start + 4) (by bv_omega) (by omega)
    have place (k : Nat) : s1.wordAt (start + 4) k = s.wordAt start (k + 1) :=
      (mvaOf_congr cp15 _).trans (wordAt_succ k)
    refine ⟨t, ?_, fun k w hw => ?_, fun b hb => ?_⟩
    · rw [storeWords, write]
      exact rest
    · cases k with
      | zero =>
        obtain rfl : v = w := Option.some.inj hw
        have length : (disassemble s.bigEndian 4 v.toNat).length = 4 := disassemble_length _ _ _
        have own := bytesAt_of_byteAt (t := t) (pa := s.mvaOf start) (bs := disassemble s.bigEndian 4 v.toNat) (by omega) fun b hb => by
          rw [length] at hb
          rw [frame b fun k hk => place k ▸ wordAt_disjoint aligned (by omega) hb]
          exact (stored b).trans (if_pos hb)
        rwa [length, ← wordAt_zero] at own
      | succ k => rw [← place, words k w hw, bigEndian_congr cp15]
    · rw [frame b fun k hk => place k ▸ hb (k + 1) (Nat.succ_lt_succ hk)]
      have outside := hb 0 (Nat.succ_pos _)
      rw [wordAt_zero] at outside
      exact (stored b).trans (if_neg (Nat.not_lt.2 outside))

/-- Settles O48: by induction on the registers loaded, and on the words stored. -/
theorem blockTransferMemory : Obligations.BlockTransferMemory := by
  unfold Obligations.BlockTransferMemory
  refine ⟨fun list => ⟨mem_regList list, pairwise_regList list⟩, fun s m priv start plain aligned => ?_⟩
  have aligned := (toNat_mod_four start).2 aligned
  refine ⟨fun rs distinct noPc => loadRegs_plain plain m priv aligned distinct noPc, fun vs few ok => ?_⟩
  obtain ⟨t, stored, words, frame⟩ := storeWords_plain plain ok priv aligned few
  exact ⟨t, stored, storeWords_sameCore stored, words, frame⟩

end Sys2Proof.Machine
end

section
/-!
PROOFS. The coprocessor instructions (O51, O52): the checks of 44_coprocessor R531, what a read or a write of a coprocessor's
register keeps, and each transfer when its accesses succeed.
-/

namespace Sys2Proof.Machine

/-! ## The checks (44_coprocessor R530, R531) -/

section
variable {cp : BitVec 4} {s : State}

theorem cpChecked_run {accepted : Bool} {crn : BitVec 4} (ha : accepted = true) (hd : s.cpDenied cp = false)
    (ht : s.debugAccessTraps cp crn = false) (k : Out) : cpChecked accepted cp crn s k = k := by
  rw [cpChecked, ha, hd, ht]
  rfl

theorem cpChecked_rejected {accepted : Bool} (ha : accepted = false) (crn : BitVec 4) (k : Out) :
    cpChecked accepted cp crn s k = raiseUndef s := by
  rw [cpChecked, ha]
  rfl

theorem cpChecked_denied (hd : s.cpDenied cp = true) (accepted : Bool) (crn : BitVec 4) (k : Out) :
    cpChecked accepted cp crn s k = raiseUndef s := by
  cases accepted with
  | false => exact cpChecked_rejected rfl crn k
  | true =>
    rw [cpChecked, hd]
    rfl

theorem withAcc_denied (hd : s.cpDenied 0 = true) (acc : BitVec 3) (rs : List Reg) (k : Out) :
    withAcc acc rs s k = raiseUndef s :=
  if_pos hd

/-- Coprocessors 14 and 15 are not for User mode. -/
theorem cpDenied_user (hm : s.mode = modeUsr) (hcp : cp = 14 ∨ cp = 15) : s.cpDenied cp = true := by
  rw [State.cpDenied, if_pos hcp.symm, State.priv, hm]
  rfl

theorem cpDenied_thirteen_clear (h : s.cp15.cpar.getLsbD 13 = false) : s.cpDenied 13 = true := by
  rw [State.cpDenied, if_neg (by decide), if_pos rfl, h]
  rfl

theorem cpDenied_zero_clear (h : s.cp15.cpar.getLsbD 0 = false) : s.cpDenied 0 = true := by
  rw [State.cpDenied, if_neg (by decide), if_neg (by decide), if_pos rfl, h]
  rfl

/-- No coprocessor from 1 to 12 exists. -/
theorem cpDenied_absent (h0 : cp ≠ 0) (h : cp.toNat < 13) : s.cpDenied cp = true := by
  have h15 : cp ≠ 15 := by rintro rfl; exact absurd h (by decide)
  have h14 : cp ≠ 14 := by rintro rfl; exact absurd h (by decide)
  have h13 : cp ≠ 13 := by rintro rfl; exact absurd h (by decide)
  rw [State.cpDenied, if_neg (not_or.2 ⟨h15, h14⟩), if_neg h13, if_neg h0]

theorem mcrAccepted_of {op1 : BitVec 3} (h : cp = 15 ∨ cp = 14 ∨ cp = 13) : mcrAccepted cp op1 = true := by
  obtain rfl | rfl | rfl := h <;> rfl

theorem mrcAccepted_of (h : cp = 15 ∨ cp = 14 ∨ cp = 13) : mrcAccepted cp = true := by
  obtain rfl | rfl | rfl := h <;> rfl

theorem ldcAccepted_of (h : cp = 14 ∨ cp = 13) : ldcAccepted cp = true := by
  obtain rfl | rfl := h <;> rfl

/-- Of coprocessor 0's MCRs only those of the accumulator space are taken. -/
theorem mcrAccepted_zero {op1 : BitVec 3} (h : op1 ≠ 1) : mcrAccepted 0 op1 = false := by
  rw [mcrAccepted, beq_eq_false_iff_ne.2 h]
  rfl

end

/-! ## What a coprocessor's register leaves of the core -/

/-- The general and the status registers and the pc are as they were. -/
structure RegistersKept (s t : State) : Prop extends SameStatus s t where
  regs : t.regs = s.regs

theorem RegistersKept.trans {s t u : State} (h : RegistersKept s t) (k : RegistersKept t u) : RegistersKept s u :=
  ⟨h.toSameStatus.trans k.toSameStatus, k.regs.trans h.regs⟩

theorem RegistersKept.mode {s t : State} (h : RegistersKept s t) : t.mode = s.mode := congrArg modeBits h.cpsr

theorem SameCore.registersKept {s t : State} (h : SameCore s t) : RegistersKept s t := ⟨⟨h.cpsr, h.spsrs, h.pc⟩, h.regs⟩

theorem SameStatus.isize {s t : State} (h : SameStatus s t) : t.isize = s.isize := by
  rw [State.isize, State.thumb, h.cpsr]
  rfl

theorem cpRead_kept (s : State) (cp crn crm : BitVec 4) (op2 : BitVec 3) :
    (cpRead cp crn crm op2 s).All (RegistersKept s) := by
  unfold cpRead readCp15 readBreakpoint readCp14 readTbreg readCp13
  dsimp only
  repeat' with_reducible refine Acc.All.ite ?_ ?_ _
  all_goals first | trivial | exact ⟨⟨rfl, rfl, rfl⟩, rfl⟩

theorem writeTx_kept (s : State) (v : Word) : RegistersKept s (s.writeTx v) := by
  refine ⟨writeTx_sameStatus s v, ?_⟩
  unfold State.writeTx
  split <;> rfl

theorem writeDcsr_kept (s : State) (v : Word) : RegistersKept s (s.writeDcsr v) := by
  refine ⟨writeDcsr_sameStatus s v, ?_⟩
  unfold State.writeDcsr
  dsimp only
  split
  · rfl
  · split <;> rfl

theorem writeCp14_kept (s : State) (crn : BitVec 4) (v : Word) : (writeCp14 crn v s).All (RegistersKept s) := by
  unfold writeCp14 writeCclkcfg writePwrmode
  dsimp only
  repeat' with_reducible refine Acc.All.ite ?_ ?_ _
  all_goals first
    | trivial
    | exact writeTx_kept s v
    | exact writeDcsr_kept s v
    | exact ⟨⟨rfl, rfl, rfl⟩, rfl⟩

theorem writeCp13_kept (s : State) (crn crm : BitVec 4) (v : Word) : (writeCp13 crn crm v s).All (RegistersKept s) := by
  unfold writeCp13 writeBcuctl writeEctst
  dsimp only
  repeat' with_reducible refine Acc.All.ite ?_ ?_ _
  all_goals first | trivial | exact ⟨⟨rfl, rfl, rfl⟩, rfl⟩

/-- The registers that LDC writes are those of coprocessors 14 and 13. -/
theorem cpWrite_kept {cp : BitVec 4} (hcp : cp ≠ 15) (s : State) (crn crm : BitVec 4) (op2 : BitVec 3) (v : Word) :
    (cpWrite cp crn crm op2 v s).All (RegistersKept s) := by
  rw [cpWrite, if_neg hcp]
  exact (writeCp14_kept s crn v).ite (writeCp13_kept s crn crm v) _

/-! ## The transfers -/

section
variable {s s1 s2 s3 : State} {cp crn crm : BitVec 4} {op2 : BitVec 3} {v : Word}

theorem advance_of_sameStatus (h : SameStatus s s1) : s1.advance s1.isize = { s1 with pc := s.pc + s.isize } := by
  rw [State.advance, h.pc, h.isize]

/-- A transfer of memory ends with its base's write-back. -/
theorem apply_advance (h : RegistersKept s s1) {a : Addr} {rn : Reg} (hn : a.wb ≠ none → rn ≠ 15) :
    (a.apply rn s1).advance s1.isize = { s1 with regs := s.regsAfterBase rn a.wb, pc := s.pc + s.isize } := by
  have based : a.apply rn s1 = { s1 with regs := s.regsAfterBase rn a.wb } := by
    unfold Addr.apply State.regsAfterBase
    cases hw : a.wb with
    | none => simp only [← h.regs]
    | some w => simp only [setReg_of_ne (hn (hw ▸ Option.some_ne_none w)), h.regs, h.mode]
  rw [based, State.advance, h.pc, h.isize]

theorem moveToCp_ok (hcp : cp = 15 ∨ cp = 14 ∨ cp = 13) (hd : s.cpDenied cp = false) {rd : Reg}
    (h : cpWrite cp crn crm op2 (s.reg rd) s = .ok () s1) :
    moveToCp crn rd cp op2 crm s = .next { s1 with pc := s.pc + s.isize } := by
  have h0 : cp ≠ 0 := by obtain rfl | rfl | rfl := hcp <;> decide
  have kept := (cpWrite_underway hd (.refl s) crn crm op2 (s.reg rd)).ok h
  rw [moveToCp, if_neg h0, h, Acc.finish_ok, advance_of_sameStatus kept.toSameStatus]

theorem moveFromCp_ok (h : cpRead cp crn crm op2 s = .ok v s1) {rd : Reg} (hd : rd ≠ 15) : moveFromCp crn rd cp op2 crm s
    = .next { s1 with regs := s.regs.set (bankIndex s.mode rd) v, pc := s.pc + s.isize } := by
  have kept := (cpRead_kept s cp crn crm op2).ok h
  rw [moveFromCp, h, Acc.finish_ok, writeFromCp, if_neg hd, writeReg_of_ne hd, State.wrote, kept.isize, kept.pc]
  simp only [kept.mode, kept.regs]

/-- MRC of R15 writes the flags. -/
theorem moveFromCp_flags (h : cpRead cp crn crm op2 s = .ok v s1) : moveFromCp crn 15 cp op2 crm s = .next { s1 with
    cpsr := withNZCV s.cpsr (v.getLsbD 31) (v.getLsbD 30) (v.getLsbD 29) (v.getLsbD 28)
    pc := s.pc + s.isize } := by
  have kept := (cpRead_kept s cp crn crm op2).ok h
  rw [moveFromCp, h, Acc.finish_ok, writeFromCp, if_pos rfl, State.advance, kept.isize, kept.pc, kept.cpsr]

section
variable {a : Addr} {rn : Reg}

theorem loadToCp_ok (hcp : cp ≠ 15) (hn : a.wb ≠ none → rn ≠ 15) (read : readMem 4 a.addr s.priv s = .ok v s1)
    (write : cpWrite cp crn 0 0 v s1 = .ok () s2) :
    loadToCp a rn crn cp s = .next { s2 with regs := s.regsAfterBase rn a.wb, pc := s.pc + s.isize } := by
  have kept := (readMem_sameCore read).registersKept.trans ((cpWrite_kept hcp s1 crn 0 0 v).ok write)
  rw [loadToCp, read, Acc.bind, write, Acc.finish_ok]
  exact congrArg _ (apply_advance kept hn)

theorem storeFromCp_ok (hn : a.wb ≠ none → rn ≠ 15) {p : Word × Xlat} (check : checkStore 4 a.addr s.priv s = .ok p s1)
    (read : cpRead cp crn 0 0 s1 = .ok v s2) (store : storeChecked 4 v p s2 = .ok () s3) :
    storeFromCp a rn crn cp s = .next { s3 with regs := s.regsAfterBase rn a.wb, pc := s.pc + s.isize } := by
  have checked : SameCore s s1 := ((closed_sameCore s).checkStore (.refl s) 4 _ _).ok check
  have stored : SameCore s2 s3 := ((closed_sameCore s2).storeChecked (.refl s2) 4 v p).ok store
  have kept := (checked.registersKept.trans ((cpRead_kept s1 cp crn 0 0).ok read)).trans stored.registersKept
  rw [storeFromCp, check, Acc.bind, read, Acc.bind, store, Acc.finish_ok]
  exact congrArg _ (apply_advance kept hn)

/-- A store whose checks abort reads no register of the coprocessor (D19). -/
theorem storeFromCp_abort (hs : s.dbg.sds = false) {f : DataFault} (check : checkStore 4 a.addr s.priv s = .abort f s1) :
    storeFromCp a rn crn cp s = .next (takeDataAbort f true s1) := by
  have checked : SameCore s s1 := ((closed_sameCore s).checkStore (.refl s) 4 _ _).abort check
  rw [storeFromCp, check, Acc.bind, Acc.finish_abort (checked.dbg ▸ hs)]

end
end

/-! ## Addressing mode 5 (44_coprocessor R540) -/

theorem mode5Refusal_none {a : Mode5} (hn : a.n = false) (form : a.p = true ∨ a.w = true ∨ a.u = true)
    (hw : a.w = true → a.rn ≠ 15) : mode5Refusal a = none := by
  have reserved : ¬(!a.p && !a.w && !a.u) = true := by
    obtain h | h | h := form <;> simp [h]
  have base : ¬(a.w && a.rn == 15) = true := fun h => by
    obtain ⟨w, e⟩ := Bool.and_eq_true_iff.1 h
    exact hw w (beq_iff_eq.1 e)
  rw [mode5Refusal, hn, if_neg Bool.false_ne_true, if_neg reserved, if_neg base]

theorem mode5_noWriteback {s : State} {a : Mode5} (h : a.w = false) (off : BitVec 8) : (s.mode5 a off).wb = none := by
  rw [State.mode5, h]
  cases a.p <;> rfl

theorem mode5_base {s : State} {a : Mode5} {off : BitVec 8} (hw : a.w = true → a.rn ≠ 15) (h : (s.mode5 a off).wb ≠ none) :
    a.rn ≠ 15 :=
  hw (Bool.eq_true_of_not_eq_false fun e => h (mode5_noWriteback e off))

/-! ## The obligations -/

/-- Settles O51: what passes the checks of R531 is its transfer. -/
theorem coprocessorTransfers : Obligations.CoprocessorTransfers := by
  unfold Obligations.CoprocessorTransfers
  intro c op1 crn crm cp rd op2 a off v s s1 s2 s3 hc hT denied traps m
  have checked {accepted : Bool} (ha : accepted = true) (k : Out) : armCond c s (cpChecked accepted cp crn s k) = k :=
    (armCond_pass hc).trans (cpChecked_run ha denied traps k)
  rw [← isize_arm hT]
  refine ⟨fun hcp => ⟨fun write => ?_, fun read => ⟨fun hd => ?_, ?_⟩⟩, fun hcp hm hn form hw => ?_⟩
  · exact (checked (mcrAccepted_of hcp) _).trans (moveToCp_ok hcp denied write)
  · exact (checked (mrcAccepted_of hcp) _).trans (moveFromCp_ok read hd)
  · rintro rfl
    exact (checked (mrcAccepted_of hcp) _).trans (moveFromCp_flags read)
  · have h15 : cp ≠ 15 := by obtain rfl | rfl := hcp <;> decide
    have base : m.wb ≠ none → a.rn ≠ 15 := mode5_base hw
    have allowed (k : Out) : armCond c s (cpChecked (ldcAccepted cp) cp crn s (unlessRefused (mode5Refusal a)
        (notInDebug s k))) = k :=
      (checked (ldcAccepted_of hcp) _).trans ((unlessRefused_run (mode5Refusal_none hn form hw) _).trans (notInDebug_run hm k))
    refine ⟨fun read write => ?_, fun p check read store => ?_, fun f check hs => ?_⟩
    · exact (allowed _).trans (loadToCp_ok h15 base read write)
    · exact (allowed _).trans (storeFromCp_ok base check read store)
    · exact (allowed _).trans (storeFromCp_abort hs check)

/-- Settles O52: each of them is not accepted or is denied. -/
theorem coprocessorAccessTraps : Obligations.CoprocessorAccessTraps := by
  unfold Obligations.CoprocessorAccessTraps
  intro c op1 crn crm cp rd rm op2 acc a off z s hc hT hs Mcr Mrc Block
  have raise {i : Instr} {k : Out} (hi : exec i s = armCond c s k) (hk : k = raiseUndef s) : TakesUndefined i s 4 :=
    takesUndefined_of_armCond hs hT hc (hk ▸ hi)
  have mcrDenied (hd : s.cpDenied cp = true) : Mcr := raise rfl (cpChecked_denied hd _ _ _)
  have mrcRejected (ha : mrcAccepted cp = false) : Mrc := raise rfl (cpChecked_rejected ha _ _)
  have blockRejected (ha : ldcAccepted cp = false) : Block :=
    ⟨raise rfl (cpChecked_rejected ha _ _), raise rfl (cpChecked_rejected ha _ _)⟩
  have allDenied (hd : s.cpDenied cp = true) : Mcr ∧ Mrc ∧ Block :=
    ⟨mcrDenied hd, raise rfl (cpChecked_denied hd _ _ _), raise rfl (cpChecked_denied hd _ _ _),
      raise rfl (cpChecked_denied hd _ _ _)⟩
  refine ⟨fun hm hcp => allDenied (cpDenied_user hm hcp), ?_, fun h0 h => allDenied (cpDenied_absent h0 h), ?_, ?_,
    fun clear => ⟨?_, ?_⟩⟩
  · rintro rfl clear
    exact allDenied (cpDenied_thirteen_clear clear)
  · rintro rfl
    exact blockRejected rfl
  · rintro rfl
    exact ⟨mrcRejected rfl, blockRejected rfl, fun h1 => raise rfl (cpChecked_rejected (mcrAccepted_zero h1) _ _)⟩
  · rintro rfl
    exact mcrDenied (cpDenied_zero_clear clear)
  · have accDenied {i : Instr} {rs : List Reg} {k : Out} (hi : exec i s = armCond c s (withAcc acc rs s k)) :
        TakesUndefined i s 4 :=
      raise hi (withAcc_denied (cpDenied_zero_clear clear) acc rs k)
    exact ⟨accDenied rfl, accDenied rfl, accDenied rfl, accDenied rfl, accDenied rfl, accDenied rfl, accDenied rfl,
      accDenied rfl⟩

end Sys2Proof.Machine
end

section
/-!
PROOFS. The accumulator instructions of coprocessor 0 (45_cp0 R572 to R576): acc0 as a number, and each instruction as its
effect once coprocessor 0 is allowed.
-/

namespace Sys2Proof.Machine

/-! ## The 40 bits of acc0 -/

/-- Modulo 2^40 a sum is the same whether acc0 is read as signed or as unsigned (R572). -/
theorem accumulate_eq (p : Int) (s : State) :
    accumulate p s = .next { s with acc0 := BitVec.ofInt 40 (p + s.acc0.toNat), pc := s.pc + s.isize } := by
  have unsigned : BitVec.ofInt 40 (p + s.acc0.toInt) = BitVec.ofInt 40 (p + s.acc0.toNat) := by
    rw [BitVec.ofInt_add, BitVec.ofInt_add, BitVec.ofInt_toInt, BitVec.ofInt_natCast, BitVec.ofNat_toNat, BitVec.setWidth_eq]
  rw [accumulate, unsigned]
  rfl

/-- What MAR writes to acc0 (R575). -/
theorem lowByte_append (hi lo : Word) :
    hi.extractLsb' 0 8 ++ lo = BitVec.ofNat 40 (hi.toNat % 256 * 2 ^ 32 + lo.toNat) := by
  apply BitVec.eq_of_toNat_eq
  have value : (hi.extractLsb' 0 8 ++ lo).toNat = hi.toNat % 256 * 2 ^ 32 + lo.toNat := by
    rw [BitVec.toNat_append, ← Nat.shiftLeft_add_eq_or_of_lt lo.isLt, Nat.shiftLeft_eq, BitVec.extractLsb'_toNat,
      Nat.shiftRight_zero]
  rw [BitVec.toNat_ofNat, ← value, Nat.mod_eq_of_lt (BitVec.isLt _)]

/-! ## An instruction as its effect (R571) -/

section
variable {c : Cond} {s : State} {i : Instr} {l : List Reg} {k : Out} (hc : condPassed c s.cpsr = true)
  (allowed : s.cp15.cpar.getLsbD 0 = true)
include hc allowed

/-- With CPAR bit 0 set only R15 can still stop an access of accumulator 0. -/
theorem exec_withAcc_zero (h : exec i s = armCond c s (withAcc 0 l s k)) : exec i s = noR15 l k := by
  rw [h, armCond_pass hc, withAcc, cpDenied_zero allowed, if_neg Bool.false_ne_true, if_neg (not_not.2 rfl)]

theorem exec_withAcc_r15 (h15 : 15 ∈ l) (h : exec i s = armCond c s (withAcc 0 l s k)) :
    exec i s = .refused .r15Operand :=
  (exec_withAcc_zero hc allowed h).trans (noR15_stop h15)

theorem exec_withAcc_run (h15 : 15 ∉ l) (h : exec i s = armCond c s (withAcc 0 l s k)) : exec i s = k :=
  (exec_withAcc_zero hc allowed h).trans (noR15_run h15)

end

/-- Settles O23: each is its effect on acc0 or, MRA, on two registers, behind the checks of R571 and of two destinations. -/
theorem accumulatorInstructions : Obligations.AccumulatorInstructions := by
  unfold Obligations.AccumulatorInstructions
  refine ⟨fun c rs rm s hc hT allowed => ⟨fun h15 => ?_, fun hs hm => ?_⟩, by decide⟩
  · have sources : 15 ∈ [rs, rm] := by simpa [eq_comm] using h15
    have product {i k} := @exec_withAcc_r15 c s i _ k hc allowed sources
    have pair : 15 ∈ [rm, rs] := (List.Perm.swap rm rs []).mem_iff.1 sources
    have move {i k} := @exec_withAcc_r15 c s i _ k hc allowed pair
    exact List.forall_iff_forall_mem.1 ⟨product rfl, product rfl, product rfl, product rfl, product rfl, product rfl,
      move rfl, move rfl⟩
  · intro acc half
    have sources : 15 ∉ [rs, rm] := fifteen_notMem ⟨hs, hm⟩
    have pair : 15 ∉ [rm, rs] := fifteen_notMem ⟨hm, hs⟩
    have product {i} (p : Int) (hi : exec i s = armCond c s (withAcc 0 [rs, rm] s (accumulate p s))) : exec i s = acc p := by
      rw [exec_withAcc_run hc allowed sources hi, accumulate_eq, isize_arm hT]
    have move {i k} := @exec_withAcc_run c s i _ k hc allowed pair
    refine ⟨product _ rfl, product _ rfl, product _ rfl, product _ rfl, product _ rfl, product _ rfl, ?_,
      fun ne => ?_, fun same => (move rfl).trans (if_pos same)⟩
    · rw [← lowByte_append, ← isize_arm hT]
      exact move rfl
    · refine ((move rfl).trans (if_neg ne)).trans ?_
      rw [setReg_of_ne hm, setReg_of_ne hs, ← isize_arm hT]
      rfl

end Sys2Proof.Machine
end

section
/-!
PROOFS. The Thumb data-processing instructions (46_thumb R593 to R627, R647 to R650) over the ARM operations, and the Thumb
branches (R628, R629, R655 to R657).
-/

namespace Sys2Proof.Machine

/-! ## A Thumb instruction as its operation -/

section
variable {s : State} {i : Instr} (hT : s.thumb = true)
include hT

theorem exec_thumb_writeReg {rd : Reg} {v w : Word} (hd : rd ≠ 15) (h : exec i s = writeReg rd v s) (hv : v = w) :
    exec i s = .next (s.wrote rd w s.cpsr 2) := by
  rw [h, writeReg_of_ne hd, isize_thumb hT, hv]

theorem thumbResult_of_writeAlu {rd : LowReg} {r : AluResult} {v psr : Word}
    (h : exec i s = writeAlu true (lowReg rd) r s) (hr : r = ⟨v, psr⟩) : ThumbResult i s rd v psr := by
  rw [ThumbResult, h, writeAlu_eq, if_neg (lowReg_ne rd), isize_thumb hT, hr, if_pos rfl]

theorem thumbResult_of_writeProduct {rd : LowReg} {v w : Word} (h : exec i s = writeProduct true (lowReg rd) v s)
    (hv : v = w) : ThumbResult i s rd w (logicFlags s.cpsr w (flagC s.cpsr)) := by
  rw [ThumbResult, h, writeProduct_of_ne (lowReg_ne rd), isize_thumb hT, hv]
  rfl

theorem thumbCompare_of_writeFlags {r : AluResult} {v psr : Word} (h : exec i s = writeFlags r s) (hr : r = ⟨v, psr⟩) :
    exec i s = .next { s with cpsr := psr, pc := s.pc + 2 } := by
  rw [h, writeFlags_eq, isize_thumb hT, hr]

/-- A result that may go to R15, which is then a branch that stays in Thumb state. -/
theorem exec_writeSum {d : Reg} {v : Word} (h : exec i s = writeSum d v s) :
    (d ≠ 15 → exec i s = .next (s.wrote d v s.cpsr 2))
      ∧ (d = 15 → ∃ x, exec i s = .next { s with pc := v &&& 0xFFFFFFFE, scratch := x }) := by
  rw [h, writeSum]
  refine ⟨fun hd => ?_, fun hd => ?_⟩
  · rw [if_neg hd, writeReg_of_ne hd, isize_thumb hT]
  · obtain ⟨x, jump⟩ := jumpKeepState_eq v s
    rw [if_pos hd, jump, if_pos hT]
    exact ⟨x, rfl⟩

/-- Naming R15 reads the address + 4 (10_state R36). -/
theorem reg_pc_thumb : s.reg 15 = s.pc + 4 := by
  rw [reg_pc, State.pcOperand, if_pos hT]

end

/-! ## Operands -/

theorem imm_value (s : State) {n : Nat} (v : BitVec n) : (s.imm v).value = BitVec.ofNat 32 v.toNat :=
  (BitVec.ofNat_toNat 32 v).symm

theorem imm_shiftLeft_two {n : Nat} (v : BitVec n) : v.setWidth 32 <<< 2 = BitVec.ofNat 32 (4 * v.toNat) := by
  rw [← BitVec.ofNat_toNat, BitVec.shiftLeft_eq_mul_twoPow, Nat.mul_comm, BitVec.ofNat_mul]
  rfl

theorem notBothLow_of_high {d m : Reg} (h : d.getLsbD 3 = true ∨ m.getLsbD 3 = true) (k : Out) : notBothLow d m k = k :=
  if_neg (by rcases h with h | h <;> simp [h])

/-- Settles O54: each is a logical result, a sum, a difference or a product, written to its register or to the flags. -/
theorem thumbDataProcessing : Obligations.ThumbDataProcessing := by
  unfold Obligations.ThumbDataProcessing
  intro rm rn rd i3 i5 i7 i8 d m s hT p x y n cin k b imm
  have logic := logicResult_eq p
  have add := plainSum_eq p
  have sub := plainDifference_eq p
  have result {i v psr r} := @thumbResult_of_writeAlu s i hT rd r v psr
  have compare {i r v psr} := @thumbCompare_of_writeFlags s i hT r v psr
  have sum (z : Word) {n} (v : BitVec n) : aluAdd p z (s.imm v)
      = ⟨z + imm v.toNat, addFlags p z (imm v.toNat) (z + imm v.toNat) false⟩ := by
    rw [aluAdd, imm_value, add]
  have difference (z : Word) {n} (v : BitVec n) : aluSub p z (s.imm v)
      = ⟨z - imm v.toNat, subFlags p z (imm v.toNat) (z - imm v.toNat) false⟩ := by
    rw [aluSub, imm_value, sub]
  have moved : aluMov p (s.imm i8) = ⟨imm i8.toNat, logicFlags p (imm i8.toNat) cin⟩ := by
    rw [aluMov, imm_value, logic]
    rfl
  refine ⟨?_, ?_, ?_, fun high => ?_, ?_⟩
  · exact ⟨result rfl (logic _ _), result rfl (logic _ _), result rfl (logic _ _), result rfl (logic _ _),
      result rfl (logic _ _), result rfl (logic _ _), result rfl (logic _ _)⟩
  · exact ⟨result rfl (add _ _), result rfl (sub _ _), result rfl (sum n i3), result rfl (difference n i3),
      result rfl (sum x i8), result rfl (difference x i8), result rfl (sumResult_eq p _ _ _),
      result rfl (differenceResult_eq p _ _ _), result rfl (sub 0 y), compare rfl (difference x i8), compare rfl (sub _ _),
      compare rfl (add _ _)⟩
  · exact ⟨result rfl moved, result rfl (logic _ _), result rfl (logic _ _), result rfl (logic _ _), result rfl (logic _ _),
      result rfl (logic _ _), thumbResult_of_writeProduct hT rfl (BitVec.mul_comm y x), compare rfl (logic _ _)⟩
  · have adds := exec_writeSum hT (i := .tAdd4 d m) (notBothLow_of_high high _)
    have moves := exec_writeSum hT (i := .tMov3 d m) (notBothLow_of_high high _)
    refine ⟨fun hd => ⟨adds.1 hd, moves.1 hd, ?_⟩, ?_⟩
    · exact compare ((notBothLow_of_high high _).trans (noR15_run (fifteen_notMem (l := [d]) hd))) (sub _ _)
    · rintro rfl
      rw [← reg_pc_thumb hT]
      exact ⟨adds.2 rfl, moves.2 rfl⟩
  · have offset8 (z : Word) : z + (i8.setWidth 32 <<< 2) = z + imm (4 * i8.toNat) := by rw [imm_shiftLeft_two]
    have writes {i rd v w} := @exec_thumb_writeReg s i hT rd v w
    exact ⟨writes (lowReg_ne rd) rfl (offset8 _), writes (lowReg_ne rd) rfl (offset8 _),
      writes (by decide) rfl (congrArg _ (imm_shiftLeft_two i7)), writes (by decide) rfl (congrArg _ (imm_shiftLeft_two i7))⟩

/-! ## Branches -/

theorem exec_tB1 (c : Cond) (off : BitVec 8) {s : State} (hT : s.thumb = true) : ∃ b x, exec (.tB1 c off) s = .next { s with
    pc := if condPassed c s.cpsr then s.pc + 4 + off.signExtend 32 * 2 else s.pc + 2, btb := b, scratch := x } := by
  change ∃ b x, predictedBranch _ (condPassed c s.cpsr) _ s = _
  rw [halfwords_eq]
  cases condPassed c s.cpsr with
  | true => exact predictedBranch_taken s _ _
  | false =>
    obtain ⟨b, ev, e⟩ := recordBranch_eq s ((encodeThumb (.tB1 c off)).setWidth 32) false (s.pc + 4 + (off.signExtend 32 <<< 1))
    rw [predictedBranch, if_neg Bool.false_ne_true, e, ← isize_thumb hT]
    exact ⟨b, _, rfl⟩

theorem exec_tB2 (off : BitVec 11) (s : State) : ∃ b x, exec (.tB2 off) s = .next { s with
    pc := s.pc + 4 + off.signExtend 32 * 2, btb := b, scratch := x } := by
  rw [halfwords_eq]
  exact predictedBranch_taken s _ _

theorem exec_tBlFirst (off : BitVec 11) {s : State} (hT : s.thumb = true) : exec (.tBlFirst off) s = .next { s with
    regs := s.regs.set (bankIndex s.mode 14) (s.pc + 4 + off.signExtend 32 * 4096), pc := s.pc + 2 } := by
  have pages : off.signExtend 32 * (4096 : Word) = off.signExtend 32 <<< 12 := (BitVec.shiftLeft_eq_mul_twoPow _ 12).symm
  change Host.Outcome.next ((s.setReg 14 _).advance s.isize) = _
  rw [isize_thumb hT, setReg_link, pages]
  rfl

theorem exec_tBl (off : BitVec 11) (s : State) : ∃ x, exec (.tBl off) s = .next { s with
    regs := s.regs.set (bankIndex s.mode 14) ((s.pc + 2) ||| 1)
    pc := (s.reg 14 + off.setWidth 32 * 2) &&& 0xFFFFFFFE
    scratch := x } := by
  change ∃ x, execTBl off s = _
  rw [execTBl, setReg_link, halfwords_eq]
  exact ⟨_, rfl⟩

theorem withT_false (p : Word) : withT p false = p &&& 0xFFFFFFDF := rfl

theorem exec_tBlx1 (off : BitVec 10) (s : State) : ∃ x, exec (.tBlx1 off) s = .next { s with
    regs := s.regs.set (bankIndex s.mode 14) ((s.pc + 2) ||| 1)
    cpsr := s.cpsr &&& 0xFFFFFFDF
    pc := (s.reg 14 + off.setWidth 32 * 4) &&& 0xFFFFFFFC
    scratch := x } := by
  change ∃ x, execTBlx1 off s = _
  rw [execTBlx1, setReg_link, words_eq, ← withT_false]
  exact ⟨_, rfl⟩

/-- The target was read before R14 was written. -/
theorem exec_tBlx2 {m : Reg} (h : m ≠ 15) (s : State) : exec (.tBlx2 m) s = branchExchange (s.reg m)
    { s.noteBranch with regs := s.regs.set (bankIndex s.mode 14) ((s.pc + 2) ||| 1) } := by
  refine (noR15_run (fifteen_notMem (l := [m]) h)).trans ?_
  rw [setReg_link]
  rfl

/-- Settles O55: B is a predicted branch, BL and BLX (1) jump past R14's link, BX and BLX (2) exchange with a register. -/
theorem thumbBranches : Obligations.ThumbBranches := by
  unfold Obligations.ThumbBranches
  intro c i8 i11 i10 m s hT linked v lr
  refine ⟨exec_tB1 c i8 hT, exec_tB2 i11 s, exec_tBlFirst i11 hT, exec_tBl i11 s, exec_tBlx1 i10 s,
    fun aligned => ⟨branchExchange_run aligned s.noteBranch, fun h15 => ?_⟩,
    fun unaligned => ⟨branchExchange_stop unaligned s.noteBranch, fun h15 => ?_⟩⟩
  · rw [exec_tBlx2 h15]
    exact branchExchange_run aligned _
  · rw [exec_tBlx2 h15]
    exact branchExchange_stop unaligned _

end Sys2Proof.Machine
end

section
/-!
PROOFS. The entry of an exception (60_exceptions R682 to R684), the registers of a precise data abort (R711 to R714), and the
requests and power modes (R700; 62_platform R835, R858, R881 to R884).
-/

namespace Sys2Proof.Machine

/-! ## The entry (60_exceptions R682) -/

theorem bitF_entryCpsr_kept (p : Word) (m : BitVec 5) : bitF (entryCpsr p m false) = bitF p := by
  show (setBit (setBit (withMode p m) 5 false) 7 true).getLsbD 6 = p.getLsbD 6
  rw [getLsbD_setBit_of_ne _ (by decide), getLsbD_setBit_of_ne _ (by decide), getLsbD_withMode_of_ge _ _ (by decide)]

theorem bitF_exceptionCpsr (p : Word) (e : Exc) : bitF (entryCpsr p e.mode e.setsF) = (bitF p || e == .fiq) := by
  cases e with
  | fiq => exact (bitF_entryCpsr p _).trans (Bool.or_true _).symm
  | undef | swi | prefetch | data | irq => exact (bitF_entryCpsr_kept p _).trans (Bool.or_false _).symm

/-- Bits 31:8 are no part of what an exception changes. -/
theorem entryCpsr_high (p : Word) (m : BitVec 5) (f : Bool) : entryCpsr p m f &&& 0xFFFFFF00 = p &&& 0xFFFFFF00 := by
  have mask : ∀ i < 8, (0xFFFFFF00 : Word).getLsbD i = false := by decide
  refine BitVec.eq_of_getLsbD_eq fun i hi => ?_
  rw [BitVec.getLsbD_and, BitVec.getLsbD_and]
  by_cases low : i < 8
  · rw [mask i low, Bool.and_false, Bool.and_false]
  · rw [getLsbD_entryCpsr_of_ge p m f (not_lt.1 low)]

/-- A mode entered by an exception has an SPSR, its own. -/
theorem spsrIndex_exc (e : Exc) : spsrIndex e.mode = some e.spsr := by cases e <;> rfl

section
variable (e : Exc) (link : Word) (k : Bool) (s : State)

theorem takeException_mode : (takeException e link k s).mode = e.mode := mode_entryCpsr _ _ _

theorem takeException_spsr : (takeException e link k s).spsr = some s.cpsr := by
  rw [State.spsr, takeException_mode, spsrIndex_exc]
  exact congrArg some (Vector.getElem_set_self _)

theorem takeException_link : (takeException e link k s).bankReg e.mode 14 = link := Vector.getElem_set_self _

theorem takeException_bankReg {m : BitVec 5} {r : Reg} (h : bankIndex m r ≠ bankIndex e.mode 14) :
    (takeException e link k s).bankReg m r = s.bankReg m r :=
  Vector.getElem_set_ne (bankIndex e.mode 14).isLt _ fun same => h (Fin.ext same.symm)

end

/-- Settles O25: field by field of the entry sequence. -/
theorem exceptionEntry : Obligations.ExceptionEntry := by
  unfold Obligations.ExceptionEntry
  intro e link k s t
  refine ⟨takeException_mode e link k s, takeException_link e link k s, takeException_spsr e link k s,
    bitT_entryCpsr _ _ _, bitI_entryCpsr _ _ _, bitF_exceptionCpsr _ e, entryCpsr_high _ _ _, ?_,
    fun m r h => takeException_bankReg e link k s h, fun a => rfl, rfl, rfl, rfl⟩
  cases e <;> rfl

/-! ## A precise data abort (60_exceptions R712) -/

section
variable (x d : Bool) (dom st : BitVec 4)

theorem fsrWord_status : (fsrWord x d dom st).extractLsb' 0 4 = st := by
  refine BitVec.eq_of_getLsbD_eq fun i hi => ?_
  rw [BitVec.getLsbD_extractLsb', fsrWord, Nat.zero_add, BitVec.getLsbD_append]
  simp [hi]

theorem fsrWord_domain : (fsrWord x d dom st).extractLsb' 4 4 = dom := by
  refine BitVec.eq_of_getLsbD_eq fun i hi => ?_
  rw [BitVec.getLsbD_extractLsb', fsrWord, BitVec.getLsbD_append, BitVec.getLsbD_append]
  simp [hi]

theorem getLsbD_fsrWord_ten : (fsrWord x d dom st).getLsbD 10 = x := by
  rw [fsrWord]
  simp only [BitVec.getLsbD_append]
  cases x <;> rfl

end

section
variable (f : DataFault) (s : State)

theorem recordFault_status : (s.recordFault f).cp15.fsr.extractLsb' 0 4 = f.code.bits.extractLsb' 0 4 := fsrWord_status _ _ _ _

theorem recordFault_x : (s.recordFault f).cp15.fsr.getLsbD 10 = f.code.bits.getLsbD 4 := getLsbD_fsrWord_ten _ _ _ _

theorem recordFault_d : (s.recordFault f).cp15.fsr.getLsbD 9 = false := getLsbD_fsrWord_nine _ _ _ _

variable {f s}

theorem recordFault_domain (h : f.code.domainValid = true) : (s.recordFault f).cp15.fsr.extractLsb' 4 4 = f.domain :=
  (fsrWord_domain _ _ _ _).trans (if_pos h)

theorem recordFault_far (h : f.code.farValid = true) : (s.recordFault f).cp15.far = f.mva := if_pos h

end

/-- Settles O30: the table by evaluation; the entry of a data abort from the state in which the fault is recorded. -/
theorem preciseDataAbort : Obligations.PreciseDataAbort := by
  unfold Obligations.PreciseDataAbort
  refine ⟨by decide, ?_⟩
  intro f k s t
  exact ⟨takeException_mode _ _ _ _, takeException_link .data _ _ _, takeException_spsr _ _ _ _, rfl, recordFault_status f s,
    recordFault_x f s, recordFault_d f s, recordFault_domain, recordFault_far, fun a => rfl,
    fun m r h => takeException_bankReg .data _ _ _ h⟩

/-! ## Requests (60_exceptions R700; 62_platform R835, R858) -/

theorem fiqInternal_iff (s : State) : s.fiqInternal = true ↔ (s.icu.fiqPin = true ∧ s.icu.intctl.getLsbD 0 = true)
    ∨ (s.bcuRequest = true ∧ s.icu.intctl.getLsbD 3 = true ∧ s.icu.intstr.getLsbD 1 = true)
    ∨ (s.pmuRequest = true ∧ s.icu.intctl.getLsbD 2 = true ∧ s.icu.intstr.getLsbD 0 = true) := by
  simp only [State.fiqInternal, Bool.or_eq_true, Bool.and_eq_true, or_assoc, and_assoc]

theorem irqInternal_iff (s : State) : s.irqInternal = true ↔ (s.icu.irqPin = true ∧ s.icu.intctl.getLsbD 1 = true)
    ∨ (s.bcuRequest = true ∧ s.icu.intctl.getLsbD 3 = true ∧ s.icu.intstr.getLsbD 1 = false)
    ∨ (s.pmuRequest = true ∧ s.icu.intctl.getLsbD 2 = true ∧ s.icu.intstr.getLsbD 0 = false) := by
  simp only [State.irqInternal, Bool.or_eq_true, Bool.and_eq_true, Bool.not_eq_true', or_assoc, and_assoc]

/-- What is left of a word under a mask of three bits is not zero when one of them is set. -/
theorem masked_bne_zero {w mask : Word} {i j k : Nat}
    (h : ∀ n < 32, mask.getLsbD n = true ↔ n = i ∨ n = j ∨ n = k) (bound : i < 32 ∧ j < 32 ∧ k < 32) :
    (!(w &&& mask == 0)) = (w.getLsbD i || w.getLsbD j || w.getLsbD k) := by
  obtain ⟨hi, hj, hk⟩ := bound
  rw [Bool.eq_iff_iff, Bool.not_eq_true', beq_eq_false_iff_ne, Bool.or_eq_true, Bool.or_eq_true]
  constructor
  · intro ne
    by_contra none
    refine ne (BitVec.eq_of_getLsbD_eq fun n hn => ?_)
    rw [BitVec.getLsbD_and, BitVec.ofNat_eq_ofNat, BitVec.getLsbD_zero, Bool.and_eq_false_iff, or_iff_not_imp_right,
      Bool.not_eq_false, h n hn, ← Bool.not_eq_true]
    rintro (rfl | rfl | rfl) set
    · exact none (.inl (.inl set))
    · exact none (.inl (.inr set))
    · exact none (.inr set)
  · intro set zero
    have clear {n : Nat} (hn : n < 32) (hm : n = i ∨ n = j ∨ n = k) : w.getLsbD n = false := by
      have bit := congrArg (fun v : Word => v.getLsbD n) zero
      rwa [BitVec.getLsbD_and, (h n hn).2 hm, Bool.and_true, BitVec.ofNat_eq_ofNat, BitVec.getLsbD_zero] at bit
    rw [clear hi (.inl rfl), clear hj (.inr (.inl rfl)), clear hk (.inr (.inr rfl))] at set
    simp at set

/-- The BCU requests while an error is logged: EV, E1V or E0V (62_platform R858). -/
theorem bcuRequest_eq (s : State) :
    s.bcuRequest = (s.bcu.bcuctl.getLsbD 0 && !(s.bcu.bcuctl &&& 0x70000000 == 0)) := by
  rw [masked_bne_zero (i := 30) (j := 29) (k := 28) (by decide) (by decide)]
  rfl

/-- The performance monitor requests while a flag is set whose enable bit, four below, is set (62_platform R835). -/
theorem pmuRequest_eq (s : State) : s.pmuRequest = !((s.pmu.pmnc >>> 8) &&& (s.pmu.pmnc >>> 4) &&& 7 == 0) := by
  rw [masked_bne_zero (i := 2) (j := 1) (k := 0) (by decide) (by decide)]
  simp only [BitVec.getLsbD_and, BitVec.getLsbD_ushiftRight]
  rfl

/-! ## Low-power modes (62_platform R881 to R884) -/

/-- Without a host event the core steps. -/
theorem step_core {s : State} (events : s.hostEvents = []) : step s = coreStep s := by
  rw [step, stepCycle, events]

section
variable {s : State} (events : s.hostEvents = []) (out : s.inReset = false)
include events out

theorem step_asleep (h : s.power.mode = .sleep) : step s = .next s := by
  rw [step_core events, coreStep, out, h]
  rfl

theorem step_idle (h : s.power.mode = .idle) :
    step s = .next (if s.wakes then { s with power := { s.power with mode := .active } } else s) := by
  rw [step_core events, coreStep, out, h]
  rfl

theorem step_active (h : s.power.mode = .active) : step s = activeStep { s with scratch := .empty } := by
  rw [step_core events, coreStep, out, h]
  rfl

end

theorem wakes_of_pin {s : State} (h : (s.icu.fiqPin || s.icu.irqPin) = true) : s.wakes = true := by
  rw [State.wakes, h, Bool.true_or]

theorem wakes_of_noPin {s : State} (h : (s.icu.fiqPin || s.icu.irqPin) = false) :
    s.wakes = ((s.bcuRequest || s.pmuRequest) && Config.idleWakeInternal) := by
  rw [State.wakes, h, Bool.false_or, Bool.and_comm, Bool.or_comm s.pmuRequest]

section
variable {v : Word} {s : State}

theorem writePwrmode_zero (h : v.extractLsb' 0 2 = 0) : writePwrmode v s = .ok () s := if_pos h

theorem writePwrmode_one (h : v.extractLsb' 0 2 = 1) :
    writePwrmode v s = .ok () { s with power := { s.power with mode := .idle } } := by
  rw [writePwrmode, h]
  rfl

theorem writePwrmode_three (h : v.extractLsb' 0 2 = 3) :
    writePwrmode v s = .ok () { s with power := { s.power with mode := .sleep } } := by
  rw [writePwrmode, h]
  rfl

end

/-- In a privileged mode an MCR to PWRMODE is its write and the end of the instruction. -/
theorem exec_mcr_pwrmode {c : Cond} {s t : State} (pass : condPassed c s.cpsr = true) (hT : s.thumb = false)
    (hm : s.mode ≠ modeUsr) (op1 op2 : BitVec 3) (rd : Reg) (crm : BitVec 4) (h : writePwrmode (s.reg rd) s = .ok () t) :
    exec (.mcr c op1 7 rd 14 op2 crm) s = .next { t with pc := s.pc + 4 } := by
  have allowed : s.cpDenied 14 = false := by simpa [State.cpDenied, State.priv, modePriv] using hm
  have write : cpWrite 14 7 crm op2 (s.reg rd) s = .ok () t := h
  calc exec (.mcr c op1 7 rd 14 op2 crm) s
      = cpChecked (mcrAccepted 14 op1) 14 7 s (moveToCp 7 rd 14 op2 crm s) := armCond_pass pass
    _ = moveToCp 7 rd 14 op2 crm s := cpChecked_run (mcrAccepted_of (.inr (.inl rfl))) allowed rfl _
    _ = .next { t with pc := s.pc + 4 } := by rw [moveToCp_ok (.inr (.inl rfl)) allowed write, isize_arm hT]

/-- Settles O60: the requests by their bits, a step by the power mode, PWRMODE by the value written. -/
theorem interruptRequestsAndLowPower : Obligations.InterruptRequestsAndLowPower := by
  unfold Obligations.InterruptRequestsAndLowPower
  intro s m t bcu pmu
  have hb : s.bcuRequest = bcu := bcuRequest_eq s
  have hp : s.pmuRequest = pmu := pmuRequest_eq s
  have fiq := fiqInternal_iff s
  have irq := irqInternal_iff s
  rw [hb, hp] at fiq irq
  refine ⟨fiq, irq, fun events out => ?_, ?_, ?_⟩
  · refine ⟨step_asleep events out, fun idle pin => ?_, fun idle noPin => ?_⟩
    · rw [step_idle events out idle, if_pos (wakes_of_pin pin)]
    · rw [step_idle events out idle, wakes_of_noPin noPin, hb, hp]
  · rw [State.pwrstatus]
    cases s.power.mode <;> rfl
  · intro c rd crm op1 op2 pass hT hm v Enters
    have enters {t : State} (h : writePwrmode (s.reg rd) s = .ok () t) := exec_mcr_pwrmode pass hT hm op1 op2 rd crm h
    exact ⟨fun h0 => enters (writePwrmode_zero h0), fun h1 => enters (writePwrmode_one h1),
      fun h3 => enters (writePwrmode_three h3)⟩

end Sys2Proof.Machine
end

section
/-!
PROOFS. The end of a step (62_platform R831; 61_debug R781 to R786): what the counters count, and the messages of the trace
buffer.
-/

namespace Sys2Proof.Machine

/-! ## Reporting a data breakpoint -/

section
variable (s : State)

theorem reportDataBreak_pmu : s.reportDataBreak.pmu = s.pmu := by
  unfold State.reportDataBreak debugException
  split
  · split <;> rfl
  · rfl

theorem reportDataBreak_trace : s.reportDataBreak.trace = s.trace := by
  unfold State.reportDataBreak debugException
  split
  · split <;> rfl
  · rfl

variable {s}

theorem reportDataBreak_none (h : s.scratch.dataBreak = false) : s.reportDataBreak = s := by
  rw [State.reportDataBreak, h]
  rfl

end

/-! ## The counters (62_platform R831) -/

section
variable (s0 s : State) (ran : Bool)

/-- The trace message of the step has no part in what is counted. -/
theorem retire_pmu : (s0.retire ran s).pmu = if s0.pmuOn && s.pmuOn then (s.pmuCount ran).pmu else s.pmu := by
  have on : (if s0.traceOn && s.traceOn then s.traceStep else s).pmuOn = s.pmuOn := by split <;> rfl
  refine (reportDataBreak_pmu _).trans ?_
  rw [on]
  split
  · split <;> rfl
  · split <;> rfl

/-- The number of clocks that a step counts, free and positive (log 37). -/
def State.stepClocks (s : State) : Nat := (Config.freeWord s.freeCount).toNat + 1

/-- The clocks as CCNT counts them: with PMNC.D one of 64. -/
def State.ccntCounts (s : State) : Nat :=
  if s.pmu.pmnc.getLsbD 3 then (s.pmu.prescale.toNat + s.stepClocks) / 64 else s.stepClocks

/-- What the step adds to a counter of event `ev`, of which `draw` says what is free. -/
def State.stepCounts (s : State) (ev : BitVec 8) (draw : Nat) : Nat :=
  s.eventCount ev ran (Config.freeWord (s.freeCount + draw))

/-- PMNC after a count: each counter that passed its top has set its flag. -/
def withOverflows (p : Word) (c n1 n0 : Bool) : Word :=
  p ||| (if c then 0x400 else 0) ||| (if n1 then 0x200 else 0) ||| (if n0 then 0x100 else 0)

theorem pmuCount_pmnc : (s.pmuCount ran).pmu.pmnc = withOverflows s.pmu.pmnc
    (decide (2 ^ 32 ≤ s.pmu.ccnt.toNat + s.ccntCounts))
    (decide (2 ^ 32 ≤ s.pmu.pmn1.toNat + s.stepCounts ran (s.pmu.pmnc.extractLsb' 20 8) 2))
    (decide (2 ^ 32 ≤ s.pmu.pmn0.toNat + s.stepCounts ran (s.pmu.pmnc.extractLsb' 12 8) 1)) := rfl

theorem pmuCount_ccnt : (s.pmuCount ran).pmu.ccnt.toNat = (s.pmu.ccnt.toNat + s.ccntCounts) % 2 ^ 32 :=
  BitVec.toNat_ofNat _ _

theorem pmuCount_pmn0 : (s.pmuCount ran).pmu.pmn0.toNat
    = (s.pmu.pmn0.toNat + s.stepCounts ran (s.pmu.pmnc.extractLsb' 12 8) 1) % 2 ^ 32 := BitVec.toNat_ofNat _ _

theorem pmuCount_pmn1 : (s.pmuCount ran).pmu.pmn1.toNat
    = (s.pmu.pmn1.toNat + s.stepCounts ran (s.pmu.pmnc.extractLsb' 20 8) 2) % 2 ^ 32 := BitVec.toNat_ofNat _ _

end

section
variable (p : Word) (c n1 n0 : Bool)

theorem withOverflows_ccnt : (withOverflows p c n1 n0).getLsbD 10 = (p.getLsbD 10 || c) := by
  cases c <;> cases n1 <;> cases n0 <;> simp [withOverflows]

theorem withOverflows_pmn1 : (withOverflows p c n1 n0).getLsbD 9 = (p.getLsbD 9 || n1) := by
  cases c <;> cases n1 <;> cases n0 <;> simp [withOverflows]

theorem withOverflows_pmn0 : (withOverflows p c n1 n0).getLsbD 8 = (p.getLsbD 8 || n0) := by
  cases c <;> cases n1 <;> cases n0 <;> simp [withOverflows]

/-- Bits 10:8 are the flags. -/
theorem withOverflows_others : withOverflows p c n1 n0 &&& 0xFFFFF8FF = p &&& 0xFFFFF8FF := by
  have flag (b : Bool) {w : Word} (h : w &&& 0xFFFFF8FF = 0) : (if b then w else 0) &&& (0xFFFFF8FF : Word) = 0 := by
    cases b
    · exact BitVec.zero_and
    · exact h
  rw [withOverflows, or_and_mask, or_and_mask, or_and_mask, flag c (by decide), flag n1 (by decide), flag n0 (by decide)]
  simp only [BitVec.ofNat_eq_ofNat, BitVec.or_zero]

end

/-- Event 0x7 is the instruction itself; the other events of the list are those that the model meets (12_state R145). -/
theorem eventCount_exact {s : State} {ran : Bool} {ev : BitVec 8} {free : Word} (h : ev = 0x07 ∨ ev ∈ [(0x00 : BitVec 8),
    0x03, 0x04, 0x05, 0x06, 0x0A, 0x0B, 0x0C, 0x0D, 0x10, 0x12, 0x14, 0x15, 0x16]) :
    s.eventCount ev ran free = if ev = 0x07 then (if ran then 1 else 0) else s.scratch.events.count ev := by
  rw [State.eventCount]
  by_cases h7 : ev = 0x07
  · rw [if_pos h7, if_pos h7]
    cases ran <;> rfl
  · have exact_ : eventExact ev = true := by
      simpa [eventExact, Bool.or_assoc] using h.resolve_left h7
    rw [if_neg h7, if_neg h7, if_pos exact_]

/-- Settles O57: the end of a step counts when PMNC.E was and is set; what each counter then holds. -/
theorem performanceCounters : Obligations.PerformanceCounters := by
  unfold Obligations.PerformanceCounters
  intro s0 s ran p t Counts
  have counted : t = if s0.pmuOn && s.pmuOn then (s.pmuCount ran).pmu else p := retire_pmu s0 s ran
  refine ⟨fun off => counted.trans (if_neg ?_), fun on0 on => ?_⟩
  · rw [Bool.and_eq_true]
    exact fun on => by rcases off with h | h <;> simp_all [State.pmuOn, p]
  · have both : (s0.pmuOn && s.pmuOn) = true := Bool.and_eq_true_iff.2 ⟨on0, on⟩
    rw [if_pos both] at counted
    have flags : t.pmnc = _ := (congrArg Pmu.pmnc counted).trans (pmuCount_pmnc s ran)
    refine ⟨fun exact_ => ?_, fun exact_ => ?_, ⟨s.stepClocks, Nat.succ_pos _, ?_⟩, ?_⟩
    · intro n
      have count : s.stepCounts ran _ 1 = n := eventCount_exact exact_
      rw [← count, flags, withOverflows_pmn0, counted]
      exact ⟨pmuCount_pmn0 s ran, rfl⟩
    · intro n
      have count : s.stepCounts ran _ 2 = n := eventCount_exact exact_
      rw [← count, flags, withOverflows_pmn1, counted]
      exact ⟨pmuCount_pmn1 s ran, rfl⟩
    · rw [flags, withOverflows_ccnt, counted]
      exact ⟨pmuCount_ccnt s ran, rfl⟩
    · rw [flags, withOverflows_others]

/-! ## The trace buffer (61_debug R781 to R786) -/

section
variable (s0 s : State) (ran : Bool)

theorem retire_trace :
    (s0.retire ran s).trace = if s0.traceOn && s.traceOn then s.trace.record s.scratch.flow else s.trace := by
  refine (reportDataBreak_trace _).trans ?_
  by_cases on : (s0.traceOn && s.traceOn) = true
  · rw [if_pos on, if_pos on]
    split <;> rfl
  · rw [if_neg on, if_neg on]
    split <;> rfl

/-- The counters and the trace buffer leave the note of a data breakpoint alone. -/
theorem retire_dbg (h : s.scratch.dataBreak = false) :
    (s0.retire ran s).dbg = (if s0.traceOn && s.traceOn then s.traceStep else s).dbg := by
  unfold State.retire
  dsimp only
  generalize hu : (if s0.traceOn && s.traceOn then s.traceStep else s) = u
  have note : u.scratch.dataBreak = false := by
    rw [← hu]
    split <;> exact h
  split
  · rw [reportDataBreak_none (by exact note)]
    rfl
  · rw [reportDataBreak_none note]

end

/-- The last `n` bytes of a buffer of 256. -/
def Trace.last (t : Trace) (n : Nat) : List Byte := t.bytes.drop (256 - n)

section
variable {t : Trace} (full : t.bytes.length = 256) (b : Byte)
include full

theorem length_push : (t.push b).bytes.length = 256 := by
  simp [Trace.push, full]

theorem last_zero : t.last 0 = [] := List.drop_of_length_le (by rw [full])

/-- A byte enters at the end of the buffer and pushes the others on. -/
theorem last_push {n : Nat} (h : n < 256) : (t.push b).last (n + 1) = t.last n ++ [b] := by
  have entered : 256 - (n + 1) ≤ (t.bytes.drop 1).length := by
    rw [List.length_drop, full]
    omega
  rw [Trace.last, Trace.push, List.drop_append_of_le_length entered, List.drop_drop, Trace.last,
    show 1 + (256 - (n + 1)) = 256 - n by omega]

end

section
variable {t : Trace} (full : t.bytes.length = 256) (a : Word)
include full

theorem record_direct : let u := t.record (.direct a)
    u.count = 0 ∧ u.bytes.length = 256
      ∧ ((u.last 1 = [0b1000#4 ++ t.count] ∧ u.chkpt0 = t.chkpt0 ∧ u.chkpt1 = t.chkpt1)
        ∨ (u.last 1 = [0b1100#4 ++ t.count] ∧ u.chkpt0 = a ∧ u.chkpt1 = t.chkpt0)) := by
  have message (m : Byte) : (t.push m).last 1 = [m] := by
    rw [last_push full m (by decide), last_zero full]
    rfl
  have length := length_push full
  simp only [Trace.record, Trace.direct]
  split
  · exact ⟨rfl, length _, .inr ⟨message _, rfl, rfl⟩⟩
  · exact ⟨rfl, length _, .inl ⟨message _, rfl, rfl⟩⟩

/-- The four bytes of a target come before the message byte. -/
theorem record_indirect : let u := t.record (.indirect a)
    let target := [a.extractLsb' 24 8, a.extractLsb' 16 8, a.extractLsb' 8 8, a.extractLsb' 0 8]
    u.count = 0 ∧ u.bytes.length = 256
      ∧ ((u.last 5 = target ++ [0b1001#4 ++ t.count] ∧ u.chkpt0 = t.chkpt0 ∧ u.chkpt1 = t.chkpt1)
        ∨ (u.last 5 = target ++ [0b1101#4 ++ t.count] ∧ u.chkpt0 = a ∧ u.chkpt1 = t.chkpt0)) := by
  have f1 := length_push full (a.extractLsb' 24 8)
  have f2 := length_push f1 (a.extractLsb' 16 8)
  have f3 := length_push f2 (a.extractLsb' 8 8)
  have f4 := length_push f3 (a.extractLsb' 0 8)
  have length := length_push f4
  have message (m : Byte) := last_push f4 m (n := 4) (by decide)
  rw [last_push f3 _ (by decide), last_push f2 _ (by decide), last_push f1 _ (by decide), last_push full _ (by decide),
    last_zero full] at message
  simp only [Trace.record, Trace.indirect]
  split
  · exact ⟨rfl, length _, .inr ⟨message _, rfl, rfl⟩⟩
  · exact ⟨rfl, length _, .inl ⟨message _, rfl, rfl⟩⟩

end

/-- Settles O59: when the end of a step writes a message, and the bytes of each. -/
theorem traceMessages : Obligations.TraceMessages := by
  unfold Obligations.TraceMessages
  refine ⟨?_, ?_⟩
  · intro s0 s ran t
    have trace : t.trace = _ := retire_trace s0 s ran
    have dbg (h : s.scratch.dataBreak = false) : t.dbg = _ := retire_dbg s0 s ran h
    refine ⟨fun on0 on => ?_, fun off => ?_⟩
    · have both : (s0.traceOn && s.traceOn) = true := Bool.and_eq_true_iff.2 ⟨on0, on⟩
      rw [if_pos both] at trace dbg
      exact ⟨trace, dbg⟩
    · have notBoth : ¬(s0.traceOn && s.traceOn) = true := by rcases off with h | h <;> simp [h]
      rw [if_neg notBoth] at trace dbg
      exact ⟨trace, dbg⟩
  · intro t a v full last
    refine ⟨fun h => if_neg h, fun h => ?_, ⟨rfl, rfl, rfl, rfl⟩, record_direct full a, record_indirect full a, rfl, rfl⟩
    have rollOver : t.record .seq = { t.push 0xFF with count := 0 } := if_pos h
    rw [rollOver]
    exact ⟨rfl, rfl, rfl⟩

end Sys2Proof.Machine
end

section
/-!
PROOFS. What is taken before the next instruction (60_exceptions R681, R685; 61_debug R755 to R757), and a fetch that aborts
(60_exceptions R710, R711; 21_mmu R273).
-/

namespace Sys2Proof.Machine

/-! ## The end of a step in which no data breakpoint is noted -/

section
variable (s0 : State) (ran : Bool) {s : State} (noBreak : s.scratch.dataBreak = false)
include noBreak

theorem retire_noBreak : ∃ t full p k, s0.retire ran s = { s.recorded t full p k with scratch := .empty } := by
  unfold State.retire
  dsimp only
  generalize hu : (if s0.traceOn && s.traceOn then s.traceStep else s) = u
  have traced : ∃ t full, u = { s with trace := t, dbg := { s.dbg with tbFull := full } } := by
    rw [← hu]
    split <;> exact ⟨_, _, rfl⟩
  obtain ⟨t, full, rfl⟩ := traced
  split
  · exact ⟨t, full, _, _, congrArg (fun v : State => { v with scratch := .empty }) (reportDataBreak_none (by exact noBreak))⟩
  · exact ⟨t, full, _, _, congrArg (fun v : State => { v with scratch := .empty }) (reportDataBreak_none (by exact noBreak))⟩

/-- With the trace buffer off the end of the step changes no pending break. -/
theorem retire_traceOff (off : s.traceOn = false) :
    ∃ p k, s0.retire ran s = { s with pmu := p, freeCount := k, scratch := .empty } := by
  unfold State.retire
  rw [off, Bool.and_false, if_neg Bool.false_ne_true]
  dsimp only
  split
  · exact ⟨_, _, congrArg (fun v : State => { v with scratch := .empty }) (reportDataBreak_none (by exact noBreak))⟩
  · exact ⟨_, _, congrArg (fun v : State => { v with scratch := .empty }) (reportDataBreak_none noBreak)⟩

end

theorem traceOn_of_dcsr {s : State} (h : s.dbg.dcsr.getLsbD 0 = false) : s.traceOn = false := by
  rw [State.traceOn, h, Bool.false_and]

/-- The entry is not undone by the end of the step: it has disabled the trace buffer. -/
theorem entersHalt_retire {moe : BitVec 3} {link : Word} {s u : State} (h : EntersHalt moe link s u)
    (noBreak : u.scratch.dataBreak = false) (s0 : State) (ran : Bool) : EntersHalt moe link s (s0.retire ran u) := by
  have off : u.traceOn = false := by
    obtain ⟨-, -, -, -, -, -, -, -, -, off, -⟩ := h
    exact traceOn_of_dcsr off
  obtain ⟨p, k, e⟩ := retire_traceOff s0 ran noBreak off
  rw [e]
  exact h

theorem entersMonitor_retire {moe : BitVec 3} {vector link : Word} {s u : State} (h : EntersMonitor moe vector link s u)
    (noBreak : u.scratch.dataBreak = false) (s0 : State) (ran : Bool) : EntersMonitor moe vector link s (s0.retire ran u) := by
  have off : u.traceOn = false := by
    obtain ⟨-, -, -, -, -, -, -, off, -⟩ := h
    exact traceOn_of_dcsr off
  obtain ⟨p, k, e⟩ := retire_traceOff s0 ran noBreak off
  rw [e]
  exact h

theorem debugException_noBreak (moe : BitVec 3) (e : Exc) (link : Word) (s : State) :
    (debugException moe e link s).scratch.dataBreak = false := by
  unfold debugException
  split <;> rfl

theorem entersDebug_retire (moe : BitVec 3) {e : Exc} (kind : e = .prefetch ∨ e = .data) (link : Word) (s s0 : State)
    (ran : Bool) : EntersDebug moe e.offset link s (s0.retire ran (debugException moe e link s)) := by
  have noBreak := debugException_noBreak moe e link s
  obtain ⟨halt, monitor⟩ := entersDebug_debugException moe kind link s
  exact ⟨fun h => entersHalt_retire (halt h) noBreak s0 ran, fun h => entersMonitor_retire (monitor h) noBreak s0 ran⟩

/-- What the step of an exception leaves: its entry, and what its end records. -/
theorem retire_takeException (s0 : State) (e : Exc) (link : Word) (s : State) :
    let t := s0.retire false (takeException e link false s)
    t.regs = s.regs.set (bankIndex e.mode 14) link ∧ t.spsrs = s.spsrs.set e.spsr s.cpsr
      ∧ t.cpsr = entryCpsr s.cpsr e.mode e.setsF ∧ t.pc = s.vectorBase + e.offset ∧ t.mem = s.mem ∧ t.cp15 = s.cp15
      ∧ t.pendingAbort = s.pendingAbort := by
  obtain ⟨t, full, p, k, eq⟩ := retire_noBreak s0 false (s := takeException e link false s) rfl
  rw [eq]
  exact ⟨rfl, rfl, rfl, rfl, rfl, rfl, rfl⟩

/-! ## The order of a step (60_exceptions R681) -/

section
variable {s : State}

theorem activeStep_trap {moe : BitVec 3} (h : s.vectorTrap = some moe) :
    activeStep s = .next (s.retire false (debugEntryHalt moe (s.pc + 4) s)) := by
  rw [activeStep, h]

variable (noTrap : s.vectorTrap = none)
include noTrap

theorem activeStep_pending {k : AbortKind} (h : s.pendingAbort = some k) : activeStep s = .next (takePending k s) := by
  rw [activeStep, noTrap, h]

variable (noAbort : s.pendingAbort = none)
include noAbort

theorem activeStep_break (h : (s.mayTakeBreak && (s.dbg.extBreak || s.dbg.tbFull)) = true) : activeStep s
    = .next (s.retire false (debugException (if s.dbg.extBreak then 0b100 else 0b110) .data (s.pc + 4) s)) := by
  rw [activeStep, noTrap, noAbort]
  exact if_pos h

variable (noBreak : (s.mayTakeBreak && (s.dbg.extBreak || s.dbg.tbFull)) = false)
include noBreak

theorem activeStep_fiq (h : (s.fiqInternal && !bitF s.cpsr && !s.dbg.sds) = true) :
    activeStep s = .next (s.retire false (takeException .fiq (s.pc + 4) false s)) := by
  rw [activeStep, noTrap, noAbort, noBreak, h]
  rfl

variable (noFiq : (s.fiqInternal && !bitF s.cpsr && !s.dbg.sds) = false)
include noFiq

theorem activeStep_irq (h : (s.irqInternal && !bitI s.cpsr && !s.dbg.sds) = true) :
    activeStep s = .next (s.retire false (takeException .irq (s.pc + 4) false s)) := by
  rw [activeStep, noTrap, noAbort, noBreak, noFiq, h]
  rfl

variable (noIrq : (s.irqInternal && !bitI s.cpsr && !s.dbg.sds) = false)
include noIrq

theorem activeStep_instrBreak (h : s.instrBreak = true) :
    activeStep s = .next (s.retire false (debugException 0b001 .prefetch (s.pc + 4) s)) := by
  rw [activeStep, noTrap, noAbort, noBreak, noFiq, noIrq, h]
  rfl

theorem activeStep_run (h : s.instrBreak = false) : activeStep s = runInstr s := by
  rw [activeStep, noTrap, noAbort, noBreak, noFiq, noIrq, h]
  rfl

end

/-! ## The conditions (61_debug R755 to R757) -/

section
variable {s : State}

theorem vectorTrap_reset (halt : s.haltMode = true) (sds : s.dbg.sds = false) (at_ : s.pc = s.vectorBase)
    (armed : s.dbg.dcsr.getLsbD 16 = true) : s.vectorTrap = some Config.resetTrapMoe := by
  simp [State.vectorTrap, halt, sds, at_, armed]

theorem vectorTrap_vector (halt : s.haltMode = true) (sds : s.dbg.sds = false) (hg : s.ge = true) {bit : Nat} {off : Word}
    (row : (bit, off) ∈ trapTable) (armed : s.dbg.dcsr.getLsbD bit = true) (at_ : s.pc = s.vectorBase + off) :
    s.vectorTrap = some 0b101 := by
  have apart : ∀ e ∈ trapTable, e.2 ≠ 0 := by decide
  have notReset : s.pc ≠ s.vectorBase := by
    rw [at_]
    exact fun e => apart _ row (by simpa using e)
  have listed : (trapTable.any fun e => s.dbg.dcsr.getLsbD e.1 && s.pc == s.vectorBase + e.2) = true :=
    List.any_eq_true.2 ⟨_, row, by simp [armed, at_]⟩
  rw [State.vectorTrap, listed]
  simp [halt, sds, notReset, hg]

theorem mayTakeBreak_iff : s.mayTakeBreak = true
    ↔ s.ge = true ∧ s.dbg.sds = false ∧ (s.haltMode = false → s.mode ≠ modeAbt) := by
  simp only [State.mayTakeBreak, Bool.and_eq_true, Bool.or_eq_true, Bool.not_eq_true', beq_eq_false_iff_ne, and_assoc]
  cases s.haltMode <;> simp

theorem instrBreak_of_match (hg : s.ge = true) (sds : s.dbg.sds = false)
    (h : ∃ r ∈ [s.cp15.ibcr0, s.cp15.ibcr1], r.getLsbD 0 = true
      ∧ (s.thumb = true → r.extractLsb' 1 31 = (s.mvaOf s.pc).extractLsb' 1 31)
      ∧ (s.thumb = false → r.extractLsb' 2 30 = (s.mvaOf s.pc).extractLsb' 2 30)) : s.instrBreak = true := by
  obtain ⟨r, listed, enabled, thumb, arm⟩ := h
  have hit : s.ibMatch r = true := by
    rw [State.ibMatch]
    cases hT : s.thumb with
    | true => simp [enabled, thumb hT]
    | false => simp [enabled, arm hT]
  rw [State.instrBreak, hg, sds]
  rcases List.mem_pair.1 listed with rfl | rfl <;> simp [hit]

end

/-! ## Imprecise aborts (60_exceptions R715, R716) -/

/-- The fault that reports an imprecise abort (R714). -/
def AbortKind.fault (k : AbortKind) : DataFault where
  code := match k with | .external => .external | .parity => .parity
  mva := 0
  domain := 0

theorem AbortKind.fault_x (k : AbortKind) : k.fault.code.bits.getLsbD 4 = true := by cases k <;> rfl

/-- The state with the pending abort taken off and reported in FSR and FAR. -/
def State.recordPending (k : AbortKind) (s : State) : State :=
  ({ s with pendingAbort := none } : State).recordFault k.fault

section
variable (k : AbortKind) {s : State}

theorem takePending_taken (h : s.dbg.sds = false) :
    takePending k s = s.retire false (takeException .data (s.pc + 4) false (s.recordPending k)) :=
  if_neg (by rw [h]; exact Bool.false_ne_true)

/-- In Special Debug State it is recorded only (61_debug R752). -/
theorem takePending_recorded (h : s.dbg.sds = true) : takePending k s = (s.recordPending k).setSticky := if_pos h

end

/-- Settles O32: the candidates in the order of `activeStep`, each with its entry and the end of its step. -/
theorem pendingExceptionsTaken : Obligations.PendingExceptionsTaken := by
  unfold Obligations.PendingExceptionsTaken
  intro s events out active Takes Fsr
  have runs {x : Out} (h : activeStep (s.withScratch .empty) = x) : step s = x := (step_active events out active).trans h
  have traps {moe : BitVec 3} (h : s.vectorTrap = some moe) : ∃ t, step s = .next t ∧ EntersHalt moe (s.pc + 4) s t :=
    ⟨_, runs (activeStep_trap h), entersHalt_retire (entersHalt_debugEntryHalt moe _ (s.withScratch .empty)) rfl _ _⟩
  refine ⟨fun halt sds => ⟨fun at_ armed => traps (vectorTrap_reset halt sds at_ armed), ?_⟩, fun noTrap => ⟨?_, ?_⟩⟩
  · intro bit off row hg armed at_
    exact traps (vectorTrap_vector halt sds hg row armed at_)
  · intro k pending
    have fsr {t : State} (h : t.cp15 = ((s.withScratch .empty).recordPending k).cp15) (none : t.pendingAbort = none) :
        Fsr k t := by
      simp only [Fsr, h]
      exact ⟨(recordFault_x _ _).trans k.fault_x, recordFault_d _ _, (recordFault_status _ _).trans (by cases k <;> rfl), none⟩
    have taken := activeStep_pending (s := s.withScratch .empty) noTrap pending
    refine ⟨fun sds => ?_, fun sds => ?_⟩
    · rw [takePending_taken k (by exact sds)] at taken
      obtain ⟨regs, spsrs, cpsr, pc, mem, cp15, none⟩ :=
        retire_takeException (s.withScratch .empty) .data (s.pc + 4) ((s.withScratch .empty).recordPending k)
      exact ⟨_, runs taken, regs, spsrs, cpsr, pc, mem, fsr cp15 none⟩
    · rw [takePending_recorded k (by exact sds)] at taken
      exact ⟨_, runs taken, fsr rfl rfl, rfl, rfl, rfl, rfl, rfl⟩
  · intro noAbort may brk
    have mayBreak : s.mayTakeBreak = true ↔ may := mayTakeBreak_iff
    have pending : (s.dbg.extBreak || s.dbg.tbFull) = true ↔ brk := by rw [Bool.or_eq_true]
    refine ⟨fun h1 h2 => ?_, fun quiet sds => ?_⟩
    · have taken := Bool.and_eq_true_iff.2 ⟨mayBreak.2 h1, pending.2 h2⟩
      exact ⟨_, runs (activeStep_break noTrap noAbort taken),
        entersDebug_retire _ (.inr rfl) _ (s.withScratch .empty) _ _⟩
    · have noBreak : (s.mayTakeBreak && (s.dbg.extBreak || s.dbg.tbFull)) = false := by
        rw [← Bool.not_eq_true, Bool.and_eq_true, mayBreak, pending]
        exact quiet
      have outside (b : Bool) : (b && !s.dbg.sds) = b := by rw [sds, Bool.not_false, Bool.and_true]
      have enters {e : Exc} (h : activeStep (s.withScratch .empty) = .next ((s.withScratch .empty).retire false
          (takeException e (s.pc + 4) false (s.withScratch .empty)))) :
          Takes e.mode e.spsr e.offset e.setsF fun t => t.cp15 = s.cp15 := by
        obtain ⟨regs, spsrs, cpsr, pc, mem, cp15, -⟩ :=
          retire_takeException (s.withScratch .empty) e (s.pc + 4) (s.withScratch .empty)
        exact ⟨_, runs h, regs, spsrs, cpsr, pc, mem, cp15⟩
      refine ⟨fun request enabled => ?_, fun noFiq => ⟨fun request enabled => ?_, fun noIrq hg hit => ?_⟩⟩
      · have fiq : (s.fiqInternal && !bitF s.cpsr && !s.dbg.sds) = true := by simp [request, enabled, sds]
        exact enters (activeStep_fiq noTrap noAbort noBreak fiq)
      · have irq : (s.irqInternal && !bitI s.cpsr && !s.dbg.sds) = true := by simp [request, enabled, sds]
        exact enters (activeStep_irq noTrap noAbort noBreak ((outside _).trans noFiq) irq)
      · exact ⟨_, runs (activeStep_instrBreak noTrap noAbort noBreak ((outside _).trans noFiq) ((outside _).trans noIrq)
          (instrBreak_of_match hg sds hit)), entersDebug_retire _ (.inl rfl) _ (s.withScratch .empty) _ _⟩

/-! ## A fetch that aborts (60_exceptions R710; 21_mmu R273) -/

/-- In a quiet state the step runs the instruction at the pc. -/
theorem step_quiet {s : State} (h : s.quiet = true) : step s = runInstr (s.withScratch .empty) := by
  simp only [State.quiet, Bool.and_eq_true, Bool.not_eq_true', beq_iff_eq] at h
  obtain ⟨⟨⟨⟨⟨⟨⟨⟨events, out⟩, active⟩, noAbort⟩, noBreak⟩, noFiq⟩, noIrq⟩, noTrap⟩, noInstr⟩ := h
  exact (step_active events out active).trans
    (activeStep_run (s := s.withScratch .empty) noTrap noAbort noBreak noFiq noIrq noInstr)

theorem runInstr_abort {s s1 : State} {f : DataFault} (h : fetch s = .abort f s1) (sds : s1.dbg.sds = false) : runInstr s
    = .next (s.retire false (if f.fetchIsData then takeDataAbort f false s1 else takePrefetchAbort f.code s1)) := by
  rw [runInstr, h]
  exact if_neg (by rw [sds]; exact Bool.false_ne_true)

/-- What an aborting fetch takes: an abort with the fault's status and X. -/
def TakesAbort (e : Exc) (link : Word) (f : DataFault) (s t : State) : Prop :=
  t.regs = s.regs.set (bankIndex e.mode 14) link ∧ t.spsrs = s.spsrs.set e.spsr s.cpsr
    ∧ t.cpsr = entryCpsr s.cpsr e.mode e.setsF ∧ t.pc = s.vectorBase + e.offset
    ∧ t.cp15.fsr.extractLsb' 0 4 = f.code.bits.extractLsb' 0 4 ∧ t.cp15.fsr.getLsbD 10 = f.code.bits.getLsbD 4

/-- The fetch before it has changed no register. -/
theorem retire_takesAbort {s s1 : State} (same : SameCore s s1) (s0 : State) (e : Exc) (link : Word) (f : DataFault) :
    let t := s0.retire false (takeException e link false (s1.recordFault f))
    TakesAbort e link f s t ∧ t.cp15 = (s1.recordFault f).cp15 := by
  obtain ⟨regs, spsrs, cpsr, pc, -, cp15, -⟩ := retire_takeException s0 e link (s1.recordFault f)
  have base : (s1.recordFault f).vectorBase = s.vectorBase := by
    show s1.vectorBase = s.vectorBase
    rw [State.vectorBase, same.cp15]
    rfl
  refine ⟨⟨regs.trans ?_, spsrs.trans ?_, cpsr.trans ?_, pc.trans ?_, ?_, ?_⟩, cp15⟩
  · exact congrArg (Vector.set · _ link _) same.regs
  · show s1.spsrs.set e.spsr s1.cpsr = _
    rw [same.spsrs, same.cpsr]
  · exact congrArg (entryCpsr · e.mode e.setsF) same.cpsr
  · rw [base]
  · rw [cp15]
    exact recordFault_status f s1
  · rw [cp15]
    exact recordFault_x f s1

/-- Outside Special Debug State a fault of the translation is the fetch's: as it is when it is a data abort, else as an
instruction MMU abort. -/
theorem fetch_translationAbort {s t : State} {g : DataFault} (sds : s.dbg.sds = false)
    (h : translate true s.fetchAddress false s.priv s = .abort g t) : fetch s
      = .abort (if g.fetchIsData then g else { code := .instrMmu, mva := s.fetchAddress, domain := 0 }) t := by
  rw [fetch, fetchWord, if_neg (by rw [sds]; exact Bool.false_ne_true), h]
  show Acc.bind (if g.fetchIsData = true then _ else fetchAbort .instrMmu _ t) staleWord = _
  split <;> rfl

/-- Settles O33: the step takes the abort that the fetch answers; that of a translation by `fetch_translationAbort`. -/
theorem fetchAbortsTaken : Obligations.FetchAbortsTaken := by
  unfold Obligations.FetchAbortsTaken
  intro s s1 f quiet sds aborts Takes
  have same : SameCore s s1 :=
    ((closed_sameCore s).fetch (s := s.withScratch .empty) ((closed_sameCore s).scratch s .empty (.refl s))).abort aborts
  have out : s1.dbg.sds = false := by rw [same.dbg, sds]
  have run := (step_quiet quiet).trans (runInstr_abort aborts out)
  refine ⟨fun prefetch => ?_, fun data => ?_, ?_⟩
  · rw [prefetch, if_neg Bool.false_ne_true, takePrefetchAbort, same.pc] at run
    obtain ⟨⟨regs, spsrs, cpsr, pc, status, x⟩, -⟩ := retire_takesAbort same (s.withScratch .empty) .prefetch (s.pc + 4)
      { code := f.code, mva := 0, domain := 0 }
    exact ⟨_, run, regs, spsrs, cpsr, pc, status, x, trivial⟩
  · rw [data, if_pos rfl, takeDataAbort, same.pc] at run
    obtain ⟨⟨regs, spsrs, cpsr, pc, status, x⟩, cp15⟩ := retire_takesAbort same (s.withScratch .empty) .data (s.pc + 8) f
    exact ⟨_, run, regs, spsrs, cpsr, pc, status, x, fun valid => (congrArg Cp15.far cp15).trans (recordFault_far valid)⟩
  · intro g t walk
    have fault := (fetch_translationAbort (s := s.withScratch .empty) sds walk).symm.trans aborts
    obtain ⟨rfl, rfl⟩ := Acc.abort.inj fault
    refine ⟨rfl, fun ecc => if_pos ?_, fun _ _ => ite_eq_or_eq _ _ _, fun ecc l1 l2 => if_neg ?_⟩
    · rw [DataFault.fetchIsData, ecc, Bool.true_or]
    · simp [DataFault.fetchIsData, ecc, l1, l2]

end Sys2Proof.Machine
end

section
/-!
PROOFS. The error log of the bus controller (62_platform R855; 12_state R172 to R175) and what a request that an abort or an ECC
error meets answers (R854, R856, R859, R872 to R874).
-/

namespace Sys2Proof.Machine

/-! ## The error log (62_platform R855) -/

/-- From `b` to `c` an error was logged, with its direction, its type and its address, and its syndrome where one is given: in
the first free of the two logs, or when neither is free in BCUCTL.EV only. -/
def Bcu.Logged (b : Bcu) (write : Bool) (kind : BitVec 2) (a : Word) (syn : Option (BitVec 8)) (c : Bcu) : Prop :=
  let l0 := b.bcuctl.getLsbD 28
  let l1 := b.bcuctl.getLsbD 29
  let Entry (e : Word) : Prop := e.getLsbD 31 = write ∧ e.extractLsb' 29 2 = kind ∧ ∀ y ∈ syn, e.extractLsb' 0 8 = y
  (l0 = false → c.bcuctl = b.bcuctl ||| 0x10000000 ∧ c.ecar0 = a ∧ Entry c.elog0 ∧ c.ecar1 = b.ecar1 ∧ c.elog1 = b.elog1)
    ∧ (l0 = true → c.ecar0 = b.ecar0 ∧ c.elog0 = b.elog0)
    ∧ (l0 = true → l1 = false → c.bcuctl = b.bcuctl ||| 0x20000000 ∧ c.ecar1 = a ∧ Entry c.elog1)
    ∧ (l0 = true → l1 = true → c.bcuctl = b.bcuctl ||| 0x40000000 ∧ c.ecar1 = b.ecar1 ∧ c.elog1 = b.elog1)

/-- The fields of a log entry (12_state R172). -/
theorem elog_fields (write : Bool) (et : BitVec 2) (syn : BitVec 8) : let e : Word := BitVec.ofBool write ++ et ++ 0#21 ++ syn
    e.getLsbD 31 = write ∧ e.extractLsb' 29 2 = et ∧ e.extractLsb' 0 8 = syn := by
  refine ⟨?_, BitVec.eq_of_getLsbD_eq fun i hi => ?_, BitVec.eq_of_getLsbD_eq fun i hi => ?_⟩
  · simp only [BitVec.getLsbD_append]
    cases write <;> rfl
  · rw [BitVec.getLsbD_extractLsb', BitVec.getLsbD_append, BitVec.getLsbD_append, BitVec.getLsbD_append]
    simp [hi, show ¬ 29 + i < 8 by omega, show ¬ 29 + i - 8 < 21 by omega, show 29 + i - 8 - 21 = i by omega]
  · rw [BitVec.getLsbD_extractLsb', BitVec.getLsbD_append]
    simp [hi]

section
variable (s : State) (write : Bool) (et : BitVec 2) (syn : BitVec 8) (a : Word)

theorem logError_logged : s.bcu.Logged write et a (some syn) (s.logError write et syn a).bcu := by
  obtain ⟨dir, type, low⟩ := elog_fields write et syn
  have entry : ∀ y ∈ some syn, (BitVec.ofBool write ++ et ++ 0#21 ++ syn : Word).extractLsb' 0 8 = y := by
    rintro y ⟨⟩
    exact low
  unfold State.logError Bcu.Logged
  cases h0 : s.bcu.bcuctl.getLsbD 28 with
  | false =>
    refine ⟨fun _ => ⟨rfl, rfl, ⟨dir, type, entry⟩, rfl, rfl⟩, ?_, ?_, ?_⟩ <;> exact fun h => Bool.noConfusion h
  | true =>
    cases h1 : s.bcu.bcuctl.getLsbD 29 with
    | false =>
      exact ⟨fun h => Bool.noConfusion h, fun _ => ⟨rfl, rfl⟩, fun _ _ => ⟨rfl, rfl, dir, type, entry⟩,
        fun _ h => Bool.noConfusion h⟩
    | true =>
      have event : (if et = 0b10 then ({ s with bcu := { s.bcu with bcuctl := setBit s.bcu.bcuctl 30 true } } : State)
          else State.note { s with bcu := { s.bcu with bcuctl := setBit s.bcu.bcuctl 30 true } } 0x14).bcu
          = { s.bcu with bcuctl := setBit s.bcu.bcuctl 30 true } := by split <;> rfl
      dsimp only
      rw [if_neg (by decide), if_neg (by decide), event]
      exact ⟨fun h => Bool.noConfusion h, fun _ => ⟨rfl, rfl⟩, fun _ h => Bool.noConfusion h, fun _ _ => ⟨rfl, rfl, rfl⟩⟩

theorem Bcu.Logged.anySyndrome {b c : Bcu} {write : Bool} {kind : BitVec 2} {a : Word} {syn : Option (BitVec 8)}
    (h : b.Logged write kind a syn c) : b.Logged write kind a none c := by
  have any {e : Word} : ∀ y ∈ (none : Option (BitVec 8)), e.extractLsb' 0 8 = y := fun y hy => nomatch hy
  obtain ⟨first, kept, second, neither⟩ := h
  refine ⟨fun h0 => ?_, kept, fun h0 h1 => ?_, neither⟩
  · obtain ⟨c0, a0, ⟨dir, type, -⟩, a1, e1⟩ := first h0
    exact ⟨c0, a0, ⟨dir, type, any⟩, a1, e1⟩
  · obtain ⟨c1, a1, dir, type, -⟩ := second h0 h1
    exact ⟨c1, a1, dir, type, any⟩

theorem logAbort_logged : s.bcu.Logged write 0b10 a none (s.logAbort write a).bcu :=
  (logError_logged s write 0b10 _ a).anySyndrome

theorem logEcc_logged (multi : Bool) : s.bcu.Logged false (if multi then 0b01 else 0b00) (a &&& 0xFFFFFFF8) (some syn)
    (s.logEcc multi syn a).bcu :=
  logError_logged s false _ syn _

end

/-! ## What a log leaves of the bus -/

/-- Memory, the configuration and the board as they were: a request made now is answered as before. -/
structure SameBus (s t : State) : Prop where
  mem : t.mem = s.mem
  cp15 : t.cp15 = s.cp15
  cpsr : t.cpsr = s.cpsr
  board : t.board = s.board
  bus32 : t.bus32 = s.bus32
  icache : t.icache = s.icache
  bcumod : t.bcu.bcumod = s.bcu.bcumod
  control : ∀ i < 28, t.bcu.bcuctl.getLsbD i = s.bcu.bcuctl.getLsbD i

theorem sameBus_withScratch (s : State) (z : Scratch) : SameBus s (s.withScratch z) :=
  ⟨rfl, rfl, rfl, rfl, rfl, rfl, rfl, fun _ _ => rfl⟩

section
variable {s t : State} (h : SameBus s t)
include h

theorem SameBus.note (ev : BitVec 8) : SameBus s (t.note ev) := { h with }

theorem SameBus.logError (write : Bool) (et : BitVec 2) (syn : BitVec 8) (a : Word) :
    SameBus s (t.logError write et syn a) := by
  have control {j : Nat} (hj : 28 ≤ j) : ∀ i < 28, (setBit t.bcu.bcuctl j true).getLsbD i = s.bcu.bcuctl.getLsbD i :=
    fun i hi => (getLsbD_setBit_of_ne _ (by omega) true).trans (h.control i hi)
  unfold State.logError
  dsimp only
  split
  · exact { h with control := control (by decide) }
  · split
    · exact { h with control := control (by decide) }
    · split <;> exact { h with control := control (by decide) }

theorem SameBus.logEcc (multi : Bool) (syn : BitVec 8) (req : Word) : SameBus s (t.logEcc multi syn req) := h.logError ..

theorem SameBus.logAbort (write : Bool) (a : Word) : SameBus s (t.logAbort write a) := { h.logError write 0b10 _ a with }

theorem SameBus.eccOn (p : Bool) : t.eccOn p = s.eccOn p := by
  rw [State.eccOn, State.eccOn, State.mmuOn, h.cp15, h.control 3 (by decide)]
  rfl

theorem SameBus.busAborts (write : Bool) (pa : Word) (n : Nat) : t.busAborts write pa n = s.busAborts write pa n := by
  rw [State.busAborts, State.busAborts, h.board]

theorem SameBus.eccAt (b : Nat) : t.eccAt b = s.eccAt b := by
  rw [State.eccAt, State.eccAt, h.board]

theorem SameBus.byteAt (a : Word) : t.byteAt a = s.byteAt a := State.byteAt_of_mem h.mem a

theorem SameBus.takenBytes (write : Bool) (pa : Word) (n : Nat) :
    ∀ fuel k, t.takenBytes write pa n fuel k = s.takenBytes write pa n fuel k := by
  intro fuel
  induction fuel with
  | zero => exact fun k => rfl
  | succ fuel ih =>
    intro k
    simp only [State.takenBytes, h.bus32, h.busAborts, ih]

theorem SameBus.firstCycle (pa req : Word) (n : Nat) : t.firstCycle pa req n = s.firstCycle pa req n := by
  have window : t.cwfAt pa = s.cwfAt pa := by rw [State.cwfAt, State.cwfAt, h.board]
  simp only [State.firstCycle, window]

theorem SameBus.readBlocks (pa req : Word) (n : Nat) : t.readBlocks pa req n = s.readBlocks pa req n := by
  rw [State.readBlocks, State.readBlocks, h.firstCycle]

theorem SameBus.arrivedBytes (pa req : Word) (n : Nat) : t.arrivedBytes pa req n = s.arrivedBytes pa req n := by
  simp only [State.arrivedBytes, h.firstCycle, h.takenBytes]

theorem SameBus.receivedBlocks (pa req : Word) (n : Nat) : t.receivedBlocks pa req n = s.receivedBlocks pa req n := by
  simp only [State.receivedBlocks, h.arrivedBytes, h.readBlocks]

theorem SameBus.lineRequest (pa : Word) : t.lineRequest pa = s.lineRequest pa := by
  rw [State.lineRequest, State.lineRequest, h.bcumod]

theorem SameBus.goodWords (pa : Word) (p : Bool) : t.goodWords pa p = s.goodWords pa p := by
  simp only [State.goodWords, h.lineRequest, h.arrivedBytes, h.eccOn, h.readBlocks, h.eccAt, h.firstCycle]

theorem SameBus.eccByte (a : Word) : t.eccByte a = s.eccByte a := by
  simp only [State.eccByte, h.eccAt, h.byteAt, h.control 2 (by decide)]

end

/-! ## The bytes that a read delivers -/

/-- A byte as a read delivers it, checked or not. -/
def State.deliveredByte (s : State) (p : Bool) (a : Word) : Byte := if s.eccOn p then s.eccByte a else s.byteAt a

theorem eccBytes_eq_map (s : State) : ∀ (n : Nat) (pa : Word),
    s.eccBytes pa n = (List.range n).map fun i => s.eccByte (pa + BitVec.ofNat 32 i) := by
  intro n
  induction n with
  | zero => exact fun pa => rfl
  | succ n ih =>
    intro pa
    rw [State.eccBytes, ih, List.range_succ_eq_map, List.map_cons, List.map_map]
    refine congrArg₂ _ (by simp) (List.map_congr_left fun i _ => congrArg s.eccByte ?_)
    bv_omega

theorem readBytes_eq_map (s : State) (pa : Word) (n : Nat) (p : Bool) :
    s.readBytes pa n p = (List.range n).map fun i => s.deliveredByte p (pa + BitVec.ofNat 32 i) := by
  unfold State.readBytes State.deliveredByte
  split
  · exact eccBytes_eq_map s n pa
  · exact bytesAt_eq_map s n pa

theorem deliveredByte_of_good {s : State} {a : Word} (h : s.eccAt (blockOf a) = .good) (p : Bool) :
    s.deliveredByte p a = s.byteAt a := by
  rw [State.deliveredByte, State.eccByte, h]
  exact ite_self _

theorem deliveredByte_of_checkBit {s : State} {a : Word} {y : BitVec 8} (h : s.eccAt (blockOf a) = .checkBit y) (p : Bool) :
    s.deliveredByte p a = s.byteAt a := by
  rw [State.deliveredByte, State.eccByte, h]
  exact ite_self _

theorem SameBus.deliveredByte {s t : State} (h : SameBus s t) (p : Bool) (a : Word) :
    t.deliveredByte p a = s.deliveredByte p a := by
  rw [State.deliveredByte, h.eccOn, h.eccByte, h.byteAt]
  rfl

theorem SameBus.readBytes {s t : State} (h : SameBus s t) (pa : Word) (n : Nat) (p : Bool) :
    t.readBytes pa n p = s.readBytes pa n p := by
  simp only [readBytes_eq_map, h.deliveredByte]

/-! ## Blocks -/

/-- The bytes of an access within one block. -/
theorem blockOf_of_blocksOf {pa : Word} {n b : Nat} (h : blocksOf pa n = [b]) {i : Nat} (hi : i < n) :
    (pa + BitVec.ofNat 32 i).toNat = b * 8 + (pa.toNat % 8 + i) ∧ pa.toNat % 8 + i < 8 := by
  have count : (pa.toNat % 8 + n + 7) / 8 = 1 := by
    simpa [blocksOf] using congrArg List.length h
  have first : pa.toNat / 8 % 2 ^ 29 = b := by
    rw [blocksOf, count] at h
    simpa [blockOf] using h
  have := pa.isLt
  rw [BitVec.toNat_add, BitVec.toNat_ofNat]
  omega

theorem blockOf_eq {a : Word} {b k : Nat} (h : a.toNat = b * 8 + k) (hk : k < 8) : blockOf a = b := by
  rw [blockOf]
  omega

/-- Delivering a block with a wrong data bit is reading it with the bit flipped back, when BCUCTL.SC = 1. -/
theorem deliveredByte_of_dataBit {s : State} (ok : s.MemOk) {p : Bool} (he : s.eccOn p = true) {a : Word} {b k : Nat}
    (ha : a.toNat = b * 8 + k) (hk : k < 8) {bit : BitVec 6} {y : BitVec 8} (h : s.eccAt b = .dataBit bit y) :
    s.deliveredByte p a = if s.bcu.bcuctl.getLsbD 2 then (s.flipBit b bit).byteAt a else s.byteAt a := by
  have hb := bit.isLt
  have place : BitVec.ofNat 32 (b * 8 + bit.toNat / 8) = a ↔ bit.toNat / 8 = a.toNat % 8 := by
    have := a.isLt
    rw [← BitVec.toNat_inj, BitVec.toNat_ofNat]
    omega
  rw [State.deliveredByte, if_pos he, State.eccByte, blockOf_eq ha hk, h, State.flipBit]
  dsimp only
  rw [byteAt_setByteAt ok]
  cases s.bcu.bcuctl.getLsbD 2 with
  | false => simp
  | true =>
    by_cases at_ : bit.toNat / 8 = a.toNat % 8
    · rw [if_pos (place.2 at_), place.2 at_]
      simp [at_]
    · rw [if_neg (mt place.1 at_)]
      simp [at_]

/-! ## The check of a read (62_platform R856) -/

section
variable {req : Word} {s : State} {b : Nat} {g l : List Nat} {y : BitVec 8}

theorem eccCheck_good (h : ∀ b ∈ l, s.eccAt b = .good) : eccCheck req l s = (true, s) := by
  induction l with
  | nil => rfl
  | cons b l ih =>
    rw [eccCheck, h b List.mem_cons_self]
    exact ih fun k hk => h k (List.mem_cons_of_mem b hk)

/-- A multi-bit error behind good blocks is logged and ends the check. -/
theorem eccCheck_multi (hg : ∀ b ∈ g, s.eccAt b = .good) (h : s.eccAt b = .multi y) :
    eccCheck req (g ++ b :: l) s = (false, s.logEcc true y req) := by
  induction g with
  | nil => rw [List.nil_append, eccCheck, h]
  | cons k g ih =>
    rw [List.cons_append, eccCheck, hg k List.mem_cons_self]
    exact ih fun j hj => hg j (List.mem_cons_of_mem k hj)

/-- One wrong bit, of the data or of the check bits. -/
def EccState.OneBit (e : EccState) (y : BitVec 8) : Prop := e = .checkBit y ∨ ∃ k, e = .dataBit k y

theorem eccCheck_oneBit (h : (s.eccAt b).OneBit y) (hl : ∀ b ∈ l, s.eccAt b = .good) :
    eccCheck req (b :: l) s = (true, (s.logEcc false y req).note 0x15) := by
  have kept : SameBus s ((s.logEcc false y req).note 0x15) := ((sameBus_withScratch s s.scratch).logEcc false y req).note 0x15
  have rest := eccCheck_good (req := req) (s := (s.logEcc false y req).note 0x15) fun k hk => (kept.eccAt k).trans (hl k hk)
  rw [eccCheck]
  obtain e | ⟨k, e⟩ := h <;> rw [e] <;> exact rest

end

end Sys2Proof.Machine
end

section
/-!
PROOFS. What a read or a write request answers that an abort or an ECC error meets, when no other master is to write before it
(62_platform R854, R856, R859, R872 to R874).
-/

namespace Sys2Proof.Machine

/-! ## Addresses of lines and their blocks -/

section
variable (pa : Word)

/-- Clearing the low `k` bits of an address. -/
theorem toNat_shifted (k : Nat) : ((pa >>> k) <<< k).toNat = pa.toNat / 2 ^ k * 2 ^ k := by
  have := Nat.div_mul_le_self pa.toNat (2 ^ k)
  rw [BitVec.toNat_shiftLeft, BitVec.toNat_ushiftRight, Nat.shiftRight_eq_div_pow, Nat.shiftLeft_eq,
    Nat.mod_eq_of_lt (this.trans_lt pa.isLt)]

theorem toNat_lineAddress : (pa &&& 0xFFFFFFE0).toNat = pa.toNat / 32 * 32 := by
  have e : pa &&& (0xFFFFFFE0 : Word) = (pa >>> 5) <<< 5 := by
    rw [BitVec.shiftLeft_ushiftRight]
    rfl
  rw [e]
  exact toNat_shifted pa 5

theorem toNat_pairAddress : (pa &&& 0xFFFFFFF8).toNat = pa.toNat / 8 * 8 := by
  have e : pa &&& (0xFFFFFFF8 : Word) = (pa >>> 3) <<< 3 := by
    rw [BitVec.shiftLeft_ushiftRight]
    rfl
  rw [e]
  exact toNat_shifted pa 3

theorem toNat_inLine {i : Nat} (h : i < 32) : ((pa &&& 0xFFFFFFE0) + BitVec.ofNat 32 i).toNat = pa.toNat / 32 * 32 + i := by
  have := pa.isLt
  rw [BitVec.toNat_add, BitVec.toNat_ofNat, toNat_lineAddress]
  omega

theorem blockOf_inLine {i : Nat} (h : i < 32) :
    blockOf ((pa &&& 0xFFFFFFE0) + BitVec.ofNat 32 i) = blockOf (pa &&& 0xFFFFFFE0) + i / 8 := by
  rw [blockOf, blockOf, toNat_inLine pa h, toNat_lineAddress]
  omega

theorem blocksOf_line : blocksOf (pa &&& 0xFFFFFFE0) 32
    = (List.range 4).map fun i => blockOf (pa &&& 0xFFFFFFE0) + i := by
  have := pa.isLt
  rw [blocksOf, blockOf, toNat_lineAddress, show (pa.toNat / 32 * 32 % 8 + 32 + 7) / 8 = 4 by omega]
  refine List.map_congr_left fun i hi => Nat.mod_eq_of_lt ?_
  have := List.mem_range.1 hi
  omega

variable (s : State)

/-- The data cycle of a line read that comes first: the requested pair of words with CWF = 1, else the lowest
(62_platform R872). -/
theorem firstCycle_lt (req : Word) (n : Nat) : s.firstCycle pa req n < 32 ∧ s.firstCycle pa req n % 8 = 0 := by
  unfold State.firstCycle
  split
  · omega
  · decide

theorem firstCycle_line : s.firstCycle (pa &&& 0xFFFFFFE0) (s.lineRequest pa) 32
    = (if s.cwfAt (pa &&& 0xFFFFFFE0) && s.bcu.bcumod.getLsbD 0 then pa.toNat % 32 / 8 else 0) * 8 := by
  have line := toNat_lineAddress pa
  have pair := toNat_pairAddress pa
  have := pa.isLt
  rw [State.firstCycle, State.lineRequest]
  cases s.cwfAt (pa &&& 0xFFFFFFE0) <;> cases s.bcu.bcumod.getLsbD 0
  · rfl
  · rfl
  · simp
  · simp only [decide_true, Bool.true_and, if_true, BitVec.toNat_sub]
    omega

/-- The blocks of a line in the order in which they arrive (62_platform R872). -/
theorem readBlocks_line (req : Word) :
    let line := pa &&& 0xFFFFFFE0
    let c := s.firstCycle line req 32 / 8
    s.readBlocks line req 32
      = [blockOf line + c % 4, blockOf line + (c + 1) % 4, blockOf line + (c + 2) % 4, blockOf line + (c + 3) % 4] := by
  intro line c
  have small : c < 4 := by
    have := (firstCycle_lt line s req 32).1
    omega
  rw [State.readBlocks, blocksOf_line]
  change List.rotateLeft _ c = _
  generalize blockOf line = b
  match c, small with
  | 0, _ => rfl
  | 1, _ => rfl
  | 2, _ => rfl
  | 3, _ => rfl

end

/-! ## Read requests -/

section
variable {s : State}

/-- The state in which a request is made. -/
theorem request_eq (alone : s.board.between = []) : ∃ z, s.othersWrite.assertLock.note 0x10 = s.withScratch z := by
  obtain ⟨z, hz⟩ := assertLock_eq s
  rw [othersWrite_of_none alone, hz]
  exact ⟨_, rfl⟩

variable {pa req : Word} {n : Nat} {p : Bool} (wide : (s.eccOn p && s.bus32) = false) (alone : s.board.between = [])
include wide alone

theorem busRead_aborted (h : s.busAborts false pa n = true) :
    ∃ z, busRead pa req n p s = abortedRead pa req n p (s.withScratch z) := by
  obtain ⟨z, hz⟩ := request_eq alone
  have bus := sameBus_withScratch s z
  refine ⟨z, ?_⟩
  rw [busRead, hz]
  dsimp only
  rw [bus.eccOn, bus.bus32, wide, if_neg Bool.false_ne_true, bus.busAborts, h, if_pos rfl]

theorem busRead_checked (h : s.busAborts false pa n = false) (he : s.eccOn p = true) :
    ∃ z, let r := eccCheck req (s.readBlocks pa req n) (s.withScratch z)
      busRead pa req n p s = .ok (if r.1 then .data (r.2.readBytes pa n p) else .multiBit) r.2 := by
  obtain ⟨z, hz⟩ := request_eq alone
  have bus := sameBus_withScratch s z
  refine ⟨z, ?_⟩
  rw [busRead, hz]
  dsimp only
  rw [bus.eccOn, bus.bus32, wide, if_neg Bool.false_ne_true, bus.busAborts, h, if_neg Bool.false_ne_true, he, if_pos rfl,
    bus.readBlocks]

/-- An aborted read is logged when what came before the abort was good or is not checked. -/
theorem busRead_aborted_logged (h : s.busAborts false pa n = true)
    (quiet : s.eccOn p = false ∨ ∀ b ∈ s.receivedBlocks pa req n, s.eccAt b = .good) :
    ∃ z, busRead pa req n p s = .ok .aborted ((s.withScratch z).logAbort false req) := by
  obtain ⟨z, hz⟩ := busRead_aborted (req := req) wide alone h
  have bus := sameBus_withScratch s z
  have checked : (if (s.withScratch z).eccOn p then eccCheck req ((s.withScratch z).receivedBlocks pa req n) (s.withScratch z)
      else (true, s.withScratch z)) = (true, s.withScratch z) := by
    rw [bus.eccOn, bus.receivedBlocks]
    obtain off | good := quiet
    · rw [off, if_neg Bool.false_ne_true]
    · rw [eccCheck_good fun b hb => (bus.eccAt b).trans (good b hb), ite_self]
  refine ⟨z, hz.trans ?_⟩
  rw [abortedRead, checked]
  rfl

/-- A single-bit error in the first block that came before an abort is logged before the abort is. -/
theorem busRead_aborted_oneBit (h : s.busAborts false pa n = true) (he : s.eccOn p = true) {b : Nat} {l : List Nat}
    {y : BitVec 8} (hb : s.receivedBlocks pa req n = b :: l) (hy : (s.eccAt b).OneBit y) (hl : ∀ k ∈ l, s.eccAt k = .good) :
    ∃ z, busRead pa req n p s = .ok .aborted ((((s.withScratch z).logEcc false y req).note 0x15).logAbort false req) := by
  obtain ⟨z, hz⟩ := busRead_aborted (req := req) wide alone h
  have bus := sameBus_withScratch s z
  refine ⟨z, hz.trans ?_⟩
  rw [abortedRead, bus.eccOn, he, if_pos rfl, bus.receivedBlocks, hb,
    eccCheck_oneBit (by rwa [bus.eccAt]) fun k hk => (bus.eccAt k).trans (hl k hk)]
  rfl

/-- A checked read of good blocks delivers memory's bytes. -/
theorem busRead_good (h : s.busAborts false pa n = false) (he : s.eccOn p = true)
    (good : ∀ b ∈ s.readBlocks pa req n, s.eccAt b = .good) :
    ∃ z, busRead pa req n p s = .ok (.data (s.readBytes pa n p)) (s.withScratch z) := by
  obtain ⟨z, hz⟩ := busRead_checked (req := req) wide alone h he
  have bus := sameBus_withScratch s z
  refine ⟨z, hz.trans ?_⟩
  rw [eccCheck_good fun b hb => (bus.eccAt b).trans (good b hb), bus.readBytes]
  rfl

/-- A checked read logs a single-bit error and delivers the bytes. -/
theorem busRead_oneBit (h : s.busAborts false pa n = false) (he : s.eccOn p = true) {b : Nat} {y : BitVec 8}
    (hb : s.readBlocks pa req n = [b]) (hy : (s.eccAt b).OneBit y) :
    ∃ z, busRead pa req n p s
      = .ok (.data (s.readBytes pa n p)) (((s.withScratch z).logEcc false y req).note 0x15) := by
  obtain ⟨z, hz⟩ := busRead_checked (req := req) wide alone h he
  have bus := sameBus_withScratch s z
  refine ⟨z, hz.trans ?_⟩
  rw [hb, eccCheck_oneBit (by rwa [bus.eccAt]) fun k hk => (List.not_mem_nil hk).elim]
  dsimp only
  rw [if_pos rfl, ((bus.logEcc false y req).note 0x15).readBytes]

end

/-- The blocks of a read that are checked: all, or those that came before the abort. -/
def State.checkedBlocks (s : State) (pa req : Word) (n : Nat) : List Nat :=
  if s.busAborts false pa n then s.receivedBlocks pa req n else s.readBlocks pa req n

theorem checkedBlocks_of_aborted {s : State} {pa : Word} {n : Nat} (h : s.busAborts false pa n = true) (req : Word) :
    s.checkedBlocks pa req n = s.receivedBlocks pa req n := if_pos h

theorem checkedBlocks_of_taken {s : State} {pa : Word} {n : Nat} (h : s.busAborts false pa n = false) (req : Word) :
    s.checkedBlocks pa req n = s.readBlocks pa req n := if_neg (by rw [h]; decide)

/-- A checked read delivers nothing after a multi-bit error, whatever the board does to the rest of it. -/
theorem busRead_multi {s : State} {pa req : Word} {n : Nat} {p : Bool} (wide : (s.eccOn p && s.bus32) = false)
    (alone : s.board.between = []) (he : s.eccOn p = true) {g l : List Nat} {b : Nat} {y : BitVec 8}
    (hb : s.checkedBlocks pa req n = g ++ b :: l) (hg : ∀ b ∈ g, s.eccAt b = .good) (hy : s.eccAt b = .multi y) :
    ∃ z, busRead pa req n p s = .ok .multiBit ((s.withScratch z).logEcc true y req) := by
  have failed (z : Scratch) : eccCheck req (g ++ b :: l) (s.withScratch z) = (false, (s.withScratch z).logEcc true y req) :=
    eccCheck_multi (fun k hk => ((sameBus_withScratch s z).eccAt k).trans (hg k hk)) (((sameBus_withScratch s z).eccAt b).trans hy)
  cases h : s.busAborts false pa n with
  | true =>
    obtain ⟨z, hz⟩ := busRead_aborted (req := req) wide alone h
    have bus := sameBus_withScratch s z
    refine ⟨z, hz.trans ?_⟩
    rw [abortedRead, bus.eccOn, he, if_pos rfl, bus.receivedBlocks, ← checkedBlocks_of_aborted h, hb, failed]
    rfl
  | false =>
    obtain ⟨z, hz⟩ := busRead_checked (req := req) wide alone h he
    refine ⟨z, hz.trans ?_⟩
    rw [← checkedBlocks_of_taken h, hb, failed]
    rfl

/-! ## The bytes of one block -/

section
variable {s : State} {pa : Word} {n b : Nat} (hb : blocksOf pa n = [b])
include hb

theorem readBlocks_one (req : Word) : s.readBlocks pa req n = [b] :=
  List.perm_singleton.1 (hb ▸ readBlocks_perm s pa req n)

/-- A read within a block, whose bytes are delivered as `f` says. -/
theorem readBytes_one {p : Bool} {f : Word → Byte}
    (h : ∀ (a : Word) (k : Nat), a.toNat = b * 8 + k → k < 8 → s.deliveredByte p a = f a) :
    s.readBytes pa n p = (List.range n).map fun i => f (pa + BitVec.ofNat 32 i) := by
  rw [readBytes_eq_map]
  refine List.map_congr_left fun i hi => ?_
  obtain ⟨at_, inside⟩ := blockOf_of_blocksOf hb (List.mem_range.1 hi)
  exact h _ _ at_ inside

theorem readBytes_good (h : s.eccAt b = .good) (p : Bool) : s.readBytes pa n p = s.bytesAt pa n := by
  rw [bytesAt_eq_map]
  exact readBytes_one hb fun a k ha hk => deliveredByte_of_good (by rw [blockOf_eq ha hk, h]) p

theorem readBytes_checkBit {y : BitVec 8} (h : s.eccAt b = .checkBit y) (p : Bool) : s.readBytes pa n p = s.bytesAt pa n := by
  rw [bytesAt_eq_map]
  exact readBytes_one hb fun a k ha hk => deliveredByte_of_checkBit (by rw [blockOf_eq ha hk, h]) p

/-- A wrong data bit is corrected when BCUCTL.SC = 1. -/
theorem readBytes_dataBit (ok : s.MemOk) {p : Bool} (he : s.eccOn p = true) {bit : BitVec 6} {y : BitVec 8}
    (h : s.eccAt b = .dataBit bit y) : s.readBytes pa n p
      = if s.bcu.bcuctl.getLsbD 2 then (s.flipBit b bit).bytesAt pa n else s.bytesAt pa n := by
  rw [readBytes_one hb fun a k ha hk => deliveredByte_of_dataBit ok he ha hk h]
  split <;> rw [bytesAt_eq_map]

end

theorem busRead_multi_one {s : State} {pa req : Word} {n : Nat} {p : Bool} (wide : (s.eccOn p && s.bus32) = false)
    (alone : s.board.between = []) (he : s.eccOn p = true) (h : s.busAborts false pa n = false) {b : Nat}
    (hb : blocksOf pa n = [b]) {y : BitVec 8} (hy : s.eccAt b = .multi y) :
    ∃ z, busRead pa req n p s = .ok .multiBit ((s.withScratch z).logEcc true y req) :=
  busRead_multi (g := []) wide alone he ((checkedBlocks_of_taken h req).trans (readBlocks_one hb req))
    (fun _ hk => (List.not_mem_nil hk).elim) hy

/-! ## Table walks and loads -/

section
variable {s t : State} {pa : Word} {y : BitVec 8}

theorem readDescriptor_multi (h : busRead pa pa 4 (s.cp15.auxControl.getLsbD 1) s = .ok .multiBit t)
    (code : FaultCode) (mva : Word) (dom : BitVec 4) :
    readDescriptor pa code mva dom s = .abort { code := code, mva := mva, domain := dom, ecc := true } t := by
  rw [readDescriptor, h]
  rfl

/-- A load that goes to memory and brings nothing back: an imprecise abort and free bytes. -/
theorem dataRead_failed {x : Xlat} {mva : Word} {n : Nat} (ha : attributeFault x s = none) (hf : s.findData mva = none)
    (hc : s.cacheable x = false) : ∃ z, ∀ r t, busRead x.pa x.pa n x.p (s.withScratch z) = .ok r t → r.bytes = none →
      ∃ u ds, dataRead x mva n s = .ok ds u ∧ u.mem = t.mem ∧ u.bcu = t.bcu ∧ u.pendingAbort = some .external := by
  obtain ⟨z, hz⟩ := noteAccess_eq s x
  refine ⟨((s.withScratch z).note 0x0B).scratch, fun r t hr empty => 
    ⟨(t.pend .external).draw ((n + 3) / 4), freeBytes t.freeCount n, ?_, rfl, rfl, ?_⟩⟩
  · have missed : (s.withScratch z).findData mva = none := hf
    have uncached : (s.withScratch z).cacheable x = false := hc
    unfold dataRead
    rw [ha]
    dsimp only
    change _ = s.withScratch z at hz
    rw [hz, missed]
    dsimp only
    rw [uncached, if_neg Bool.false_ne_true]
    refine (congrArg (Acc.bind · _) hr).trans ?_
    show (match r.bytes with
      | some bs => Acc.ok bs t
      | none => freeLoad n (t.pend .external)) = _
    rw [empty]
    rfl
  · exact congrArg some (ite_self _)

/-- A data load that meets a multi-bit error: free bytes and an imprecise abort (62_platform R856). -/
theorem dataRead_multi {x : Xlat} {n b : Nat} (wide : (s.eccOn x.p && s.bus32) = false) (alone : s.board.between = [])
    (he : s.eccOn x.p = true) (h : s.busAborts false x.pa n = false) (hb : blocksOf x.pa n = [b]) (hy : s.eccAt b = .multi y)
    {mva : Word} (ha : attributeFault x s = none) (hf : s.findData mva = none) (hc : s.cacheable x = false) :
    ∃ t ds, dataRead x mva n s = .ok ds t ∧ t.mem = s.mem ∧ t.pendingAbort = some .external
      ∧ s.bcu.Logged false 0b01 (x.pa &&& 0xFFFFFFF8) (some y) t.bcu := by
  obtain ⟨z1, failed⟩ := dataRead_failed (n := n) ha hf hc
  obtain ⟨z, hz⟩ := busRead_multi_one (s := s.withScratch z1) (req := x.pa) wide alone he h hb hy
  obtain ⟨t, ds, ht, mem, log, pends⟩ := failed _ _ hz rfl
  exact ⟨t, ds, ht, mem.trans ((sameBus_withScratch s z).logEcc ..).mem, pends,
    log ▸ logEcc_logged (s.withScratch z) y x.pa true⟩

end

/-! ## Write requests -/

section
variable {s : State}

theorem pendingAbort_abortData (s : State) (w : Bool) (req : Word) : (s.abortData w req).pendingAbort = some .external :=
  congrArg some (ite_self _)

theorem SameBus.abortData {s t : State} (h : SameBus s t) (w : Bool) (req : Word) : SameBus s (t.abortData w req) :=
  { h.logAbort w req with }

theorem SameBus.rmwRead {s t : State} (h : SameBus s t) (blk : Nat) : SameBus s (rmwRead blk t).2 := by
  unfold Machine.rmwRead
  dsimp only
  split
  · exact h.abortData ..
  · split
    · exact h
    · exact (h.logEcc ..).note _
    · exact (h.logEcc ..).note _
    · exact { h.logEcc true _ _ with }

/-- A read-modify-write whose unlocking write is aborted leaves memory and its check bits (62_platform R874). -/
theorem rmwWrite_aborted {pa : Word} (bs : List Byte) (h : s.busAborts true (BitVec.ofNat 32 (blockOf pa * 8)) 8 = true) :
    SameBus s (rmwWrite pa bs s) ∧ (rmwWrite pa bs s).pendingAbort = some .external := by
  have bus : SameBus s (Machine.rmwRead (blockOf pa) (s.note 0x16)).2 := ((sameBus_withScratch s s.scratch).note _).rmwRead _
  rw [rmwWrite, bus.busAborts, h, if_pos rfl]
  exact ⟨bus.abortData .., pendingAbort_abortData ..⟩

/-- The number of bytes of a data cycle. -/
def State.busWidth (s : State) : Nat := if s.bus32 then 4 else 8

theorem takenBytes_succ (s : State) (write : Bool) (pa : Word) (n fuel k : Nat) :
    s.takenBytes write pa n (fuel + 1) k
      = if n ≤ k then n
        else if s.busAborts write (pa + BitVec.ofNat 32 k) (min s.busWidth (n - k)) then k
        else s.takenBytes write pa n fuel (k + s.busWidth) := rfl

/-- No byte is taken of an aborted data cycle or after it. -/
theorem takenBytes_le_aborted {write : Bool} {pa : Word} {n j : Nat} (hj : j < n)
    (h : s.busAborts write (pa + BitVec.ofNat 32 j) (min s.busWidth (n - j)) = true) :
    ∀ fuel k m, k + m * s.busWidth = j → s.takenBytes write pa n fuel k ≤ j := by
  intro fuel
  induction fuel with
  | zero => exact fun k m hk => (Nat.min_le_left k n).trans (by omega)
  | succ fuel ih =>
    intro k m hk
    rw [takenBytes_succ, if_neg (by omega)]
    split
    · omega
    · rename_i going
      cases m with
      | zero =>
        rw [Nat.zero_mul, Nat.add_zero] at hk
        rw [hk] at going
        exact absurd h going
      | succ m => exact ih _ m (by rw [← hk, Nat.succ_mul]; omega)

variable {pa : Word} {p : Bool} {bs : List Byte}

theorem writeSpan_pos (u : Bool) (pa : Word) (h : bs ≠ []) : 0 < (writeSpan u pa bs.length).2 := by
  have := List.length_pos_iff.2 h
  cases u with
  | false => exact this
  | true =>
    show 0 < (pa.toNat % 4 + bs.length + 3) / 4 * 4
    omega

/-- The request of a store within a word: the word out of the write buffer, else the bytes (62_platform R870, R873). -/
theorem writeSpan_inWord {k : Nat} (hk : 0 < k) (h : pa.toNat % 4 + k ≤ 4) :
    writeSpan true pa k = (pa &&& 0xFFFFFFFC, 4) ∧ writeSpan false pa k = (pa, k) := by
  refine ⟨congrArg (Prod.mk _) ?_, rfl⟩
  show (pa.toNat % 4 + k + 3) / 4 * 4 = 4
  omega

variable (alone : s.board.between = [])
include alone

/-- A write without ECC whose first data cycle is aborted stores nothing (62_platform R854, R874). -/
theorem busWrite_aborted (u : Bool) (off : s.eccOn p = false) (some_ : bs ≠ [])
    (h : s.busAborts true (writeSpan u pa bs.length).1 (min s.busWidth (writeSpan u pa bs.length).2) = true) :
    busWrite u pa bs p s = .ok () ((s.note 0x10).abortData true (writeSpan u pa bs.length).1) := by
  have pos := writeSpan_pos u pa some_
  have nothing : s.takenBytes true (writeSpan u pa bs.length).1 (writeSpan u pa bs.length).2 (writeSpan u pa bs.length).2 0 = 0 := by
    refine Nat.le_zero.1 (takenBytes_le_aborted pos ?_ _ 0 0 (by omega))
    rwa [BitVec.add_zero, Nat.sub_zero]
  have bus : SameBus s (s.note 0x10) := (sameBus_withScratch s s.scratch).note 0x10
  unfold busWrite
  rw [othersWrite_of_none alone]
  dsimp only
  rw [bus.eccOn, off, Bool.false_and, Bool.false_and, Bool.false_and, if_neg Bool.false_ne_true, if_neg Bool.false_ne_true,
    bus.takenBytes, nothing, Nat.zero_sub, Nat.min_zero, if_pos rfl, if_pos pos]

theorem busWrite_rmw (u : Bool) (wide : (s.eccOn p && s.bus32) = false) (he : s.eccOn p = true)
    (dwe : s.bcu.ectst.getLsbD 31 = false) (short : bs.length < 8) :
    busWrite u pa bs p s = .ok () (rmwWrite pa bs (s.note 0x10)) := by
  have bus : SameBus s (s.note 0x10) := (sameBus_withScratch s s.scratch).note 0x10
  have ectst : (s.note 0x10).bcu.ectst.getLsbD 31 = false := dwe
  unfold busWrite
  rw [othersWrite_of_none alone]
  dsimp only
  rw [bus.eccOn, bus.bus32, wide, if_neg Bool.false_ne_true, he, ectst, decide_eq_true short]
  rfl

end

end Sys2Proof.Machine
end

section
/-!
PROOFS. The line read of a fetch that an abort or a multi-bit ECC error cuts short (21_mmu R303; 62_platform R856, R872, R874;
log 59), and O58.
-/

namespace Sys2Proof.Machine

/-! ## Which words of a line arrive (62_platform R872, R874) -/

section
variable {s : State}

/-- The board does not abort a part of what it does not abort. -/
theorem busAborts_within {write : Bool} {pa a : Word} {n m : Nat} (h : s.busAborts write pa n = false)
    (first : pa.toNat ≤ a.toNat) (last : a.toNat + m ≤ pa.toNat + n) : s.busAborts write a m = false := by
  rw [State.busAborts, List.any_eq_false] at h ⊢
  intro r hr meets
  rw [Bool.and_eq_true, AbortRegion.meets, Bool.and_eq_true, decide_eq_true_eq, decide_eq_true_eq] at meets
  obtain ⟨dir, above, below⟩ := meets
  refine h r hr ?_
  rw [Bool.and_eq_true, AbortRegion.meets, Bool.and_eq_true, decide_eq_true_eq, decide_eq_true_eq]
  exact ⟨dir, by omega, by omega⟩

theorem busWidth_cases (s : State) : s.busWidth = 4 ∨ s.busWidth = 8 := by
  unfold State.busWidth
  cases s.bus32
  · exact .inr rfl
  · exact .inl rfl

theorem busWidth_pos (s : State) : 0 < s.busWidth := by
  obtain width | width := busWidth_cases s <;> rw [width] <;> decide

theorem takenBytes_le (write : Bool) (pa : Word) (n : Nat) : ∀ fuel k, s.takenBytes write pa n fuel k ≤ n := by
  intro fuel
  induction fuel with
  | zero => exact fun k => Nat.min_le_right k n
  | succ fuel ih =>
    intro k
    rw [takenBytes_succ]
    split
    · exact Nat.le_refl n
    · split
      · omega
      · exact ih _

/-- Bytes are taken up to the first data cycle that may be aborted. -/
theorem le_takenBytes {write : Bool} {pa : Word} {n : Nat} : ∀ fuel k m, m ≤ fuel →
    (∀ i < m, k + i * s.busWidth < n → s.busAborts write (pa + BitVec.ofNat 32 (k + i * s.busWidth))
      (min s.busWidth (n - (k + i * s.busWidth))) = false) →
    min (k + m * s.busWidth) n ≤ s.takenBytes write pa n fuel k := by
  intro fuel
  induction fuel with
  | zero =>
    intro k m hm _
    obtain rfl : m = 0 := by omega
    rw [Nat.zero_mul]
    exact Nat.le_refl _
  | succ fuel ih =>
    intro k m hm good
    rw [takenBytes_succ]
    split
    · exact Nat.min_le_right ..
    · rename_i inside
      cases m with
      | zero =>
        split
        · omega
        · have rest := ih (k + s.busWidth) 0 (by omega) fun i hi => (Nat.not_lt_zero i hi).elim
          omega
      | succ m =>
        have now := good 0 (by omega) (by omega)
        rw [Nat.zero_mul, Nat.add_zero] at now
        rw [now, if_neg Bool.false_ne_true]
        have step (i : Nat) : k + (i + 1) * s.busWidth = k + s.busWidth + i * s.busWidth := by
          rw [Nat.succ_mul]
          omega
        rw [step]
        refine ih _ m (by omega) fun i hi hin => ?_
        have := good (i + 1) (by omega) (by rwa [step])
        rwa [step] at this

/-- All bytes are taken of a request that is not aborted. -/
theorem takenBytes_eq {pa : Word} {n off : Nat} {line : Word} (h : s.busAborts false line 32 = false)
    (base : pa.toNat = line.toNat + off) (inside : off + n ≤ 32) (top : line.toNat + 32 ≤ 2 ^ 32) (fuel : Nat) (enough : n ≤ fuel) :
    s.takenBytes false pa n fuel 0 = n := by
  refine Nat.le_antisymm (takenBytes_le ..) ?_
  have pos := busWidth_pos s
  have all := le_takenBytes (s := s) (write := false) (pa := pa) (n := n) fuel 0 fuel (Nat.le_refl _) fun i hi hin => by
    have at_ : (pa + BitVec.ofNat 32 (0 + i * s.busWidth)).toNat = pa.toNat + i * s.busWidth := by
      rw [BitVec.toNat_add, BitVec.toNat_ofNat]
      omega
    exact busAborts_within h (by omega) (by omega)
  have : fuel ≤ fuel * s.busWidth := Nat.le_mul_of_pos_right fuel pos
  omega

variable (pa : Word)

/-- The top of a line is an address of the bus. -/
theorem lineAddress_top : (pa &&& 0xFFFFFFE0).toNat + 32 ≤ 2 ^ 32 := by
  have := pa.isLt
  rw [toNat_lineAddress]
  omega

theorem arrivedBytes_all (h : s.busAborts false (pa &&& 0xFFFFFFE0) 32 = false) (req : Word) :
    s.arrivedBytes (pa &&& 0xFFFFFFE0) req 32 = 32 := by
  have small := (firstCycle_lt (pa &&& 0xFFFFFFE0) s req 32).1
  have top := lineAddress_top pa
  rw [State.arrivedBytes]
  generalize s.firstCycle (pa &&& 0xFFFFFFE0) req 32 = c at small
  have upper : s.takenBytes false ((pa &&& 0xFFFFFFE0) + BitVec.ofNat 32 c) (32 - c) 32 0 = 32 - c :=
    takenBytes_eq (off := c) h (by rw [toNat_inLine pa small, toNat_lineAddress]) (by omega) top 32 (by omega)
  have lower : s.takenBytes false (pa &&& 0xFFFFFFE0) c 32 0 = c :=
    takenBytes_eq (off := 0) h rfl (by omega) top 32 (by omega)
  rw [upper, lower, if_neg (Nat.lt_irrefl _)]
  omega

/-- Without CWF the bytes of a line arrive from the lowest up. -/
theorem arrivedBytes_rising {line : Word} (h : s.cwfAt line = false) (req : Word) :
    s.arrivedBytes line req 32 = s.takenBytes false line 32 32 0 := by
  have zero : s.firstCycle line req 32 = 0 := by
    rw [State.firstCycle, h, Bool.and_false]
    rfl
  rw [State.arrivedBytes, zero]
  show (if s.takenBytes false (line + 0#32) 32 32 0 < 32 then s.takenBytes false (line + 0#32) 32 32 0
    else s.takenBytes false (line + 0#32) 32 32 0 + 0) = _
  rw [BitVec.add_zero, Nat.add_zero, ite_self]

/-! ## The words that a line read delivers -/

/-- How many bytes of a line arrive before an abort and before a block with a multi-bit error. -/
def State.goodBytes (s : State) (pa : Word) (p : Bool) : Nat :=
  let line := pa &&& 0xFFFFFFE0
  let req := s.lineRequest pa
  if s.eccOn p then
    min (s.arrivedBytes line req 32) (8 * ((s.readBlocks line req 32).takeWhile fun b => (s.eccAt b).delivered).length)
  else s.arrivedBytes line req 32

theorem goodWords_eq (s : State) (p : Bool) : s.goodWords pa p
    = ((1#8 <<< (s.goodBytes pa p / 4)) - 1).rotateLeft
        (s.firstCycle (pa &&& 0xFFFFFFE0) (s.lineRequest pa) 32 / 4) := rfl

theorem arrivedBytes_le (s : State) (req : Word) : s.arrivedBytes pa req 32 ≤ 32 := by
  have small := (firstCycle_lt pa s req 32).1
  rw [State.arrivedBytes]
  generalize s.firstCycle pa req 32 = c at small
  have upper := takenBytes_le (s := s) false (pa + BitVec.ofNat 32 c) (32 - c) 32 0
  have lower := takenBytes_le (s := s) false pa c 32 0
  split <;> omega

theorem goodBytes_le (s : State) (p : Bool) : s.goodBytes pa p ≤ 32 := by
  have := arrivedBytes_le (pa &&& 0xFFFFFFE0) s (s.lineRequest pa)
  unfold State.goodBytes
  dsimp only
  split <;> omega

theorem getLsbD_rotatedOnes : ∀ m < 9, ∀ c < 8, ∀ i < 8,
    (((1#8 <<< m) - 1).rotateLeft c).getLsbD i = decide ((i + 8 - c) % 8 < m) := by decide

/-- The words delivered are those from the first data cycle's on, around the line. -/
theorem getLsbD_goodWords (s : State) (p : Bool) {i : Nat} (hi : i < 8) : (s.goodWords pa p).getLsbD i
    = decide ((i + 8 - s.firstCycle (pa &&& 0xFFFFFFE0) (s.lineRequest pa) 32 / 4) % 8 < s.goodBytes pa p / 4) := by
  have small := (firstCycle_lt (pa &&& 0xFFFFFFE0) s (s.lineRequest pa) 32).1
  have few := goodBytes_le pa s p
  rw [goodWords_eq]
  exact getLsbD_rotatedOnes _ (by omega) _ (by omega) i hi

end

/-! ## The instruction at the pc -/

section
variable {s t : State} {x : Xlat} {a : Word}

theorem find_fill (f : FetchBufs) (a : Word) (d : Vector Byte 32) {valid : BitVec 8}
    (h : valid.getLsbD (offsetOf a / 4) = true) : ((f.fill a d valid).find a).isSome = true := by
  unfold FetchBufs.fill FetchBufs.find FetchBuf.hits
  cases f.next <;> simp [h]
  split <;> rfl

theorem isize_cases (s : State) : s.isize.toNat = 2 ∨ s.isize.toNat = 4 := by
  unfold State.isize
  cases s.thumb
  · exact .inr rfl
  · exact .inl rfl

/-- An instruction at an aligned address lies within a line, and within a block of it. -/
theorem instr_inBlock (ha : a.toNat % s.isize.toNat = 0) {i : Nat} (hi : i < s.isize.toNat) :
    offsetOf a + i < 32 ∧ (offsetOf a + i) / 8 = offsetOf a / 8 := by
  unfold offsetOf
  obtain size | size := isize_cases s <;> rw [size] at ha hi <;> omega

theorem lineBytes_lineOfBytes {bs : List Byte} {off n : Nat} (h : off + n ≤ 32) :
    lineBytes (lineOfBytes bs) off n = (List.range n).map fun i => bs.getD (off + i) 0 := by
  refine List.map_congr_left fun i hi => ?_
  have := List.mem_range.1 hi
  simp [lineOfBytes, Vector.getD, show off + i < 32 by omega]

theorem getD_readBytes (s : State) (pa : Word) {n i : Nat} (p : Bool) (h : i < n) :
    (s.readBytes pa n p).getD i 0 = s.deliveredByte p (pa + BitVec.ofNat 32 i) := by
  rw [readBytes_eq_map, List.getD_eq_getElem _ _ (by simpa using h)]
  simp

/-- The bytes of the instruction in a line as it was read. -/
theorem lineBytes_readLine (ha : a.toNat % s.isize.toNat = 0) {p : Bool} {line : Word}
    (plain : ∀ i < s.isize.toNat, s.deliveredByte p (line + BitVec.ofNat 32 (offsetOf a + i))
      = s.byteAt (line + BitVec.ofNat 32 (offsetOf a + i))) :
    lineBytes (lineOfBytes (s.readBytes line 32 p)) (offsetOf a) s.isize.toNat
      = s.bytesAt (line + BitVec.ofNat 32 (offsetOf a)) s.isize.toNat := by
  have inside : offsetOf a + s.isize.toNat ≤ 32 := by
    unfold offsetOf
    obtain size | size := isize_cases s <;> rw [size] at ha ⊢ <;> omega
  rw [lineBytes_lineOfBytes inside, bytesAt_eq_map]
  refine List.map_congr_left fun i hi => ?_
  have := List.mem_range.1 hi
  rw [getD_readBytes s line p (by omega), plain i this, BitVec.add_assoc, ← BitVec.ofNat_add]

/-- A fetch buffer takes the words that came. -/
def State.afterCutLine (s : State) (x : Xlat) (a : Word) : State :=
  { s with fetchBufs := s.fetchBufs.fill a (lineOfBytes (s.readBytes (x.pa &&& 0xFFFFFFE0) 32 x.p)) (s.goodWords x.pa x.p) }

theorem fetchPartly_eq (s : State) (x : Xlat) (a : Word) : fetchPartly x a s
    = if (s.goodWords x.pa x.p).getLsbD (offsetOf a / 4) then
        .ok ((s.afterCutLine x a).instrOf (lineOfBytes (s.readBytes (x.pa &&& 0xFFFFFFE0) 32 x.p)) a) (s.afterCutLine x a)
      else .abort { code := .external, mva := a, domain := 0 } (s.afterCutLine x a) := rfl

variable (bus : SameBus s t)
include bus

/-- The word at the pc came: the instruction runs, its line in a fetch buffer only. -/
theorem fetchPartly_runs (ha : a.toNat % s.isize.toNat = 0)
    (came : (s.goodWords x.pa x.p).getLsbD (offsetOf a / 4) = true)
    (plain : ∀ i < s.isize.toNat, s.deliveredByte x.p ((x.pa &&& 0xFFFFFFE0) + BitVec.ofNat 32 (offsetOf a + i))
      = s.byteAt ((x.pa &&& 0xFFFFFFE0) + BitVec.ofNat 32 (offsetOf a + i))) :
    ∃ u, fetchPartly x a t
        = .ok (assemble s.bigEndian (s.bytesAt ((x.pa &&& 0xFFFFFFE0) + BitVec.ofNat 32 (offsetOf a)) s.isize.toNat)) u
      ∧ u.mem = s.mem ∧ u.icache = s.icache ∧ (u.fetchBufs.find a).isSome = true ∧ u.bcu = t.bcu := by
  have size : t.isize = s.isize := by rw [State.isize, State.isize, State.thumb, State.thumb, bus.cpsr]
  have order : t.bigEndian = s.bigEndian := by rw [State.bigEndian, State.bigEndian, bus.cp15]
  refine ⟨t.afterCutLine x a, ?_, bus.mem, bus.icache, find_fill _ _ _ (by rwa [bus.goodWords]), rfl⟩
  rw [fetchPartly_eq, if_pos (by rwa [bus.goodWords]), ← lineBytes_readLine ha plain, ← bus.readBytes, ← size, ← order]
  rfl

/-- The word at the pc did not come: a prefetch abort. -/
theorem fetchPartly_aborts (missing : (s.goodWords x.pa x.p).getLsbD (offsetOf a / 4) = false) :
    ∃ u, fetchPartly x a t = .abort { code := .external, mva := a, domain := 0 } u
      ∧ u.mem = s.mem ∧ u.icache = s.icache ∧ u.bcu = t.bcu := by
  refine ⟨t.afterCutLine x a, ?_, bus.mem, bus.icache, rfl⟩
  rw [fetchPartly_eq, if_neg (by rw [bus.goodWords, missing]; decide)]

end

/-! ## Fetches whose line read is cut short -/

section
variable {s t : State} {x : Xlat} {a : Word}

theorem fetchMiss_cut {r : BusReply} (h : busRead (x.pa &&& 0xFFFFFFE0) (s.lineRequest x.pa) 32 x.p (s.note 0x00) = .ok r t)
    (empty : r.bytes = none) : fetchMiss x a s = fetchPartly x a t := by
  refine (congrArg (Acc.bind · _) h).trans ?_
  cases r with
  | data bs => nomatch empty
  | aborted => rfl
  | multiBit => rfl

/-- The word at the pc is delivered if it came before the data cycle that was aborted. -/
theorem goodWords_rising (off : s.eccOn x.p = false) (rising : s.cwfAt (x.pa &&& 0xFFFFFFE0) = false) :
    (s.goodWords x.pa x.p).getLsbD (offsetOf a / 4)
      = decide (offsetOf a / 4 < s.takenBytes false (x.pa &&& 0xFFFFFFE0) 32 32 0 / 4) := by
  have small : offsetOf a < 32 := Nat.mod_lt _ (by decide)
  have good : s.goodBytes x.pa x.p = s.takenBytes false (x.pa &&& 0xFFFFFFE0) 32 32 0 := by
    unfold State.goodBytes
    rw [off, if_neg Bool.false_ne_true]
    exact arrivedBytes_rising rising _
  have zero : s.firstCycle (x.pa &&& 0xFFFFFFE0) (s.lineRequest x.pa) 32 = 0 := by
    rw [firstCycle_line, rising]
    rfl
  rw [getLsbD_goodWords x.pa s x.p (by omega), good, zero,
    show (offsetOf a / 4 + 8 - 0 / 4) % 8 = offsetOf a / 4 by omega]

/-- After a multi-bit error in the first block of a line no word is delivered. -/
theorem goodWords_firstBlock (he : s.eccOn x.p = true) {b : Nat} {l : List Nat} {y : BitVec 8}
    (hb : s.readBlocks (x.pa &&& 0xFFFFFFE0) (s.lineRequest x.pa) 32 = b :: l) (hy : s.eccAt b = .multi y) :
    (s.goodWords x.pa x.p).getLsbD (offsetOf a / 4) = false := by
  have small : offsetOf a < 32 := Nat.mod_lt _ (by decide)
  have nothing : s.goodBytes x.pa x.p = 0 := by
    unfold State.goodBytes
    dsimp only
    rw [he, if_pos rfl, hb]
    simp [List.takeWhile, hy, EccState.delivered]
  rw [getLsbD_goodWords x.pa s x.p (by omega), nothing]
  exact decide_eq_false (Nat.not_lt_zero _)

/-- After a multi-bit error in the second block of a line only the first block's words are delivered. -/
theorem goodWords_secondBlock (he : s.eccOn x.p = true) (taken : s.busAborts false (x.pa &&& 0xFFFFFFE0) 32 = false)
    {b0 b1 : Nat} {l : List Nat} {y : BitVec 8}
    (hb : s.readBlocks (x.pa &&& 0xFFFFFFE0) (s.lineRequest x.pa) 32 = b0 :: b1 :: l) (h0 : s.eccAt b0 = .good)
    (h1 : s.eccAt b1 = .multi y) : (s.goodWords x.pa x.p).getLsbD (offsetOf a / 4)
      = decide (blockOf ((x.pa &&& 0xFFFFFFE0) + BitVec.ofNat 32 (offsetOf a)) = b0) := by
  have small : offsetOf a < 32 := Nat.mod_lt _ (by decide)
  have good : s.goodBytes x.pa x.p = 8 := by
    unfold State.goodBytes
    dsimp only
    rw [he, if_pos rfl, arrivedBytes_all x.pa taken, hb]
    simp [List.takeWhile, h0, h1, EccState.delivered]
  obtain ⟨few, aligned⟩ := firstCycle_lt (x.pa &&& 0xFFFFFFE0) s (s.lineRequest x.pa) 32
  have first : b0 = blockOf (x.pa &&& 0xFFFFFFE0) + s.firstCycle (x.pa &&& 0xFFFFFFE0) (s.lineRequest x.pa) 32 / 8 % 4 :=
    (List.cons.inj (hb.symm.trans (readBlocks_line x.pa s _))).1
  rw [getLsbD_goodWords x.pa s x.p (by omega), good, blockOf_inLine x.pa small, first]
  generalize s.firstCycle (x.pa &&& 0xFFFFFFE0) (s.lineRequest x.pa) 32 = c at few aligned
  congr 1
  refine propext ⟨fun h => ?_, fun h => ?_⟩ <;> omega

end

/-! ## Fetches, a clause of R854 and R856 each -/

section
variable {s : State} {x : Xlat} (wide : (s.eccOn x.p && s.bus32) = false) (alone : s.board.between = []) (a : Word)
include wide alone

theorem fetchMiss_aborted (off : s.eccOn x.p = false) (h : s.busAborts false (x.pa &&& 0xFFFFFFE0) 32 = true) :
    ∃ z, fetchMiss x a s = fetchPartly x a ((s.withScratch z).logAbort false (s.lineRequest x.pa)) := by
  obtain ⟨z, hz⟩ := busRead_aborted_logged (s := s.note 0x00) (req := s.lineRequest x.pa) wide alone h (.inl off)
  exact ⟨z, fetchMiss_cut hz rfl⟩

theorem fetchMiss_multi (he : s.eccOn x.p = true) (h : s.busAborts false (x.pa &&& 0xFFFFFFE0) 32 = false)
    {g l : List Nat} {b : Nat} {y : BitVec 8} (hb : s.readBlocks (x.pa &&& 0xFFFFFFE0) (s.lineRequest x.pa) 32 = g ++ b :: l)
    (hg : ∀ b ∈ g, s.eccAt b = .good) (hy : s.eccAt b = .multi y) :
    ∃ z, fetchMiss x a s = fetchPartly x a ((s.withScratch z).logEcc true y (s.lineRequest x.pa)) := by
  obtain ⟨z, hz⟩ := busRead_multi (s := s.note 0x00) wide alone he ((checkedBlocks_of_taken h _).trans hb) hg hy
  exact ⟨z, fetchMiss_cut hz rfl⟩

end

section
variable {s : State} {x : Xlat} {a : Word} {y : BitVec 8}

/-- The word at the pc came before the aborted data cycle. -/
theorem came_of_taken (off : s.eccOn x.p = false) (rising : s.cwfAt (x.pa &&& 0xFFFFFFE0) = false)
    (taken : s.busAborts false (x.pa &&& 0xFFFFFFE0) ((offsetOf a / s.busWidth + 1) * s.busWidth) = false) :
    (s.goodWords x.pa x.p).getLsbD (offsetOf a / 4) = true := by
  have small : offsetOf a < 32 := Nat.mod_lt _ (by decide)
  have upto := le_takenBytes (s := s) (write := false) (pa := x.pa &&& 0xFFFFFFE0) (n := 32) 32 0 (offsetOf a / s.busWidth + 1)
    (by have := Nat.div_le_self (offsetOf a) s.busWidth; omega) fun i hi hin => by
      have last : (i + 1) * s.busWidth ≤ (offsetOf a / s.busWidth + 1) * s.busWidth := Nat.mul_le_mul_right _ hi
      rw [Nat.succ_mul] at last
      refine busAborts_within taken ?_ ?_ <;> rw [toNat_inLine x.pa (by omega), toNat_lineAddress] <;> omega
  have here := Nat.lt_mul_of_div_lt (Nat.lt_succ_self (offsetOf a / s.busWidth)) (busWidth_pos s)
  rw [Nat.succ_eq_add_one] at here
  rw [goodWords_rising off rising, decide_eq_true_eq]
  obtain width | width := busWidth_cases s <;> rw [width] at upto here <;> omega

/-- The data cycles of a line, up to the one of an instruction. -/
theorem cycle_inLine {k : Nat} (hk : k * s.busWidth ≤ offsetOf a) : k * s.busWidth + s.busWidth ≤ 32 := by
  have small : offsetOf a < 32 := Nat.mod_lt _ (by decide)
  obtain width | width := busWidth_cases s <;> rw [width] at hk ⊢ <;> omega

/-- A data cycle at or before the word at the pc was aborted. -/
theorem missing_of_aborted (off : s.eccOn x.p = false) (rising : s.cwfAt (x.pa &&& 0xFFFFFFE0) = false) {k : Nat}
    (hk : k * s.busWidth ≤ offsetOf a)
    (h : s.busAborts false ((x.pa &&& 0xFFFFFFE0) + BitVec.ofNat 32 (k * s.busWidth)) s.busWidth = true) :
    (s.goodWords x.pa x.p).getLsbD (offsetOf a / 4) = false := by
  have inside := cycle_inLine hk
  have pos := busWidth_pos s
  have upto := takenBytes_le_aborted (s := s) (write := false) (pa := x.pa &&& 0xFFFFFFE0) (n := 32) (by omega)
    (by rwa [Nat.min_eq_left (by omega)]) 32 0 k (Nat.zero_add _)
  rw [goodWords_rising off rising, decide_eq_false_iff_not]
  omega

/-- A line with an aborted data cycle is aborted. -/
theorem line_aborted {k : Nat} (hk : k * s.busWidth ≤ offsetOf a)
    (h : s.busAborts false ((x.pa &&& 0xFFFFFFE0) + BitVec.ofNat 32 (k * s.busWidth)) s.busWidth = true) :
    s.busAborts false (x.pa &&& 0xFFFFFFE0) 32 = true := by
  have inside := cycle_inLine hk
  have pos := busWidth_pos s
  refine Bool.not_eq_false _ ▸ fun taken => ?_
  have := busAborts_within taken (a := (x.pa &&& 0xFFFFFFE0) + BitVec.ofNat 32 (k * s.busWidth)) (m := s.busWidth)
    (by rw [toNat_inLine x.pa (by omega), toNat_lineAddress]; omega)
    (by rw [toNat_inLine x.pa (by omega), toNat_lineAddress]; omega)
  exact absurd (h.symm.trans this) (by decide)

end

section
variable {s : State} {x : Xlat} (wide : (s.eccOn x.p && s.bus32) = false) (alone : s.board.between = []) {a : Word}
include wide alone

/-- The instruction came before the aborted data cycle: it runs (21_mmu R303). -/
theorem fetchMiss_runs_of_taken (ha : a.toNat % s.isize.toNat = 0) (off : s.eccOn x.p = false)
    (rising : s.cwfAt (x.pa &&& 0xFFFFFFE0) = false) (h : s.busAborts false (x.pa &&& 0xFFFFFFE0) 32 = true)
    (taken : s.busAborts false (x.pa &&& 0xFFFFFFE0) ((offsetOf a / s.busWidth + 1) * s.busWidth) = false) : ∃ t,
    fetchMiss x a s
        = .ok (assemble s.bigEndian (s.bytesAt ((x.pa &&& 0xFFFFFFE0) + BitVec.ofNat 32 (offsetOf a)) s.isize.toNat)) t
      ∧ t.mem = s.mem ∧ t.icache = s.icache ∧ (t.fetchBufs.find a).isSome = true
      ∧ s.bcu.Logged false 0b10 (s.lineRequest x.pa) none t.bcu := by
  obtain ⟨z, hz⟩ := fetchMiss_aborted wide alone a off h
  have bus := (sameBus_withScratch s z).logAbort false (s.lineRequest x.pa)
  obtain ⟨t, ht, mem, cache, buffer, log⟩ := fetchPartly_runs bus ha (came_of_taken off rising taken) fun i _ => by
    rw [State.deliveredByte, off, if_neg Bool.false_ne_true]
  exact ⟨t, hz.trans ht, mem, cache, buffer, log ▸ logAbort_logged (s.withScratch z) ..⟩

theorem fetchMiss_aborts_of_aborted (off : s.eccOn x.p = false) (rising : s.cwfAt (x.pa &&& 0xFFFFFFE0) = false) {k : Nat}
    (hk : k * s.busWidth ≤ offsetOf a)
    (h : s.busAborts false ((x.pa &&& 0xFFFFFFE0) + BitVec.ofNat 32 (k * s.busWidth)) s.busWidth = true) : ∃ t,
    fetchMiss x a s = .abort { code := .external, mva := a, domain := 0 } t ∧ t.mem = s.mem ∧ t.icache = s.icache
      ∧ s.bcu.Logged false 0b10 (s.lineRequest x.pa) none t.bcu := by
  obtain ⟨z, hz⟩ := fetchMiss_aborted wide alone a off (line_aborted hk h)
  have bus := (sameBus_withScratch s z).logAbort false (s.lineRequest x.pa)
  obtain ⟨t, ht, mem, cache, log⟩ := fetchPartly_aborts bus (missing_of_aborted off rising hk h)
  exact ⟨t, hz.trans ht, mem, cache, log ▸ logAbort_logged (s.withScratch z) ..⟩

variable (he : s.eccOn x.p = true) (h : s.busAborts false (x.pa &&& 0xFFFFFFE0) 32 = false) {y : BitVec 8}
include he h

/-- A multi-bit error in the first block of the line: nothing came. -/
theorem fetchMiss_aborts_firstBlock {b : Nat}
    (hb : (s.readBlocks (x.pa &&& 0xFFFFFFE0) (s.lineRequest x.pa) 32).head? = some b) (hy : s.eccAt b = .multi y) : ∃ t,
    fetchMiss x a s = .abort { code := .external, mva := a, domain := 0 } t ∧ t.mem = s.mem
      ∧ s.bcu.Logged false 0b01 (s.lineRequest x.pa &&& 0xFFFFFFF8) (some y) t.bcu := by
  obtain ⟨l, hl⟩ := List.head?_eq_some_iff.1 hb
  obtain ⟨z, hz⟩ := fetchMiss_multi (g := []) wide alone a he h hl (fun k hk => (List.not_mem_nil hk).elim) hy
  have bus := (sameBus_withScratch s z).logEcc true y (s.lineRequest x.pa)
  obtain ⟨t, ht, mem, -, log⟩ := fetchPartly_aborts bus (goodWords_firstBlock he hl hy)
  exact ⟨t, hz.trans ht, mem, log ▸ logEcc_logged (s.withScratch z) y _ true⟩

variable {b0 b1 : Nat} {l : List Nat}
  (hb : s.readBlocks (x.pa &&& 0xFFFFFFE0) (s.lineRequest x.pa) 32 = b0 :: b1 :: l) (h0 : s.eccAt b0 = .good)
  (h1 : s.eccAt b1 = .multi y)
include hb h0 h1

/-- The instruction stands in the first block that came, the error in the second. -/
theorem fetchMiss_runs_firstBlock (ha : a.toNat % s.isize.toNat = 0)
    (here : blockOf ((x.pa &&& 0xFFFFFFE0) + BitVec.ofNat 32 (offsetOf a)) = b0) : ∃ t,
    fetchMiss x a s
        = .ok (assemble s.bigEndian (s.bytesAt ((x.pa &&& 0xFFFFFFE0) + BitVec.ofNat 32 (offsetOf a)) s.isize.toNat)) t
      ∧ t.mem = s.mem ∧ t.icache = s.icache ∧ (t.fetchBufs.find a).isSome = true
      ∧ s.bcu.Logged false 0b01 (s.lineRequest x.pa &&& 0xFFFFFFF8) (some y) t.bcu := by
  obtain ⟨z, hz⟩ := fetchMiss_multi (g := [b0]) wide alone a he h hb (fun k hk => List.mem_singleton.1 hk ▸ h0) h1
  have bus := (sameBus_withScratch s z).logEcc true y (s.lineRequest x.pa)
  obtain ⟨t, ht, mem, cache, buffer, log⟩ := fetchPartly_runs bus ha
    ((goodWords_secondBlock he h hb h0 h1).trans (decide_eq_true here)) fun i hi => by
      obtain ⟨inside, block⟩ := instr_inBlock ha hi
      have small : offsetOf a < 32 := Nat.mod_lt _ (by decide)
      refine deliveredByte_of_good ?_ _
      rw [blockOf_inLine x.pa inside, block, ← blockOf_inLine x.pa small, here, h0]
  exact ⟨t, hz.trans ht, mem, cache, buffer, log ▸ logEcc_logged (s.withScratch z) y _ true⟩

theorem fetchMiss_aborts_otherBlock (elsewhere : blockOf ((x.pa &&& 0xFFFFFFE0) + BitVec.ofNat 32 (offsetOf a)) ≠ b0) : ∃ t,
    fetchMiss x a s = .abort { code := .external, mva := a, domain := 0 } t ∧ t.mem = s.mem ∧ t.icache = s.icache
      ∧ s.bcu.Logged false 0b01 (s.lineRequest x.pa &&& 0xFFFFFFF8) (some y) t.bcu := by
  obtain ⟨z, hz⟩ := fetchMiss_multi (g := [b0]) wide alone a he h hb (fun k hk => List.mem_singleton.1 hk ▸ h0) h1
  have bus := (sameBus_withScratch s z).logEcc true y (s.lineRequest x.pa)
  obtain ⟨t, ht, mem, cache, log⟩ := fetchPartly_aborts bus
    ((goodWords_secondBlock he h hb h0 h1).trans (decide_eq_false elsewhere))
  exact ⟨t, hz.trans ht, mem, cache, log ▸ logEcc_logged (s.withScratch z) y _ true⟩

end

/-! ## O58 -/

/-- Settles O58: a read request checks the blocks that came, in the order in which they came, and logs the first error that ends it;
what a cut line read delivers to a fetch is `State.goodWords`. -/
theorem busErrorsAreLogged : Obligations.BusErrorsAreLogged := by
  unfold Obligations.BusErrorsAreLogged
  intro pa req n u p bs s wide alone
  refine ⟨fun h quiet => ?_, fun h he b l y hb => ⟨fun hy => ?_, fun hy hl => ?_⟩, fun off stored h => ?_,
    fun he dwe short h => ?_, ?_, fun k hk _ hw => writeSpan_inWord hk hw, fun he h b hb => ⟨fun good => ?_, fun y hy => ?_,
      fun bit y hy ok => ?_, fun y hy => ⟨?_, fun code mva dom hn hr hp => ?_, fun x mva hx hp hr ha hf hc => ?_⟩⟩, ?_, ?_⟩
  · obtain ⟨z, hz⟩ := busRead_aborted_logged wide alone h quiet
    exact ⟨_, hz, ((sameBus_withScratch s z).logAbort ..).mem, logAbort_logged (s.withScratch z) ..⟩
  · obtain ⟨z, hz⟩ := busRead_multi (g := []) wide alone he ((checkedBlocks_of_aborted h req).trans hb)
      (fun k hk => (List.not_mem_nil hk).elim) hy
    exact ⟨_, hz, ((sameBus_withScratch s z).logEcc ..).mem, logEcc_logged (s.withScratch z) y req true⟩
  · obtain ⟨z, hz⟩ := busRead_aborted_oneBit wide alone h he hb (.inl hy) hl
    have bus := ((sameBus_withScratch s z).logEcc false y req).note 0x15
    exact ⟨_, ((s.withScratch z).logEcc false y req).note 0x15, hz, (bus.logAbort ..).mem,
      logEcc_logged (s.withScratch z) y req false, rfl⟩
  · have bus : SameBus s (s.note 0x10) := (sameBus_withScratch s s.scratch).note 0x10
    exact ⟨_, busWrite_aborted alone u off stored h, (bus.abortData ..).mem, pendingAbort_abortData ..,
      logAbort_logged (s.note 0x10) ..⟩
  · have bus : SameBus s (s.note 0x10) := (sameBus_withScratch s s.scratch).note 0x10
    obtain ⟨kept, pends⟩ := rmwWrite_aborted (s := s.note 0x10) bs ((bus.busAborts ..).trans h)
    exact ⟨_, busWrite_rmw alone u wide he dwe short, kept.mem, congrArg Board.ecc kept.board, pends⟩
  · intro line c
    have first : s.firstCycle line (s.lineRequest pa) 32 / 8 = c := by
      rw [firstCycle_line]
      exact Nat.mul_div_cancel c (by decide)
    rw [readBlocks_line, first]
  · obtain ⟨z, hz⟩ := busRead_good (req := req) wide alone h he
      (by rw [readBlocks_one hb]; exact fun k hk => List.mem_singleton.1 hk ▸ good)
    rw [readBytes_good hb good] at hz
    exact ⟨_, hz, rfl, rfl⟩
  · obtain ⟨z, hz⟩ := busRead_oneBit wide alone h he (readBlocks_one hb req) (.inl hy)
    rw [readBytes_checkBit hb hy] at hz
    exact ⟨_, hz, ((sameBus_withScratch s z).logEcc ..).mem, logEcc_logged (s.withScratch z) y req false⟩
  · obtain ⟨z, hz⟩ := busRead_oneBit wide alone h he (readBlocks_one hb req) (.inr ⟨bit, hy⟩)
    exact ⟨_, _, hz, ((sameBus_withScratch s z).logEcc ..).mem, logEcc_logged (s.withScratch z) y req false,
      readBytes_dataBit hb ok he hy⟩
  · obtain ⟨z, hz⟩ := busRead_multi_one wide alone he h hb hy
    exact ⟨_, hz, ((sameBus_withScratch s z).logEcc ..).mem, logEcc_logged (s.withScratch z) y req true⟩
  · subst hn hr hp
    obtain ⟨z, hz⟩ := busRead_multi_one wide alone he h hb hy
    exact ⟨_, readDescriptor_multi hz code mva dom, ((sameBus_withScratch s z).logEcc ..).mem,
      logEcc_logged (s.withScratch z) y _ true⟩
  · subst hx hp hr
    exact dataRead_multi wide alone he h hb hy ha hf hc
  · rintro x a rfl he h rfl b y hb hy
    exact fetchMiss_aborts_firstBlock wide alone he h hb hy
  · rintro x a rfl rfl ha
    exact ⟨fun off rising => ⟨fetchMiss_runs_of_taken wide alone ha off rising,
        fun k => fetchMiss_aborts_of_aborted wide alone off rising⟩,
      fun he h b0 b1 l y hb h0 h1 => ⟨fetchMiss_runs_firstBlock wide alone he h hb h0 h1 ha,
        fetchMiss_aborts_otherBlock wide alone he h hb h0 h1⟩⟩

end Sys2Proof.Machine
end

section
/-!
PROOFS. Memory keeps its canonical form (O7), the record of the code too. A memory access writes bytes only (`Closed`); of
everything else an instruction does, only the functions that invalidate the instruction cache touch either, and they copy memory to
the record.
-/

namespace Sys2Proof.Machine

/-- Memory is in canonical form, and so is the record of the code if `recorded`. -/
@[reducible] def State.CanonicalMemory (recorded : Prop) (s : State) : Prop :=
  memWf s.mem = true ∧ (recorded → memWf s.synced = true)

theorem closed_canonicalMemory (recorded : Prop) : Closed (State.CanonicalMemory recorded) := by
  constructor
  case mem => exact fun _ pa b hs => ⟨memOk_setByteAt hs.1 pa b, hs.2⟩
  all_goals exact fun _ _ hs => hs

namespace State.CanonicalMemory
variable {recorded : Prop} {s : State}

/-- What copies memory to the record. -/
theorem resync (hs : s.CanonicalMemory recorded) (o : List (Nat × List Byte)) :
    ({ s with synced := s.mem, overwritten := o } : State).CanonicalMemory recorded := ⟨hs.1, fun _ => hs.1⟩

/-! ## Registers, exceptions, returns -/

theorem setReg (hs : s.CanonicalMemory recorded) (r : Reg) (v : Word) : (s.setReg r v).CanonicalMemory recorded := by
  unfold State.setReg
  split <;> exact hs

theorem apply (hs : s.CanonicalMemory recorded) (a : Addr) (rn : Reg) : (a.apply rn s).CanonicalMemory recorded := by
  unfold Addr.apply
  split
  · exact hs.setReg _ _
  · exact hs

theorem debugException (hs : s.CanonicalMemory recorded) (moe : BitVec 3) (e : Exc) (link : Word) :
    (debugException moe e link s).CanonicalMemory recorded := by
  unfold Machine.debugException
  split <;> exact hs

theorem raiseUndef (hs : s.CanonicalMemory recorded) : Out.All (State.CanonicalMemory recorded) (raiseUndef s) := by
  unfold Machine.raiseUndef
  split
  · trivial
  · exact hs

theorem raiseSwi (hs : s.CanonicalMemory recorded) : Out.All (State.CanonicalMemory recorded) (raiseSwi s) := by
  refine (Out.all_fault _ _).ite (Out.all_next ?_) _
  split <;> exact hs

theorem breakpoint (hs : s.CanonicalMemory recorded) : Out.All (State.CanonicalMemory recorded) (breakpoint s) := by
  unfold Machine.breakpoint
  split
  · exact hs
  · exact hs.debugException _ _ _

theorem exceptionReturn (hs : s.CanonicalMemory recorded) (v : Word) :
    Out.All (State.CanonicalMemory recorded) (exceptionReturn v s) := by
  unfold Machine.exceptionReturn
  split
  · trivial
  · exact hs

theorem armCond (hs : s.CanonicalMemory recorded) (c : Cond) {k : Out} (hk : Out.All (State.CanonicalMemory recorded) k) :
    Out.All (State.CanonicalMemory recorded) (armCond c s k) := by
  unfold Machine.armCond
  split
  · exact hk
  · exact hs

/-- The end of an instruction that accesses memory. -/
theorem finish {α : Type} {x : Acc α} (hx : x.All (State.CanonicalMemory recorded)) (counted : Bool) {wb : State → State}
    (hwb : ∀ {t : State}, t.CanonicalMemory recorded → (wb t).CanonicalMemory recorded) {k : α → State → Out}
    (hk : ∀ v {t : State}, t.CanonicalMemory recorded → Out.All (State.CanonicalMemory recorded) (k v t)) :
    Out.All (State.CanonicalMemory recorded) (x.finish counted wb k) := by
  cases x with
  | ok v t => exact hk v hx
  | abort f t =>
    have recordedFault : (t.recordFault f).setSticky.CanonicalMemory recorded := hx
    unfold Acc.finish
    dsimp only
    split
    · exact hwb recordedFault
    · exact hx
  | fault e => trivial
  | refused e => trivial

/-! ## Data processing, multiplies, branches -/

theorem writeReg (hs : s.CanonicalMemory recorded) (rd : Reg) (v : Word) :
    Out.All (State.CanonicalMemory recorded) (writeReg rd v s) := hs.setReg rd v

theorem writeAlu (hs : s.CanonicalMemory recorded) (sb : Bool) (rd : Reg) (r : AluResult) :
    Out.All (State.CanonicalMemory recorded) (writeAlu sb rd r s) := by
  unfold Machine.writeAlu
  split
  · split
    · exact hs.exceptionReturn _
    · exact hs
  · exact hs.setReg rd r.value

theorem writeFlags (hs : s.CanonicalMemory recorded) (r : AluResult) :
    Out.All (State.CanonicalMemory recorded) (writeFlags r s) := hs

theorem writeSum (hs : s.CanonicalMemory recorded) (rd : Reg) (v : Word) :
    Out.All (State.CanonicalMemory recorded) (writeSum rd v s) := by
  unfold Machine.writeSum
  split
  · exact hs
  · exact hs.writeReg rd v

theorem writeLong (hs : s.CanonicalMemory recorded) (sb : Bool) (hi lo : Reg) (v : BitVec 64) :
    Out.All (State.CanonicalMemory recorded) (writeLong sb hi lo v s) := (hs.setReg hi _).setReg lo _

theorem writeProduct (hs : s.CanonicalMemory recorded) (sb : Bool) (rd : Reg) (v : Word) :
    Out.All (State.CanonicalMemory recorded) (writeProduct sb rd v s) := hs.setReg rd v

theorem writeSticky (hs : s.CanonicalMemory recorded) (rd : Reg) (v : Word) (q : Bool) :
    Out.All (State.CanonicalMemory recorded) (writeSticky rd v q s) := hs.setReg rd v

theorem twoDests {k : Out} (hk : Out.All (State.CanonicalMemory recorded) k) (hi lo : Reg) :
    Out.All (State.CanonicalMemory recorded) (twoDests hi lo k) := (Out.all_refused _ _).ite hk _

theorem notBothLow {k : Out} (hk : Out.All (State.CanonicalMemory recorded) k) (d m : Reg) :
    Out.All (State.CanonicalMemory recorded) (notBothLow d m k) := (Out.all_refused _ _).ite hk _

theorem sbzAcc {k : Out} (hk : Out.All (State.CanonicalMemory recorded) k) (sbz : BitVec 5) :
    Out.All (State.CanonicalMemory recorded) (sbzAcc sbz k) := hk.ite (Out.all_refused _ _) _

theorem accumulate (hs : s.CanonicalMemory recorded) (p : Int) :
    Out.All (State.CanonicalMemory recorded) (accumulate p s) := hs

theorem writeAcc (hs : s.CanonicalMemory recorded) (v : BitVec 40) :
    ({ s with acc0 := v }.advance s.isize : State).CanonicalMemory recorded := hs

theorem readAcc (hs : s.CanonicalMemory recorded) (hi lo : Reg) (v w : Word) :
    (((s.setReg hi v).setReg lo w).advance s.isize).CanonicalMemory recorded := (hs.setReg hi v).setReg lo w

theorem withAcc (hs : s.CanonicalMemory recorded) {k : Out} (hk : Out.All (State.CanonicalMemory recorded) k)
    (acc : BitVec 3) (rs : List Reg) : Out.All (State.CanonicalMemory recorded) (withAcc acc rs s k) :=
  hs.raiseUndef.ite ((Out.all_refused _ _).ite (hk.noR15 rs) _) _

theorem mrs (hs : s.CanonicalMemory recorded) (r : Bool) (rd : Reg) : Out.All (State.CanonicalMemory recorded) (if r then
      match s.spsr with
      | none => .fault .noSpsr
      | some p => Machine.writeReg rd p s
    else Machine.writeReg rd s.cpsr s) := by
  cases r
  · exact hs.writeReg _ _
  · cases s.spsr with
    | none => trivial
    | some p => exact hs.writeReg _ _

theorem msr (hs : s.CanonicalMemory recorded) (r : Bool) (mask : BitVec 4) (v : Word) :
    Out.All (State.CanonicalMemory recorded) (msr r mask v s) := by
  unfold Machine.msr
  split
  · unfold msrSpsr
    split
    · trivial
    · exact hs
  · unfold msrCpsr
    dsimp only
    split
    · split
      · trivial
      · split
        · trivial
        · exact hs
    · exact hs

theorem recordBranch (hs : s.CanonicalMemory recorded) (word : Word) (taken : Bool) (target : Word) :
    (s.recordBranch word taken target).CanonicalMemory recorded := by
  have counted (right : Bool) : (if right then s.note 0x05 else (s.note 0x05).note 0x06).CanonicalMemory recorded := by
    cases right <;> exact hs
  unfold State.recordBranch
  dsimp only
  split
  · split
    · exact counted _
    · split <;> exact counted _
  · exact counted _

theorem predictedBranch (hs : s.CanonicalMemory recorded) (word : Word) (taken : Bool) (target : Word) :
    Out.All (State.CanonicalMemory recorded) (predictedBranch word taken target s) := by
  have noted := hs.recordBranch word taken target
  unfold Machine.predictedBranch
  dsimp only
  split <;> exact noted

theorem execB (hs : s.CanonicalMemory recorded) (c : Cond) (imm : BitVec 24) :
    Out.All (State.CanonicalMemory recorded) (execB c imm s) := hs.predictedBranch _ _ _

theorem execTB1 (hs : s.CanonicalMemory recorded) (c : Cond) (imm : BitVec 8) :
    Out.All (State.CanonicalMemory recorded) (execTB1 c imm s) := hs.predictedBranch _ _ _

theorem execTB2 (hs : s.CanonicalMemory recorded) (imm : BitVec 11) :
    Out.All (State.CanonicalMemory recorded) (execTB2 imm s) := hs.predictedBranch _ _ _

theorem execBl (hs : s.CanonicalMemory recorded) (c : Cond) (imm : BitVec 24) :
    Out.All (State.CanonicalMemory recorded) (execBl c imm s) :=
  ((hs.setReg 14 _).predictedBranch _ _ _).ite (hs.predictedBranch _ _ _) _

theorem branchExchange (hs : s.CanonicalMemory recorded) (v : Word) :
    Out.All (State.CanonicalMemory recorded) (branchExchange v s) := by
  unfold Machine.branchExchange
  split
  · trivial
  · exact hs

theorem noteBranch (hs : s.CanonicalMemory recorded) : s.noteBranch.CanonicalMemory recorded := hs

theorem execBlx1 (hs : s.CanonicalMemory recorded) (h : Bool) (imm : BitVec 24) :
    Out.All (State.CanonicalMemory recorded) (execBlx1 h imm s) := hs.noteBranch.setReg 14 (s.pc + 4)

theorem execTBlFirst (hs : s.CanonicalMemory recorded) (off : BitVec 11) :
    Out.All (State.CanonicalMemory recorded) (execTBlFirst off s) := hs.setReg 14 (s.pc + 4 + (off.signExtend 32 <<< 12))

theorem execTBl (hs : s.CanonicalMemory recorded) (off : BitVec 11) :
    Out.All (State.CanonicalMemory recorded) (execTBl off s) := hs.noteBranch.setReg 14 s.thumbLink

theorem execTBlx1 (hs : s.CanonicalMemory recorded) (off : BitVec 10) :
    Out.All (State.CanonicalMemory recorded) (execTBlx1 off s) := hs.noteBranch.setReg 14 s.thumbLink

/-! ## Loads and stores -/

theorem writeLoaded (hs : s.CanonicalMemory recorded) (rd : Reg) (v : Word) :
    Out.All (State.CanonicalMemory recorded) (writeLoaded rd v s) := by
  unfold Machine.writeLoaded
  split
  · exact hs
  · exact hs.writeReg rd v

theorem loadWord (hs : s.CanonicalMemory recorded) (pr : Bool) (a : Addr) (rn rd : Reg) :
    Out.All (State.CanonicalMemory recorded) (loadWord pr a rn rd s) :=
  finish ((closed_canonicalMemory _).readWord hs _ _) _ (fun h => h.apply a rn) fun _ _ h => (h.apply a rn).writeLoaded _ _

theorem loadSmall (hs : s.CanonicalMemory recorded) (n : Nat) (sg pr : Bool) (a : Addr) (rn rd : Reg) :
    Out.All (State.CanonicalMemory recorded) (loadSmall n sg pr a rn rd s) :=
  finish ((closed_canonicalMemory _).readMem hs _ _ _) _ (fun h => h.apply a rn) fun _ _ h => (h.apply a rn).writeLoaded _ _

theorem store (hs : s.CanonicalMemory recorded) (n : Nat) (v : Word) (pr : Bool) (a : Addr) (rn : Reg) :
    Out.All (State.CanonicalMemory recorded) (store n v pr a rn s) :=
  finish ((closed_canonicalMemory _).writeMem hs _ _ _ _) _ (fun h => h.apply a rn) fun _ _ h => Out.all_next (h.apply a rn)

theorem doubleRegs (hs : s.CanonicalMemory recorded) {k : Out} (hk : Out.All (State.CanonicalMemory recorded) k) (rd : Reg) :
    Out.All (State.CanonicalMemory recorded) (doubleRegs rd s k) := hs.raiseUndef.ite ((Out.all_refused _ _).ite hk _) _

theorem loadDouble (hs : s.CanonicalMemory recorded) (a : Addr) (rn rd : Reg) :
    Out.All (State.CanonicalMemory recorded) (loadDouble a rn rd s) := by
  have hc := closed_canonicalMemory recorded
  refine finish ?_ _ (fun h => h.apply a rn) fun v t h => Out.all_next (((h.apply a rn).setReg rd v.1).setReg (rd + 1) v.2)
  exact (Closed.alignDouble hs _).bind fun _ _ h1 => (hc.readMem h1 _ _ _).bind fun _ _ h2 =>
    (hc.readMem h2 _ _ _).bind fun _ _ h3 => h3

theorem storeDouble (hs : s.CanonicalMemory recorded) (a : Addr) (rn rd : Reg) :
    Out.All (State.CanonicalMemory recorded) (storeDouble a rn rd s) := by
  have hc := closed_canonicalMemory recorded
  refine finish ?_ _ (fun h => h.apply a rn) fun _ _ h => Out.all_next (h.apply a rn)
  exact (Closed.alignDouble hs _).bind fun _ _ h1 => (hc.writeMem h1 _ _ _ _).bind fun _ _ h2 => hc.writeMem h2 _ _ _ _

theorem loadRegs (m : BitVec 5) (pr : Bool) (rs : List Reg) :
    ∀ {s : State} (_ : s.CanonicalMemory recorded) (a : Word), (loadRegs m pr rs a s).All (State.CanonicalMemory recorded) := by
  induction rs with
  | nil => exact fun hs _ => hs
  | cons r rs ih =>
    refine fun hs a => ((closed_canonicalMemory _).readMem hs 4 a pr).bind fun v t ht => ?_
    have written : (t.setBankReg m r v).CanonicalMemory recorded := ht
    exact ih written _

theorem loadList (hs : s.CanonicalMemory recorded) (m : BitVec 5) (rs : List Reg) (pc : Bool) (start : Word) (rn : Reg) :
    (loadList m rs pc start rn s).All (State.CanonicalMemory recorded) := by
  refine Acc.All.onAbort ?_ fun t ht => State.CanonicalMemory.setReg ht rn _
  exact (loadRegs m _ rs hs start).bind fun _ _ ht =>
    Acc.All.ite ((closed_canonicalMemory _).readMem ht 4 _ _) (Acc.all_ok ht) _

theorem loadMultiple (hs : s.CanonicalMemory recorded) (a : Addr) (rn : Reg) (list : BitVec 16) :
    Out.All (State.CanonicalMemory recorded) (loadMultiple a rn list s) := by
  refine finish (hs.loadList _ _ _ _ _) _ (fun h => h.apply a rn) fun _ t h => ?_
  have based := h.apply a rn
  dsimp only
  split <;> exact based

theorem storeMultiple (hs : s.CanonicalMemory recorded) (m : BitVec 5) (a : Addr) (rn : Reg) (list : BitVec 16) :
    Out.All (State.CanonicalMemory recorded) (storeMultiple m a rn list s) :=
  finish ((closed_canonicalMemory _).storeWords _ _ ((closed_canonicalMemory _).draw hs 1) _) _ (fun h => h.apply a rn)
    fun _ _ h => Out.all_next (h.apply a rn)

theorem userBank {k : Out} (hk : Out.All (State.CanonicalMemory recorded) k) (a : Mode4) (s : State) :
    Out.All (State.CanonicalMemory recorded) (userBank a s k) := (Out.all_refused _ _).ite ((Out.all_fault _ _).ite hk _) _

/-- LDM (2). -/
theorem loadUserBank (hs : s.CanonicalMemory recorded) (rs : List Reg) (start : Word) (rn : Reg) :
    Out.All (State.CanonicalMemory recorded)
      ((Machine.loadList modeUsr rs false start rn s).finish true id fun _ t => .next (t.advance t.isize)) :=
  finish (hs.loadList _ _ _ _ _) _ id fun _ _ h => Out.all_next h

/-- LDM (3). -/
theorem loadAndReturn (hs : s.CanonicalMemory recorded) (rs : List Reg) (a : Addr) (rn : Reg) :
    Out.All (State.CanonicalMemory recorded) ((Machine.loadList s.mode rs true a.addr rn s).finish false (a.apply rn)
      fun v t => Machine.exceptionReturn v (a.apply rn t)) :=
  finish (hs.loadList _ _ _ _ _) _ (fun h => h.apply a rn) fun v _ h => (h.apply a rn).exceptionReturn v

theorem swap (hs : s.CanonicalMemory recorded) (n : Nat) (rn rd rm : Reg) :
    Out.All (State.CanonicalMemory recorded) (swap n rn rd rm s) :=
  finish ((closed_canonicalMemory _).swapMem hs _ _ _) _ id fun _ _ h => h.writeReg _ _

theorem preloadAt (hs : s.CanonicalMemory recorded) (va : Word) :
    Out.All (State.CanonicalMemory recorded) (preloadAt va s) :=
  finish ((closed_canonicalMemory _).preload hs va) _ id fun _ _ h => Out.all_next h

/-! ## Coprocessor registers (11_state R84 to R130, 12_state R142 to R174) -/

theorem cacheFunction (hs : s.CanonicalMemory recorded) (crm : BitVec 4) (op2 : BitVec 3) (v : Word) :
    (cacheFunction crm op2 v s).All (State.CanonicalMemory recorded) := by
  have hc := closed_canonicalMemory recorded
  unfold Machine.cacheFunction
  repeat' with_reducible refine Acc.All.ite ?_ ?_ _
  · exact hs.resync []
  · exact hs.resync []
  · exact hs
  · exact hs
  · exact hs
  · exact hc.cleanDLine hs v
  · exact hs
  · exact hs
  · exact hc.lineAllocate hs v
  · trivial

theorem tlbFunction (hs : s.CanonicalMemory recorded) (crm : BitVec 4) (op2 : BitVec 3) (v : Word) :
    (tlbFunction crm op2 v s).All (State.CanonicalMemory recorded) := by
  unfold Machine.tlbFunction
  repeat' with_reducible refine Acc.All.ite ?_ ?_ _
  all_goals first | exact hs | trivial

theorem cacheLockFunction (hs : s.CanonicalMemory recorded) (crm : BitVec 4) (op2 : BitVec 3) (v : Word) :
    (cacheLockFunction crm op2 v s).All (State.CanonicalMemory recorded) := by
  unfold Machine.cacheLockFunction
  repeat' with_reducible refine Acc.All.ite ?_ ?_ _
  all_goals first | exact hs | trivial | exact (closed_canonicalMemory _).fetchAndLockI hs v

theorem tlbLockFunction (hs : s.CanonicalMemory recorded) (crm : BitVec 4) (op2 : BitVec 3) (v : Word) :
    (tlbLockFunction crm op2 v s).All (State.CanonicalMemory recorded) := by
  unfold Machine.tlbLockFunction
  repeat' with_reducible refine Acc.All.ite ?_ ?_ _
  all_goals first | exact hs | trivial | exact (closed_canonicalMemory _).translateAndLock hs _ v

theorem writeBreakpoint (hs : s.CanonicalMemory recorded) (crm : BitVec 4) (v : Word) :
    (writeBreakpoint crm v s).All (State.CanonicalMemory recorded) := by
  unfold Machine.writeBreakpoint writeIbcr
  repeat' with_reducible refine Acc.All.ite ?_ ?_ _
  all_goals first | exact hs | trivial

theorem writeCp15 (hs : s.CanonicalMemory recorded) (crn crm : BitVec 4) (op2 : BitVec 3) (v : Word) :
    (writeCp15 crn crm op2 v s).All (State.CanonicalMemory recorded) := by
  unfold Machine.writeCp15 writeAuxControl writeCpar
  dsimp only
  repeat' with_reducible refine Acc.All.ite ?_ ?_ _
  all_goals first
    | exact hs
    | trivial
    | exact hs.cacheFunction crm op2 v
    | exact hs.tlbFunction crm op2 v
    | exact hs.cacheLockFunction crm op2 v
    | exact hs.tlbLockFunction crm op2 v
    | exact hs.writeBreakpoint crm v

theorem writeTx (hs : s.CanonicalMemory recorded) (v : Word) : (s.writeTx v).CanonicalMemory recorded := by
  unfold State.writeTx
  split <;> exact hs

theorem writeDcsr (hs : s.CanonicalMemory recorded) (v : Word) : (s.writeDcsr v).CanonicalMemory recorded := by
  unfold State.writeDcsr
  dsimp only
  split
  · exact hs
  · split <;> exact hs

theorem writeCp14 (hs : s.CanonicalMemory recorded) (crn : BitVec 4) (v : Word) :
    (writeCp14 crn v s).All (State.CanonicalMemory recorded) := by
  unfold Machine.writeCp14 writeCclkcfg writePwrmode
  dsimp only
  repeat' with_reducible refine Acc.All.ite ?_ ?_ _
  all_goals first | exact hs | trivial | exact hs.writeTx v | exact hs.writeDcsr v

theorem writeCp13 (hs : s.CanonicalMemory recorded) (crn crm : BitVec 4) (v : Word) :
    (writeCp13 crn crm v s).All (State.CanonicalMemory recorded) := by
  unfold Machine.writeCp13 writeBcuctl writeEctst
  dsimp only
  repeat' with_reducible refine Acc.All.ite ?_ ?_ _
  all_goals first | exact hs | trivial

theorem cpWrite (hs : s.CanonicalMemory recorded) (cp crn crm : BitVec 4) (op2 : BitVec 3) (v : Word) :
    (cpWrite cp crn crm op2 v s).All (State.CanonicalMemory recorded) :=
  Acc.All.ite (hs.writeCp15 crn crm op2 v) (Acc.All.ite (hs.writeCp14 crn v) (hs.writeCp13 crn crm v) _) _

theorem cpRead (hs : s.CanonicalMemory recorded) (cp crn crm : BitVec 4) (op2 : BitVec 3) :
    (cpRead cp crn crm op2 s).All (State.CanonicalMemory recorded) := by
  unfold Machine.cpRead readCp15 readBreakpoint readCp14 readTbreg readCp13
  dsimp only
  repeat' with_reducible refine Acc.All.ite ?_ ?_ _
  all_goals first | exact hs | trivial

theorem cpChecked (hs : s.CanonicalMemory recorded) {k : Out} (hk : Out.All (State.CanonicalMemory recorded) k)
    (accepted : Bool) (cp crn : BitVec 4) : Out.All (State.CanonicalMemory recorded) (cpChecked accepted cp crn s k) :=
  hs.raiseUndef.ite (hs.raiseUndef.ite (hs.raiseUndef.ite hk _) _) _

theorem moveToCp (hs : s.CanonicalMemory recorded) (crn : BitVec 4) (rd : Reg) (cp : BitVec 4) (op2 : BitVec 3)
    (crm : BitVec 4) : Out.All (State.CanonicalMemory recorded) (moveToCp crn rd cp op2 crm s) := by
  refine (Out.all_refused _ _).ite (finish (hs.cpWrite _ _ _ _ _) _ id fun _ _ h => ?_) _
  exact h

theorem moveFromCp (hs : s.CanonicalMemory recorded) (crn : BitVec 4) (rd : Reg) (cp : BitVec 4) (op2 : BitVec 3)
    (crm : BitVec 4) : Out.All (State.CanonicalMemory recorded) (moveFromCp crn rd cp op2 crm s) := by
  refine finish (hs.cpRead _ _ _ _) _ id fun v _ h => ?_
  unfold writeFromCp
  split
  · exact h
  · exact h.writeReg rd v

theorem loadToCp (hs : s.CanonicalMemory recorded) (a : Addr) (rn : Reg) (crd cp : BitVec 4) :
    Out.All (State.CanonicalMemory recorded) (loadToCp a rn crd cp s) :=
  finish (((closed_canonicalMemory _).readMem hs 4 _ _).bind fun v _ h => h.cpWrite cp crd 0 0 v) _ (fun h => h.apply a rn)
    fun _ _ h => Out.all_next (h.apply a rn)

theorem storeFromCp (hs : s.CanonicalMemory recorded) (a : Addr) (rn : Reg) (crd cp : BitVec 4) :
    Out.All (State.CanonicalMemory recorded) (storeFromCp a rn crd cp s) := by
  have hc := closed_canonicalMemory recorded
  refine finish ?_ _ (fun h => h.apply a rn) fun _ _ h => Out.all_next (h.apply a rn)
  exact (hc.checkStore hs 4 _ _).bind fun p _ h => (h.cpRead cp crd 0 0).bind fun v _ h => hc.storeChecked h 4 v p

/-! ## Every instruction -/

theorem exec (hs : s.CanonicalMemory recorded) (i : Instr) : Out.All (State.CanonicalMemory recorded) (exec i s) :=
  match i with
  | .andShift c sb _ rd _ | .eorShift c sb _ rd _ | .subShift c sb _ rd _ | .rsbShift c sb _ rd _
  | .addShift c sb _ rd _ | .adcShift c sb _ rd _ | .sbcShift c sb _ rd _ | .rscShift c sb _ rd _
  | .orrShift c sb _ rd _ | .bicShift c sb _ rd _ | .andImm c sb _ rd _ | .eorImm c sb _ rd _
  | .subImm c sb _ rd _ | .rsbImm c sb _ rd _ | .addImm c sb _ rd _ | .adcImm c sb _ rd _ | .sbcImm c sb _ rd _
  | .rscImm c sb _ rd _ | .orrImm c sb _ rd _ | .bicImm c sb _ rd _ | .movShift c sb rd _ | .mvnShift c sb rd _
  | .movImm c sb rd _ | .mvnImm c sb rd _ => hs.armCond c (hs.writeAlu sb rd _)
  | .andRegShift c sb _ rd _ | .eorRegShift c sb _ rd _ | .subRegShift c sb _ rd _ | .rsbRegShift c sb _ rd _
  | .addRegShift c sb _ rd _ | .adcRegShift c sb _ rd _ | .sbcRegShift c sb _ rd _ | .rscRegShift c sb _ rd _
  | .orrRegShift c sb _ rd _ | .bicRegShift c sb _ rd _ | .movRegShift c sb rd _ | .mvnRegShift c sb rd _ =>
    hs.armCond c ((hs.writeAlu sb rd _).noR15 _)
  | .tstShift c .. | .teqShift c .. | .cmpShift c .. | .cmnShift c .. | .tstImm c .. | .teqImm c ..
  | .cmpImm c .. | .cmnImm c .. => hs.armCond c (hs.writeFlags _)
  | .tstRegShift c .. | .teqRegShift c .. | .cmpRegShift c .. | .cmnRegShift c .. =>
    hs.armCond c ((hs.writeFlags _).noR15 _)
  | .mul c sb rd .. | .mla c sb rd .. => hs.armCond c ((hs.writeProduct sb rd _).noR15 _)
  | .umull c sb hi lo .. | .umlal c sb hi lo .. | .smull c sb hi lo .. | .smlal c sb hi lo .. =>
    hs.armCond c ((twoDests (hs.writeLong sb hi lo _) _ _).noR15 _)
  | .smlalxy c hi lo .. => hs.armCond c ((twoDests (hs.writeLong false hi lo _) _ _).noR15 _)
  | .smlaxy c rd .. | .smlawy c rd .. | .qadd c _ rd _ | .qsub c _ rd _ | .qdadd c _ rd _ | .qdsub c _ rd _ =>
    hs.armCond c ((hs.writeSticky rd _ _).noR15 _)
  | .smulxy c rd .. | .smulwy c rd .. | .clz c rd _ => hs.armCond c ((hs.writeReg rd _).noR15 _)
  | .mia c _ acc _ | .miaph c _ acc _ | .miabb c _ acc _ | .miabt c _ acc _ | .miatb c _ acc _
  | .miatt c _ acc _ => hs.armCond c (hs.withAcc (hs.accumulate _) acc _)
  | .mar c _ _ sbz acc => hs.armCond c (hs.withAcc (sbzAcc (Out.all_next (hs.writeAcc _)) sbz) acc _)
  | .mra c hi lo sbz acc =>
    hs.armCond c (hs.withAcc (sbzAcc (twoDests (Out.all_next (hs.readAcc hi lo _ _)) _ _) sbz) acc _)
  | .mrs c r rd => hs.armCond c ((hs.mrs r rd).noR15 _)
  | .msrReg c r mask _ => hs.armCond c ((hs.msr r mask _).noR15 _)
  | .msrImm c r mask _ => hs.armCond c (hs.msr r mask _)
  | .undefMul c .. | .undefMisc c .. | .undefMsr c .. | .undefMedia c .. | .cdp c .. | .mcrr c .. | .mrrc c .. =>
    hs.armCond c hs.raiseUndef
  | .undefUncond _ | .tUndefMisc _ | .tUndefCond _ | .tUndefBlx _ => hs.raiseUndef
  | .swi c _ => hs.armCond c hs.raiseSwi
  | .tSwi _ => hs.raiseSwi
  | .bkpt c _ => hs.armCond c (hs.breakpoint.ite (Out.all_refused _ _) _)
  | .tBkpt _ => hs.breakpoint
  | .b c imm => hs.execB c imm
  | .bl c imm => hs.execBl c imm
  | .tB1 c imm => hs.execTB1 c imm
  | .tB2 imm => hs.execTB2 imm
  | .blx1 h imm => hs.execBlx1 h imm
  | .tBlFirst off => hs.execTBlFirst off
  | .tBl off => hs.execTBl off
  | .tBlx1 off => hs.execTBlx1 off
  | .bx c _ => hs.noteBranch.armCond c (hs.noteBranch.branchExchange _)
  | .blx2 c _ => hs.noteBranch.armCond c (((hs.noteBranch.setReg 14 _).branchExchange _).noR15 _)
  | .tBx _ => hs.noteBranch.branchExchange _
  | .tBlx2 _ => ((hs.noteBranch.setReg 14 _).branchExchange _).noR15 _
  | .ldrtImm c _ rn rd _ | .ldrtReg c _ rn rd _ =>
    hs.armCond c (((hs.loadWord false _ rn rd).unlessRefused _).noR15 _)
  | .ldrbtImm c _ rn rd _ | .ldrbtReg c _ rn rd _ =>
    hs.armCond c (((hs.loadSmall 1 false false _ rn rd).unlessRefused _).noR15 _)
  | .strtImm c _ rn .. | .strtReg c _ rn .. => hs.armCond c ((hs.store 4 _ false _ rn).unlessRefused _)
  | .strbtImm c _ rn .. | .strbtReg c _ rn .. => hs.armCond c (((hs.store 1 _ false _ rn).unlessRefused _).noR15 _)
  | .ldrImm c a rd _ | .ldrReg c a rd _ =>
    hs.armCond c ((((hs.loadWord _ _ a.rn rd).notInDebug s).ite (hs.loadWord _ _ a.rn rd) _).unlessRefused _)
  | .ldrbImm c a rd _ | .ldrbReg c a rd _ =>
    hs.armCond c (((hs.loadSmall 1 false _ _ a.rn rd).unlessRefused _).noR15 _)
  | .strImm c a .. | .strReg c a .. => hs.armCond c ((hs.store 4 _ _ _ a.rn).unlessRefused _)
  | .strbImm c a .. | .strbReg c a .. => hs.armCond c (((hs.store 1 _ _ _ a.rn).unlessRefused _).noR15 _)
  | .ldrhImm c a rd _ | .ldrhReg c a rd _ =>
    hs.armCond c (((hs.loadSmall 2 false _ _ a.rn rd).unlessRefused _).noR15 _)
  | .ldrshImm c a rd _ | .ldrshReg c a rd _ =>
    hs.armCond c (((hs.loadSmall 2 true _ _ a.rn rd).unlessRefused _).noR15 _)
  | .ldrsbImm c a rd _ | .ldrsbReg c a rd _ => hs.armCond c ((hs.loadSmall 1 true _ _ a.rn rd).unlessRefused _)
  | .strhImm c a .. | .strhReg c a .. => hs.armCond c (((hs.store 2 _ _ _ a.rn).unlessRefused _).noR15 _)
  | .ldrdImm c a rd _ => hs.armCond c (hs.doubleRegs ((hs.loadDouble _ a.rn rd).unlessRefused _) rd)
  | .ldrdReg c a rd _ =>
    hs.armCond c (hs.doubleRegs (((Out.all_refused _ _).ite (hs.loadDouble _ a.rn rd) _).unlessRefused _) rd)
  | .strdImm c a rd _ | .strdReg c a rd _ =>
    hs.armCond c (hs.doubleRegs ((hs.storeDouble _ a.rn rd).unlessRefused _) rd)
  | .ldm1 c a list =>
    hs.armCond c (((Out.all_refused _ _).ite ((hs.loadMultiple _ a.rn list).notInDebug s) _).unlessRefused _)
  | .ldm2 c a _ => hs.armCond c ((userBank ((hs.loadUserBank _ _ a.rn).notInDebug s) a s).unlessRefused _)
  | .ldm3 c a _ =>
    hs.armCond c (((Out.all_refused _ _).ite ((hs.loadAndReturn _ _ a.rn).notInDebug s) _).unlessRefused _)
  | .stm1 c a list => hs.armCond c ((hs.storeMultiple _ _ a.rn list).unlessRefused _)
  | .stm2 c a list => hs.armCond c ((userBank (hs.storeMultiple modeUsr _ a.rn list) a s).unlessRefused _)
  | .swp c rn rd rm => hs.armCond c (((hs.swap 4 rn rd rm).notInDebug s).unlessRefused _)
  | .swpb c rn rd rm => hs.armCond c (((hs.swap 1 rn rd rm).notInDebug s).unlessRefused _)
  | .pldImm .. => hs.preloadAt _
  | .pldReg .. => (hs.preloadAt _).noR15 _
  | .mcr c _ crn rd cp op2 crm => hs.armCond c (hs.cpChecked (hs.moveToCp crn rd cp op2 crm) _ cp crn)
  | .mrc c _ crn rd cp op2 crm => hs.armCond c (hs.cpChecked (hs.moveFromCp crn rd cp op2 crm) _ cp crn)
  | .ldc c a crd cp _ =>
    hs.armCond c (hs.cpChecked (((hs.loadToCp _ a.rn crd cp).notInDebug s).unlessRefused _) _ cp crd)
  | .stc c a crd cp _ =>
    hs.armCond c (hs.cpChecked (((hs.storeFromCp _ a.rn crd cp).notInDebug s).unlessRefused _) _ cp crd)
  | .tLsl1 _ _ rd | .tLsr1 _ _ rd | .tAsr1 _ _ rd | .tAdd3 _ _ rd | .tSub3 _ _ rd | .tAdd1 _ _ rd
  | .tSub1 _ _ rd | .tMov1 rd _ | .tAdd2 rd _ | .tSub2 rd _ | .tAnd _ rd | .tEor _ rd | .tLsl2 _ rd
  | .tLsr2 _ rd | .tAsr2 _ rd | .tAdc _ rd | .tSbc _ rd | .tRor _ rd | .tNeg _ rd | .tOrr _ rd | .tBic _ rd
  | .tMvn _ rd => hs.writeAlu true (lowReg rd) _
  | .tCmp1 .. | .tTst .. | .tCmp2 .. | .tCmn .. => hs.writeFlags _
  | .tMul _ rd => hs.writeProduct true (lowReg rd) _
  | .tAdd4 d m | .tMov3 d m => notBothLow (hs.writeSum d _) d m
  | .tCmp3 n m => notBothLow ((hs.writeFlags _).noR15 _) n m
  | .tAdd5 rd _ | .tAdd6 rd _ => hs.writeReg (lowReg rd) _
  | .tAdd7 _ | .tSub4 _ => hs.writeReg 13 _
  | .tLdr3 rd _ => hs.loadWord _ _ 15 (lowReg rd)
  | .tLdr2 _ rn rd | .tLdr1 _ rn rd => hs.loadWord _ _ (lowReg rn) (lowReg rd)
  | .tLdr4 rd _ => hs.loadWord _ _ 13 (lowReg rd)
  | .tLdrsb _ rn rd => hs.loadSmall 1 true _ _ (lowReg rn) (lowReg rd)
  | .tLdrsh _ rn rd => hs.loadSmall 2 true _ _ (lowReg rn) (lowReg rd)
  | .tLdrh2 _ rn rd | .tLdrh1 _ rn rd => hs.loadSmall 2 false _ _ (lowReg rn) (lowReg rd)
  | .tLdrb2 _ rn rd | .tLdrb1 _ rn rd => hs.loadSmall 1 false _ _ (lowReg rn) (lowReg rd)
  | .tStr2 _ rn _ | .tStr1 _ rn _ => hs.store 4 _ _ _ (lowReg rn)
  | .tStrh2 _ rn _ | .tStrh1 _ rn _ => hs.store 2 _ _ _ (lowReg rn)
  | .tStrb2 _ rn _ | .tStrb1 _ rn _ => hs.store 1 _ _ _ (lowReg rn)
  | .tStr3 .. => hs.store 4 _ _ _ 13
  | .tPush .. => (hs.storeMultiple _ _ 13 _).unlessRefused _
  | .tPop .. => ((hs.loadMultiple _ 13 _).notInDebug s).unlessRefused _
  | .tStmia rn _ => (hs.storeMultiple _ _ (lowReg rn) _).unlessRefused _
  | .tLdmia rn _ => ((hs.loadMultiple _ (lowReg rn) _).notInDebug s).unlessRefused _

/-! ## The step of the core -/

theorem retire (hs : s.CanonicalMemory recorded) (s0 : State) (executed : Bool) :
    (s0.retire executed s).CanonicalMemory recorded := by
  have traced : (if s0.traceOn && s.traceOn then s.traceStep else s).CanonicalMemory recorded := by split <;> exact hs
  unfold State.retire
  generalize (if s0.traceOn && s.traceOn then s.traceStep else s) = s1 at traced
  have counted : (if s0.pmuOn && s1.pmuOn then s1.pmuCount executed else s1).CanonicalMemory recorded := by
    split <;> exact traced
  dsimp only
  generalize (if s0.pmuOn && s1.pmuOn then s1.pmuCount executed else s1) = s2 at counted
  have reported : s2.reportDataBreak.CanonicalMemory recorded := by
    unfold State.reportDataBreak
    split
    · exact counted.debugException _ _ _
    · exact counted
  exact reported

theorem hide13 (hs : s.CanonicalMemory recorded) (i : Instr) : (s.hide13 i).CanonicalMemory recorded := by
  obtain ⟨v, n, e⟩ := hide13_eq i s
  rw [e]
  exact hs

theorem retireInstr (hs : s.CanonicalMemory recorded) (s0 : State) (i : Instr) :
    (s0.retireInstr i s).CanonicalMemory recorded := by
  have retired := hs.retire s0 true
  unfold State.retireInstr
  dsimp only
  split
  · exact retired.hide13 i
  · exact retired

theorem runInstr (hs : s.CanonicalMemory recorded) : Out.All (State.CanonicalMemory recorded) (runInstr s) := by
  have fetched := (closed_canonicalMemory recorded).fetch hs
  unfold Machine.runInstr
  split
  · rename_i w s1 hw
    split
    · rename_i i _
      have ran := (hide13 (fetched.ok hw) i).exec i
      unfold Machine.runDecoded
      split
      · rename_i t ht
        exact retireInstr (ran.next ht) s i
      · trivial
      · trivial
    · trivial
  · rename_i f s1 hw
    have aborted : s1.CanonicalMemory recorded := fetched.abort hw
    refine (Out.all_fault _ _).ite (Out.all_next (retire ?_ s false)) _
    split <;> exact aborted
  · trivial
  · trivial

theorem takePending (hs : s.CanonicalMemory recorded) (k : AbortKind) : (takePending k s).CanonicalMemory recorded := by
  unfold Machine.takePending
  split
  · exact hs
  · exact retire (s := takeImprecise k s) hs s false

theorem activeStep (hs : s.CanonicalMemory recorded) : Out.All (State.CanonicalMemory recorded) (activeStep s) := by
  have broken (moe : BitVec 3) (e : Exc) (link : Word) : Out.All (State.CanonicalMemory recorded)
      (.next (s.retire false (Machine.debugException moe e link s))) := (hs.debugException moe e link).retire s false
  have entered (e : Exc) (link : Word) : Out.All (State.CanonicalMemory recorded)
      (.next (s.retire false (takeException e link false s))) := retire (s := takeException e link false s) hs s false
  unfold Machine.activeStep
  split
  · exact retire (s := debugEntryHalt _ _ s) hs s false
  · split
    · exact hs.takePending _
    · exact (broken _ _ _).ite ((entered .fiq _).ite ((entered .irq _).ite ((broken _ _ _).ite hs.runInstr _) _) _) _

theorem coreStep (hs : s.CanonicalMemory recorded) : Out.All (State.CanonicalMemory recorded) (coreStep s) := by
  unfold Machine.coreStep
  split
  · exact hs
  · split
    · exact hs
    · refine Out.all_next ?_
      split <;> exact hs
    · exact activeStep (s := { s with scratch := .empty }) hs

/-! ## Inputs from outside -/

/-- A flush of the instruction caches copies memory to the record. -/
theorem resetInstrCaches (hs : s.CanonicalMemory recorded) : s.resetInstrCaches.CanonicalMemory recorded := by
  unfold State.resetInstrCaches
  split
  · exact hs
  · exact hs.resync []

/-- Memory outlives sleep; of the record nothing is left. -/
theorem afterSleep (hs : s.CanonicalMemory recorded) : s.afterSleep.CanonicalMemory recorded := ⟨hs.1, fun _ => rfl⟩

theorem assertReset (hs : s.CanonicalMemory recorded) (trst : Bool) : (s.assertReset trst).CanonicalMemory recorded := by
  have awake : (if s.power.mode = .sleep then s.afterSleep else s).CanonicalMemory recorded := by
    split
    · exact hs.afterSleep
    · exact hs
  unfold State.assertReset
  generalize (if s.power.mode = .sleep then s.afterSleep else s) = s0 at awake
  have tested : (if trst then s0.trst else s0).CanonicalMemory recorded := by split <;> exact awake
  dsimp only
  generalize (if trst then s0.trst else s0) = s1 at tested
  refine resetInstrCaches ?_
  exact tested

theorem releaseReset (hs : s.CanonicalMemory recorded) : s.releaseReset.CanonicalMemory recorded := by
  unfold State.releaseReset
  split <;> exact hs

/-- What an input leaves when internal reset may be flushing the instruction caches. -/
theorem flushed (hs : s.CanonicalMemory recorded) (inReset : Bool) :
    (if inReset then s.resetInstrCaches else s).CanonicalMemory recorded := by
  split
  · exact hs.resetInstrCaches
  · exact hs

theorem scanDr (hs : s.CanonicalMemory recorded) (din : BitVec 36) :
    Out.All (State.CanonicalMemory recorded) (scanDr din s) := by
  have selected : (s.scanSeldcsr din).CanonicalMemory recorded := by
    unfold State.scanSeldcsr
    dsimp only
    split
    · exact resetInstrCaches (s := { s with dbg := _, jtag := _, inReset := _ }) hs
    · exact hs
  unfold Machine.scanDr
  dsimp only
  repeat' with_reducible refine Out.All.ite ?_ ?_ _
  all_goals first | exact selected | exact hs | trivial

theorem ldicPacket (hs : s.CanonicalMemory recorded) (p : BitVec 33) (ok : Bool) :
    Out.All (State.CanonicalMemory recorded) (ldicPacket p ok s) := by
  have stored (f : LdicLoad) : (s.freeOut.ldicStore f).CanonicalMemory recorded := by
    unfold State.ldicStore
    dsimp only
    split <;> exact hs
  unfold Machine.ldicPacket ldicFunction
  dsimp only
  repeat' split
  all_goals first | exact stored _ | exact hs | trivial

theorem applyEvent (hs : s.CanonicalMemory recorded) (e : HostEvent) :
    Out.All (State.CanonicalMemory recorded) (applyEvent e s) := by
  cases e with
  | fiq on | irq on =>
    refine (Out.all_refused _ _).ite ?_ _
    exact hs
  | reset trst => exact (hs.assertReset trst).releaseReset
  | resetAssert trst => exact hs.assertReset trst
  | resetRelease => exact hs.releaseReset
  | shortReset => trivial
  | trst => exact flushed (s := { s.trst with inReset := s.resetPin }) hs s.inReset
  | busWrite pa b => exact flushed ((closed_canonicalMemory recorded).otherWrite hs pa b) s.inReset
  | jtagIr code =>
    refine (Out.all_refused _ _).ite ((Out.all_refused _ _).ite (Out.all_next ?_) _) _
    exact flushed (s := { s with jtag := { s.jtag with ir := code, out := 0b00001 } }) hs _
  | scanDr din => exact hs.scanDr din
  | ldic p ok => exact hs.ldicPacket p ok
  | upsetI mini | upsetD mini => cases mini <;> exact hs
  | tick | imprecise | abortRegions | between | cwf | eccError | pins => exact hs

theorem step (hs : s.CanonicalMemory recorded) : Out.All (State.CanonicalMemory recorded) (step s) := by
  have rest (l : List HostEvent) : ({ s with hostEvents := l } : State).CanonicalMemory recorded := hs
  unfold Machine.step stepCycle
  split
  · exact hs.coreStep
  · exact (rest _).coreStep
  · exact (rest _).applyEvent _

end State.CanonicalMemory

/-- Settles O7: every part of a step keeps the canonical form, of memory and, if it has it, of the record. -/
theorem stepKeepsMemoryForm : Obligations.StepKeepsMemoryForm := by
  unfold Obligations.StepKeepsMemoryForm
  intro s t hm ht
  have hs : s.CanonicalMemory (memWf s.synced = true) := ⟨hm, id⟩
  exact hs.step.next ht

end Sys2Proof.Machine
end

section
/-! PROOFS. A quiet step is the instruction that the fetched bytes decode to. -/
namespace Sys2Proof.Machine

theorem State.hide13_eq_ite (i : Instr) (s : State) :
    s.hide13 i = if s.dbg.sds = true ∧ keepsScratch13 i = false then s.scramble13 else s := by
  simp [State.hide13]

/-- What an instruction's step is, once its bytes are fetched and decoded. -/
theorem runInstr_of_decoded {s s1 : State} {w : Nat} {i : Instr} (fetched : fetch s = .ok w s1)
    (decoded : s1.decodeFetched w = some i) : runInstr s = runDecoded s i s1 := by
  unfold Machine.runInstr
  rw [fetched]
  dsimp only
  rw [decoded]

/-- Settles O4: a quiet step is `runInstr`, and the fetch and the decoder say which instruction that runs. -/
theorem stepRunsDecodedInstruction : Obligations.StepRunsDecodedInstruction := by
  intro s s1 w i quiet fetched decoded
  rw [step_quiet quiet, runInstr_of_decoded (s := s.withScratch .empty) fetched decoded, runDecoded, State.hide13_eq_ite]
  rfl

end Sys2Proof.Machine
end

section
/-! PROOFS. A store and a load of the same place without MMU, data cache and other masters; the byte orders. -/
namespace Sys2Proof.Machine

theorem toNat_append_byte {w : Nat} (x : BitVec w) (b : Byte) : (x ++ b).toNat = b.toNat + 256 * x.toNat := by
  rw [BitVec.toNat_append, ← Nat.shiftLeft_add_eq_or_of_lt b.isLt, Nat.shiftLeft_eq]
  omega

theorem ofNat_leValue_pair (lo hi : Byte) : BitVec.ofNat 16 (leValue [lo, hi]) = hi ++ lo := by
  have value : leValue [lo, hi] = (hi ++ lo).toNat := by simp [leValue, toNat_append_byte]
  rw [value, BitVec.ofNat_toNat, BitVec.setWidth_eq]

theorem ofNat_leValue_word (b0 b1 b2 b3 : Byte) : BitVec.ofNat 32 (leValue [b0, b1, b2, b3]) = b3 ++ b2 ++ b1 ++ b0 := by
  have value : leValue [b0, b1, b2, b3] = (b3 ++ b2 ++ b1 ++ b0).toNat := by simp only [leValue, toNat_append_byte]; omega
  rw [value, BitVec.ofNat_toNat, BitVec.setWidth_eq]

/-- Settles O36: `writeMem_plain` says what the store leaves, `readMem_plain` what the load then delivers. -/
theorem plainStoreThenLoad : Obligations.PlainStoreThenLoad := by
  unfold Obligations.PlainStoreThenLoad
  refine ⟨fun n s va v priv hn aligned plain ok => ?_, fun b0 b1 b2 b3 =>
    ⟨ofNat_leValue_word b0 b1 b2 b3, ofNat_leValue_word b3 b2 b1 b0, ofNat_leValue_pair b0 b1, ofNat_leValue_pair b1 b0⟩⟩
  obtain ⟨t, write, plainAfter, -, bytes⟩ := writeMem_plain plain hn aligned ok v priv
  have same := writeMem_sameCore write
  have length : (disassemble s.bigEndian n v.toNat).length = n := disassemble_length _ _ _
  have own : t.bytesAt (s.mvaOf va) n = disassemble s.bigEndian n v.toNat := by
    have stored := bytesAt_of_byteAt (t := t) (pa := s.mvaOf va) (bs := disassemble s.bigEndian n v.toNat) (by omega)
      fun a ha => (bytes a).trans (if_pos (length ▸ ha))
    rwa [length] at stored
  refine ⟨t, write, ?_, own, fun a ha => (bytes a).trans (if_neg (Nat.not_lt.2 ha)), same⟩
  obtain ⟨x, read⟩ := readMem_plain plainAfter hn aligned priv
  rw [mvaOf_congr same.cp15, own, bigEndian_congr same.cp15, assemble_disassemble] at read
  exact ⟨x, read⟩

end Sys2Proof.Machine
end

section
/-! PROOFS. Reads without MMU, data cache and board aborts, when other masters may write first. -/
namespace Sys2Proof.Machine

/-! ## What other masters write (62_platform R875) -/

theorem otherWrites_withScratch (ws : List (Word × Byte)) (z : Scratch) (s : State) :
    ws.foldl (fun t w => t.otherWrite w.1 w.2) (s.withScratch z)
      = (ws.foldl (fun t w => t.otherWrite w.1 w.2) s).withScratch z := by
  induction ws generalizing s with
  | nil => rfl
  | cons w ws ih => exact ih (s.otherWrite w.1 w.2)

theorem othersWrite_of_first {s : State} {ws : List (Word × Byte)} {rest : List (List (Word × Byte))}
    (first : s.board.between = ws :: rest) : s.othersWrite
      = (ws.filter fun w => !s.scratch.lock.protects w.1).foldl (fun t w => t.otherWrite w.1 w.2)
          { s with board := { s.board with between := postpone (ws.filter fun w => s.scratch.lock.protects w.1) rest } } := by
  unfold State.othersWrite
  rw [first]

/-- Of the step's record only the lock decides what other masters write. -/
theorem othersWrite_withScratch {s : State} {z : Scratch} (lock : z.lock = s.scratch.lock) :
    (s.withScratch z).othersWrite = s.othersWrite.withScratch z := by
  cases waiting : s.board.between with
  | nil => rw [othersWrite_of_none waiting, othersWrite_of_none (s := s.withScratch z) waiting]
  | cons ws rest =>
    rw [othersWrite_of_first waiting, othersWrite_of_first (s := s.withScratch z) waiting, ← otherWrites_withScratch]
    have sameLock : (s.withScratch z).scratch.lock = s.scratch.lock := lock
    rw [sameLock]
    rfl

/-- With no lock held, the first writes waiting are all done. -/
theorem between_othersWrite {s : State} (free : s.scratch.lock = .free) {ws : List (Word × Byte)}
    {rest : List (List (Word × Byte))} (first : s.board.between = ws :: rest) : s.othersWrite.board.between = rest := by
  have nobody : (ws.filter fun w => s.scratch.lock.protects w.1) = [] := by
    rw [free]
    exact List.filter_false ws
  rw [othersWrite_of_first first, board_otherWrites, nobody]
  rfl

theorem memWf_memSets (ws : List (Word × Byte)) {m : List Host.Cell} (h : memWf m = true) :
    memWf (ws.foldl (fun m w => memSet m w.1.toNat w.2) m) = true := by
  induction ws generalizing m with
  | nil => exact h
  | cons w ws ih => exact ih (memWfFrom_memSet _ h (Nat.zero_le _) w.1.isLt)

/-- The last write of the coming ones reads as written. -/
theorem byteAt_othersWrite_last {s : State} (ok : s.MemOk) {ws : List (Word × Byte)} {w : Word × Byte}
    (coming : s.coming = ws ++ [w]) : s.othersWrite.byteAt w.1 = w.2 := by
  rw [State.byteAt, mem_othersWrite, coming, List.foldl_append, List.foldl_cons, List.foldl_nil,
    memGet_memSet _ _ _ (memWf_memSets ws ok), if_pos rfl]

/-! ## Reads -/

/-- A read at the address that alignment leaves. -/
theorem readMem_delivers {s : State} (plain : s.plainBus = true) {n : Nat} {va a : Word} (aligned : alignData n va s = .ok a s)
    (priv : Bool) : ∃ x, readMem n va priv s
      = .ok (BitVec.ofNat 32 (assemble s.bigEndian (s.othersWrite.bytesAt (s.mvaOf a) n))) (s.othersWrite.withScratch x) := by
  obtain ⟨mmuOff, -⟩ := (plainMemory_iff s.alone).1 (plainMemory_alone plain)
  have mmuOff : s.mmuOn = false := mmuOff
  have noted := noteBreak_eq s a n false
  obtain ⟨z, lock, read⟩ := dataRead_delivers (s := s.noteBreak a n false) (noted ▸ plain) (s.mvaOf a) (s.mvaOf a) n
  have lock : z.lock = s.scratch.lock := by rw [lock, noted]
  have delivered : State.othersWrite { s.noteBreak a n false with scratch := z } = s.othersWrite.withScratch z := by
    rw [noted]
    exact othersWrite_withScratch lock
  obtain ⟨y, locked⟩ := assertLock_eq (s.othersWrite.withScratch z)
  rw [delivered] at read
  dsimp only at read
  rw [locked] at read
  have same : SameCore s s.othersWrite := (closed_sameCore s).othersWrite (SameCore.refl s)
  refine ⟨((s.othersWrite.withScratch y).note 0x10).scratch, ?_⟩
  rw [readMem, aligned]
  dsimp only [Acc.bind]
  rw [translateData_mmuOff mmuOff]
  dsimp only
  rw [read]
  dsimp only
  rw [bytesAt_congr (s := s.othersWrite) (t := s.othersWrite.withScratch z) rfl,
    ← bigEndian_congr (t := s.othersWrite) same.cp15]
  rfl

theorem and_clear_of_aligned {va : Word} (h : va &&& 3 = 0) : va &&& 0xFFFFFFFC = va := by
  have aligned := (toNat_mod_four va).2 h
  exact BitVec.eq_of_toNat_eq (by rw [toNat_wordAddress]; omega)

/-- A word address, aligned or with the alignment check off, is read at the word. -/
theorem alignData_word {s : State} {va : Word} (h : va &&& 3 = 0 ∨ s.alignCheckOn = false) :
    alignData 4 va s = .ok (va &&& 0xFFFFFFFC) s := by
  rw [alignData, if_neg (by decide), if_pos rfl]
  split
  · rename_i aligned
    rw [and_clear_of_aligned aligned]
  · rename_i misaligned
    rw [h.resolve_left misaligned, if_neg Bool.false_ne_true]

theorem alignData_halfword {va : Word} (even : va.getLsbD 0 = false) (s : State) : alignData 2 va s = .ok va s := by
  rw [alignData, if_pos rfl, even]
  rfl

theorem assemble_byteAt (big : Bool) (s : State) (pa : Word) : assemble big (s.bytesAt pa 1) = (s.byteAt pa).toNat := by
  have one : s.bytesAt pa 1 = [s.byteAt pa] := by simp [bytesAt_eq_map]
  rw [one]
  cases big <;> simp [assemble, leValue]

/-- Settles O35: each read is `readMem_delivers` at the address that alignment leaves; the rest is what other masters write. -/
theorem plainReads : Obligations.PlainReads := by
  unfold Obligations.PlainReads
  intro s va priv plain o
  refine ⟨?_, fun even => readMem_delivers plain (alignData_halfword even s) priv,
    fun word => readMem_delivers plain (alignData_word word) priv, othersWrite_of_none,
    (closed_sameCore s).othersWrite (SameCore.refl s), fun w ws rest ok free first =>
      ⟨byteAt_othersWrite_last (ws := ws) ok ?_, between_othersWrite free first, fun a other => byteAt_othersWrite ok other⟩⟩
  · obtain ⟨x, read⟩ := readMem_delivers plain (n := 1) (a := va) rfl priv
    rw [assemble_byteAt] at read
    exact ⟨x, read⟩
  · rw [coming_of_unlocked fun a => by rw [free]; rfl, first]
    rfl

end Sys2Proof.Machine
end

section
/-!
PROOFS. Alignment aborts (20_memory R224, R226). The alignment is checked before anything else of an access is done, so an access
that fails the check aborts in the state it found; each transfer then aborts at its first access.
-/

namespace Sys2Proof.Machine

/-! ## Accesses -/

/-- The fault that an access at `va` reports when its address is not aligned. -/
def State.alignmentFault (s : State) (va : Word) : DataFault := { code := .alignment, mva := s.mvaOf va, domain := 0 }

/-- An access of `n` bytes at `va` that the alignment check stops. -/
def Misaligned (n : Nat) (va : Word) : Prop := (n = 4 ∧ va &&& 3 ≠ 0) ∨ (n = 2 ∧ va.getLsbD 0 = true)

theorem Misaligned.word {va : Word} (h : va &&& 3 ≠ 0) : Misaligned 4 va := .inl ⟨rfl, h⟩

section
variable {s : State} {n : Nat} {va : Word} (on : s.alignCheckOn = true) (misaligned : Misaligned n va)
include on misaligned

theorem alignData_misaligned : alignData n va s = .abort (s.alignmentFault va) s := by
  obtain ⟨rfl, word⟩ | ⟨rfl, odd⟩ := misaligned
  · rw [alignData, if_neg (by decide), if_pos rfl, if_neg word, if_pos on]
    rfl
  · rw [alignData, if_pos rfl, odd, if_neg (by decide), if_pos on]
    rfl

theorem readMem_misaligned (priv : Bool) : readMem n va priv s = .abort (s.alignmentFault va) s :=
  congrArg (Acc.bind · _) (alignData_misaligned on misaligned)

theorem checkStore_misaligned (priv : Bool) : checkStore n va priv s = .abort (s.alignmentFault va) s :=
  congrArg (Acc.bind · _) (alignData_misaligned on misaligned)

theorem writeMem_misaligned (v : Word) (priv : Bool) : writeMem n va v priv s = .abort (s.alignmentFault va) s :=
  congrArg (Acc.bind · _) (checkStore_misaligned on misaligned priv)

theorem swapMem_misaligned (v : Word) : swapMem n va v s = .abort (s.alignmentFault va) s :=
  congrArg (Acc.bind · _) (alignData_misaligned on misaligned)

end

theorem alignDouble_misaligned {s : State} {va : Word} (h : va &&& 7 = 4 ∨ s.alignCheckOn = true ∧ va &&& 7 ≠ 0) :
    alignDouble va s = .abort (s.alignmentFault va) s := by
  unfold alignDouble
  split
  · rename_i aligned
    obtain four | ⟨-, misaligned⟩ := h
    · rw [aligned] at four
      cases four
    · exact absurd aligned misaligned
  · split
    · rfl
    · rename_i notFour
      rw [(h.resolve_left notFour).1]
      rfl

/-! ## Lists of registers -/

theorem exists_listed {list : BitVec 16} (h : list ≠ 0) : ∃ r : Reg, list.getLsbD r.toNat = true := by
  by_contra none
  push Not at none
  refine h (BitVec.eq_of_getLsbD_eq fun i hi => ?_)
  have unlisted := none (BitVec.ofNat 4 i)
  rw [toNat_ofNat_reg hi] at unlisted
  rw [Bool.eq_false_of_not_eq_true unlisted, BitVec.ofNat_eq_ofNat, BitVec.getLsbD_zero]

theorem regList_ne_nil {list : BitVec 16} (h : list ≠ 0) : regList list ≠ [] := by
  obtain ⟨r, listed⟩ := exists_listed h
  exact List.ne_nil_of_mem ((mem_regList list r).2 listed)

/-- A list that is not empty has a register below R15, or R15. -/
theorem lowList_ne_nil_or {list : BitVec 16} (h : list ≠ 0) : lowList list ≠ [] ∨ list.getLsbD 15 = true := by
  obtain ⟨r, listed⟩ := exists_listed h
  by_cases top : r = 15
  · subst top
    exact .inr listed
  · refine .inl (List.ne_nil_of_mem ((mem_regList _ r).2 ?_))
    have below : ∀ r : Reg, r ≠ 15 → (0x7FFF : BitVec 16).getLsbD r.toNat = true := by decide
    rw [BitVec.getLsbD_and, listed, below r top]
    rfl

/-! ## Transfers of several words -/

theorem keepBase_self (s : State) (rn : Reg) : keepBase s rn s = s := by
  unfold keepBase State.setReg
  split
  · rfl
  · rename_i base
    rw [State.reg, if_neg base, State.setBankReg, State.bankReg, Fin.getElem_fin, Vector.set_getElem_self]

section
variable {s : State} {start : Word} (on : s.alignCheckOn = true) (misaligned : start &&& 3 ≠ 0)
include on misaligned

/-- A load multiple aborts at its first word: a register's, or the pc's when no register is listed. -/
theorem loadList_misaligned {rs : List Reg} {pc : Bool} (nonempty : rs ≠ [] ∨ pc = true) (m : BitVec 5) (rn : Reg) :
    loadList m rs pc start rn s = .abort (s.alignmentFault start) s := by
  have read (priv : Bool) := readMem_misaligned on (.word misaligned) priv
  suffices first : ((loadRegs m s.priv rs start s).bind fun _ s1 =>
      if pc then readMem 4 (start + BitVec.ofNat 32 (4 * rs.length)) s.priv s1 else .ok 0 s1)
      = .abort (s.alignmentFault start) s by
    rw [loadList, first, Acc.onAbort, keepBase_self]
  cases rs with
  | nil =>
    rw [nonempty.resolve_left (· rfl), loadRegs, Acc.bind, if_pos rfl, List.length_nil, Nat.mul_zero, BitVec.add_zero]
    exact read s.priv
  | cons r rs =>
    rw [loadRegs, read]
    rfl

theorem storeWords_misaligned {vs : List Word} (nonempty : vs ≠ []) (priv : Bool) :
    storeWords priv vs start s = .abort (s.alignmentFault start) s := by
  cases vs with
  | nil => exact absurd rfl nonempty
  | cons v vs => exact congrArg (Acc.bind · _) (writeMem_misaligned on (.word misaligned) v priv)

end

/-! ## Transfers and their forms -/

section
variable {s : State} {i : Instr} {a : Addr} {rn rd : Reg} {n : Nat} {priv : Bool} (outside : s.dbg.sds = false)

/-- What the data abort of a misaligned access at `va` leaves. -/
def State.alignmentAborted (s : State) (va : Word) (counted : Bool) : Out := .next (takeDataAbort (s.alignmentFault va) counted s)

/-- A block load that may run loads its list, which is not empty; its abort is counted unless the pc is
loaded. -/
theorem LoadList.exec_counted {m : BitVec 5} {list : BitVec 16} (form : LoadList s i m list a rn) : list ≠ 0 ∧ ∃ wb k,
    exec i s = (loadList m (lowList list) (list.getLsbD 15) a.addr rn s).finish (!list.getLsbD 15) wb k := by
  cases form with
  | ldm1 c b list _ hc hd hn hl clash =>
    have unlisted : ¬(b.w && inList list b.rn) = true := fun e => by
      obtain ⟨hw, hi⟩ := Bool.and_eq_true_iff.1 e
      exact Bool.false_ne_true ((clash hw).symm.trans hi)
    exact ⟨hl, _, _, armCond_allowed hc (mode4Refusal_none hn hl) ((if_neg unlisted).trans (notInDebug_run hd _))⟩
  | ldm2 c b list _ hc hd hn hl hw hs =>
    have hl : list.setWidth 16 ≠ 0 := setWidth_ne_zero (by decide) hl
    have noPc : (list.setWidth 16).getLsbD 15 = false := by simp
    rw [noPc]
    exact ⟨hl, _, _, armCond_allowed hc (mode4Refusal_none hn hl) ((userBank_run hw hs _).trans (notInDebug_run hd _))⟩
  | tPop r list _ hd hl =>
    exact ⟨hl, _, _, (unlessRefused_run (mode4Refusal_none (by decide) hl) _).trans (notInDebug_run hd _)⟩
  | tLdmia rn list _ hd hl =>
    have hl : list.setWidth 16 ≠ 0 := setWidth_ne_zero (by decide) hl
    rw [← inList_lowReg]
    exact ⟨hl, _, _, (unlessRefused_run (mode4Refusal_none (lowReg_ne rn) hl) _).trans (notInDebug_run hd _)⟩

theorem StoreList.list_ne_zero {m : BitVec 5} {list : BitVec 16} (form : StoreList s i m list a rn) : list ≠ 0 := by
  cases form with
  | stm1 _ _ _ _ _ _ hl | stm2 _ _ _ _ _ _ hl | tPush _ _ _ hl => exact hl
  | tStmia _ _ _ hl => exact setWidth_ne_zero (by decide) hl

include outside

theorem finish_misaligned {α : Type} {x : Acc α} {va : Word} (h : x = .abort (s.alignmentFault va) s) (counted : Bool)
    (wb : State → State) (k : α → State → Out) : x.finish counted wb k = s.alignmentAborted va counted := by
  rw [h]
  exact Acc.finish_abort outside _ counted wb k

theorem load_misaligned (on : s.alignCheckOn = true) (misaligned : Misaligned n a.addr) (signed : Bool) :
    load n signed priv a rn rd s = s.alignmentAborted a.addr (rd != 15) := by
  unfold load
  split
  · rename_i word
    subst word
    exact finish_misaligned outside (congrArg (Acc.bind · _) (readMem_misaligned on misaligned priv)) _ _ _
  · exact finish_misaligned outside (readMem_misaligned on misaligned priv) _ _ _

theorem DoubleForm.misaligned {stores : Bool} (form : DoubleForm s i stores a rn rd)
    (h : a.addr &&& 7 = 4 ∨ s.alignCheckOn = true ∧ a.addr &&& 7 ≠ 0) : exec i s = s.alignmentAborted a.addr true := by
  have aborts := alignDouble_misaligned h
  rw [form.exec_eq.1]
  split
  · exact finish_misaligned outside (congrArg (Acc.bind · _) aborts) _ _ _
  · exact finish_misaligned outside (congrArg (Acc.bind · _) aborts) _ _ _

theorem LoadList.misaligned {m : BitVec 5} {list : BitVec 16} (form : LoadList s i m list a rn) (on : s.alignCheckOn = true)
    (h : a.addr &&& 3 ≠ 0) : exec i s = s.alignmentAborted a.addr (!list.getLsbD 15) := by
  obtain ⟨listed, wb, k, run⟩ := form.exec_counted
  rw [run]
  exact finish_misaligned outside (loadList_misaligned on h (lowList_ne_nil_or listed) m rn) _ wb k

/-- A block store has drawn its free value when its first word aborts (log 44). -/
theorem StoreList.misaligned {m : BitVec 5} {list : BitVec 16} (form : StoreList s i m list a rn) (on : s.alignCheckOn = true)
    (h : a.addr &&& 3 ≠ 0) : exec i s = (s.draw 1).alignmentAborted a.addr true := by
  have values : s.stmValues m list rn a.wb.isSome ≠ [] := mt List.map_eq_nil_iff.1 (regList_ne_nil form.list_ne_zero)
  rw [form.exec_eq.1]
  exact finish_misaligned (s := s.draw 1) outside (storeWords_misaligned (s := s.draw 1) on h values s.priv) _ _ _

/-- LDM (3), whose list has R15. -/
theorem ldm3_misaligned {c : Cond} {b : Mode4} {l : BitVec 15} (hc : condPassed c s.cpsr = true) (hd : s.mode ≠ modeDbg)
    (hn : b.rn ≠ 15) (clash : b.w = true → (1#1 ++ l).getLsbD b.rn.toNat = false) (ha : a = s.mode4 b (regList (1#1 ++ l)).length)
    (on : s.alignCheckOn = true) (h : a.addr &&& 3 ≠ 0) : exec (.ldm3 c b l) s = s.alignmentAborted a.addr false := by
  have top : (1#1 ++ l).getLsbD 15 = true := by
    rw [BitVec.getLsbD_append]
    rfl
  have listed : 1#1 ++ l ≠ 0 := fun e => by
    rw [e] at top
    cases top
  have unlisted : ¬(b.w && inList (1#1 ++ l) b.rn) = true := fun e => by
    obtain ⟨hw, hin⟩ := Bool.and_eq_true_iff.1 e
    exact Bool.false_ne_true ((clash hw).symm.trans hin)
  refine armCond_allowed hc (mode4Refusal_none hn listed) ((if_neg unlisted).trans ((notInDebug_run hd _).trans ?_))
  rw [← ha]
  exact finish_misaligned outside (loadList_misaligned on h (.inr rfl) s.mode b.rn) _ _ _

end

/-- Settles O31: a form that may run is its transfer, and every transfer aborts at its first access. -/
theorem alignmentAborts : Obligations.AlignmentAborts := by
  unfold Obligations.AlignmentAborts
  intro s i n signed priv store v a rn rd outside misaligned Aborts word
  refine ⟨fun form on h => form.exec_eq.1.trans (load_misaligned outside on h signed), fun form on h => ?_,
    fun form on h => form.misaligned outside (.inr ⟨on, h⟩), fun form h => form.misaligned outside (.inl h),
    fun m list on h => ⟨fun form => form.misaligned outside on h, fun form => form.misaligned outside on h⟩,
    fun on h hd hT c hc => ⟨fun b l hn clash ha hi => ?_, fun rm hn hrd hrm clashRm clashRd ha hi => ?_,
      fun b crn cp off hcp denied traps hn form hw ha => ?_⟩⟩
  · exact form.exec_eq.1.trans (finish_misaligned outside (writeMem_misaligned on h v priv) _ _ _)
  · subst hi
    exact ldm3_misaligned outside hc hd hn clash ha on h
  · subst hi
    have allowed : swapRefusal rn rd rm = none := swapRefusal_none (fifteen_notMem ⟨hn, hrd, hrm⟩) (by simp [clashRm, clashRd])
    have aborts := swapMem_misaligned on (.word h) (s.reg rm)
    rw [ha] at aborts
    refine armCond_allowed hc allowed ((notInDebug_run hd _).trans ?_)
    show swap 4 rn rd rm s = s.alignmentAborted a.addr true
    rw [ha]
    exact finish_misaligned outside aborts _ _ _
  · have allowed (k : Out) : armCond c s (cpChecked (ldcAccepted cp) cp crn s (unlessRefused (mode5Refusal b)
        (notInDebug s k))) = k :=
      (armCond_pass hc).trans ((cpChecked_run (ldcAccepted_of hcp) denied traps _).trans
        ((unlessRefused_run (mode5Refusal_none hn form hw) _).trans (notInDebug_run hd k)))
    subst ha
    refine ⟨?_, ?_⟩
    · rintro rfl
      exact (allowed _).trans
        (finish_misaligned outside (congrArg (Acc.bind · _) (readMem_misaligned on (.word h) s.priv)) _ _ _)
    · rintro rfl
      exact (allowed _).trans (storeFromCp_abort outside (checkStore_misaligned on (.word h) s.priv))

end Sys2Proof.Machine
end

section
/-!
PROOFS. The fetch without MMU and board aborts (21_mmu R302, R303; 20_memory R246, U3): what the caches, the buffers or a line read
hold for the pc, and what is delivered of it when the code was changed.
-/

namespace Sys2Proof.Machine

/-- What decides which words a fetch of changed code may deliver and what the instruction can see are the same. -/
structure SameCode (s t : State) : Prop where
  mem : t.mem = s.mem
  synced : t.synced = s.synced
  overwritten : t.overwritten = s.overwritten
  dcache : t.dcache = s.dcache
  minid : t.minid = s.minid
  regs : t.regs = s.regs
  cpsr : t.cpsr = s.cpsr
  pc : t.pc = s.pc
  cp15 : t.cp15 = s.cp15
  btb : t.btb = s.btb

theorem SameCode.refl (s : State) : SameCode s s := ⟨rfl, rfl, rfl, rfl, rfl, rfl, rfl, rfl, rfl, rfl⟩

section
variable {s t : State} (h : SameCode s t)
include h

theorem SameCode.draw (k : Nat) : SameCode s (t.draw k) := { h with }

theorem SameCode.isize : t.isize = s.isize := by
  rw [State.isize, State.isize, State.thumb, State.thumb, h.cpsr]

theorem SameCode.bytesAt (a : Word) (n : Nat) : t.bytesAt a n = s.bytesAt a n := bytesAt_congr h.mem a n

theorem SameCode.syncedBytes (a : Word) (n : Nat) : t.syncedBytes a n = s.syncedBytes a n := bytesAt_congr h.synced a n

theorem SameCode.codeBytes (a : Word) (n : Nat) : t.codeBytes a n = s.codeBytes a n := by
  simp only [State.codeBytes, State.standingBytes, State.overwrittenBytes, h.bytesAt, h.dcache, h.minid, h.overwritten]

theorem SameCode.codeChanged (a : Word) (n : Nat) : t.codeChanged a n = s.codeChanged a n := by
  simp only [State.codeChanged, h.codeBytes, h.syncedBytes]

theorem SameCode.codeChoices (a : Word) (w : Nat) : t.codeChoices a w = s.codeChoices a w := by
  simp only [State.codeChoices, h.isize, h.syncedBytes, h.codeBytes, bigEndian_congr h.cp15]

/-- With no branch of the BTB at the pc the word fetched is no stale one. -/
theorem SameCode.staleWord (none : s.btbOn = false ∨ s.btbFind s.pc = none) (w : Nat) : staleWord w t = .ok w t := by
  have on : t.btbOn = s.btbOn := by
    rw [State.btbOn, h.cp15]
    rfl
  have found : t.btbFind t.pc = s.btbFind s.pc := by
    rw [State.btbFind, h.btb, h.pc]
    rfl
  unfold Machine.staleWord
  rw [on, found]
  obtain off | none := none
  · rw [off, if_neg Bool.false_ne_true]
  · rw [none]
    exact ite_self _

end

/-! ## The pc -/

theorem fetchPc_aligned (s : State) : s.fetchPc.toNat % s.isize.toNat = 0 := by
  have aligned := aligned_clear s.thumb s.pc
  unfold Aligned at aligned
  unfold State.fetchPc State.isize
  cases thumb : s.thumb <;> rw [thumb] at aligned <;> exact aligned

theorem fetchAddress_aligned (s : State) : s.fetchAddress.toNat % s.isize.toNat = 0 := by
  have aligned := fetchPc_aligned s
  unfold State.fetchAddress
  split
  · exact aligned
  · have low := mvaOf_mod (s := s) s.fetchPc
    obtain size | size := isize_cases s <;> rw [size] at aligned ⊢ <;> omega

/-! ## What is held for the pc -/

/-- Where a fetch address translates to without MMU. -/
def fetchXlat (a : Word) : Xlat := { pa := a, x := false, c := true, b := false, p := false }

theorem inLine_offset (a : Word) : (a &&& 0xFFFFFFE0) + BitVec.ofNat 32 (offsetOf a) = a :=
  BitVec.eq_of_toNat_eq <| by
    have small : offsetOf a < 32 := Nat.mod_lt _ (by decide)
    rw [toNat_inLine a small]
    exact Nat.div_add_mod' a.toNat 32

theorem instrOf_lineOfBytes {s : State} {a : Word} (aligned : a.toNat % s.isize.toNat = 0) :
    s.instrOf (lineOfBytes (s.bytesAt (a &&& 0xFFFFFFE0) 32)) a = assemble s.bigEndian (s.bytesAt a s.isize.toNat) := by
  have plain : s.eccOn false = false := rfl
  have line := lineBytes_readLine (s := s) (p := false) (line := a &&& 0xFFFFFFE0) aligned fun i _ => by
    rw [State.deliveredByte, plain, if_neg Bool.false_ne_true]
  rw [State.readBytes, plain, if_neg Bool.false_ne_true, inLine_offset] at line
  rw [State.instrOf, line]

section
variable {s : State} {a : Word}

theorem findInstr_of_findMini (none : s.findMini a = none) : s.findInstr a = s.icache.find a := by
  rw [State.findInstr, none]

/-- A fetch that misses reads the line of the pc from external memory. -/
theorem fetchMiss_reads (aligned : a.toNat % s.isize.toNat = 0) (regions : s.board.abortRegions = [])
    (between : s.board.between = []) :
    ∃ t, fetchMiss (fetchXlat a) a s = .ok (assemble s.bigEndian (s.bytesAt a s.isize.toNat)) t ∧ SameCode s t := by
  obtain ⟨z, read⟩ := busRead_plain (s := s.note 0x00) (a &&& 0xFFFFFFE0) ((s.note 0x00).lineRequest a) 32 (p := false) rfl
    regions between
  have line : busReadLine (fetchXlat a).pa (fetchXlat a).p (s.note 0x00)
      = .ok (.data (s.bytesAt (a &&& 0xFFFFFFE0) 32)) (s.withScratch z) := by
    rw [← bytesAt_congr (s := s) (t := s.note 0x00) rfl]
    exact read
  rw [← instrOf_lineOfBytes aligned, fetchMiss, line, Acc.bind]
  dsimp only [BusReply.bytes]
  split
  · exact ⟨_, rfl, ⟨rfl, rfl, rfl, rfl, rfl, rfl, rfl, rfl, rfl, rfl⟩⟩
  · exact ⟨_, rfl, ⟨rfl, rfl, rfl, rfl, rfl, rfl, rfl, rfl, rfl, rfl⟩⟩

theorem fetchHeld_line {l : CacheLine} (found : s.findInstr a = some l) (good : l.badWord a = false) (x : Xlat) :
    fetchHeld x a s = .ok (s.instrOf l.data a) s := by
  rw [fetchHeld, found]
  exact if_neg (good ▸ Bool.false_ne_true)

theorem fetchHeld_buffer {b : FetchBuf} (missed : s.findInstr a = none) (found : s.fetchBufs.find a = some b) (x : Xlat) :
    fetchHeld x a s = .ok (s.instrOf b.data a) s := by
  rw [fetchHeld, missed]
  dsimp only
  rw [found]

theorem fetchHeld_miss (missed : s.findInstr a = none) (none : s.fetchBufs.find a = none) (x : Xlat) :
    fetchHeld x a s = fetchMiss x a s := by
  rw [fetchHeld, missed]
  dsimp only
  rw [none]

end

/-! ## What is delivered -/

section
variable {s t : State} {a : Word} {held : Nat}

/-- A fetch delivers the word held, and of changed code that no line was downloaded for one of the choices. -/
theorem fetchAt_delivers (found : fetchHeld (fetchXlat a) a s = .ok held t) (same : SameCode s t) : ∃ w u,
    fetchAt (fetchXlat a) a s = .ok w u ∧ SameCode s u
      ∧ (s.codeChanged a s.isize.toNat = false ∨ s.hitsDownloaded a = true → w = held) ∧ w ∈ s.codeChoices a held := by
  unfold fetchAt
  split
  · exact ⟨held, t, found, same, fun _ => rfl, List.mem_cons_self⟩
  · rename_i memory
    rw [found, Acc.bind]
    obtain ⟨-, run⟩ | ⟨changed, v, chosen, run⟩ := changedWord_cases (fetchXlat a).pa held t
    · exact ⟨held, t, run, same, fun _ => rfl, List.mem_cons_self⟩
    · rw [same.isize, same.codeChanged] at changed
      rw [same.codeChoices] at chosen
      exact ⟨v, t.draw 1, run, same.draw 1, fun h => h.elim (fun unchanged => nomatch unchanged.symm.trans changed)
        (absurd · memory), chosen⟩

theorem eq_held_or_assembled {w : Nat} (h : w ∈ s.codeChoices a held) : w = held ∨
    ∃ bs ∈ s.syncedBytes a s.isize.toNat :: s.standingBytes a s.isize.toNat ++ s.overwrittenBytes a s.isize.toNat,
      w = assemble s.bigEndian bs := by
  obtain rfl | chosen := List.mem_cons.1 h
  · exact .inl rfl
  · obtain ⟨bs, listed, rfl⟩ := List.mem_map.1 chosen
    exact .inr ⟨bs, listed, rfl⟩

theorem fetchWord_mmuOff (mmuOff : s.mmuOn = false) (outside : s.dbg.sds = false) :
    fetchWord s = fetchAt (fetchXlat s.fetchAddress) s.fetchAddress s := by
  unfold fetchWord
  dsimp only
  rw [outside, if_neg Bool.false_ne_true, translate, mmuOff]
  rfl

end

/-- Settles O5: the fetch is `fetchAt` the pc's MVA, of what `fetchHeld` finds there. -/
theorem fetchReadsMemory : Obligations.FetchReadsMemory := by
  unfold Obligations.FetchReadsMemory
  intro s mmuOff outside noMini noBranch regions between a n Delivers
  have find : s.findInstr a = s.icache.find a := findInstr_of_findMini noMini
  have delivers {downloaded : Bool} {held : Nat} {u : State} (found : fetchHeld (fetchXlat a) a s = .ok held u)
      (same : SameCode s u) (hits : downloaded = true → s.hitsDownloaded a = true) : Delivers downloaded held := by
    obtain ⟨w, t, run, same, unchanged, chosen⟩ := fetchAt_delivers found same
    refine ⟨w, t, ?_, fun h => unchanged (h.imp_right hits), fun _ => eq_held_or_assembled chosen, same.mem, same.regs, same.cpsr,
      same.pc, same.cp15⟩
    rw [fetch, fetchWord_mmuOff mmuOff outside, run]
    exact same.staleWord noBranch w
  refine ⟨fun l found good => ?_, fun missed b found => ?_, fun missed noBuffer => ?_⟩
  · refine delivers (fetchHeld_line (find.trans found) good _) (.refl s) fun downloaded => ?_
    rw [State.hitsDownloaded, found, Option.any_some, downloaded, Bool.or_true]
  · exact delivers (fetchHeld_buffer (find.trans missed) found _) (.refl s) nofun
  · obtain ⟨t, read, same⟩ := fetchMiss_reads (fetchAddress_aligned s) regions between
    exact delivers ((fetchHeld_miss (find.trans missed) noBuffer _).trans read) same nofun

end Sys2Proof.Machine
end
